-- ==== Sys2Proof/Word.lean ====
section
/-! DEFINITION. The word types of the KW800 model: bytes, register words of 32 and 64 bits, and the sparse tables
that hold numbered things (registers, counters, units, memory bytes). Byte order is little-endian everywhere (R4). -/

namespace Sys2Proof

/-- A byte of memory. -/
abbrev Byte := BitVec 8

/-- A 32-bit register word. -/
abbrev Word32 := BitVec 32

/-- A 64-bit register word: the width of most BAR0 registers (R8). -/
abbrev Word := BitVec 64

/-- A sparse table: keys strictly rising, and no entry equal to the table's default value. -/
abbrev Tbl (α : Type) := List (Nat × α)

/-- A 256-bit bench vector register (R83). -/
abbrev Vec256 := BitVec 256

end Sys2Proof
end

