-- ==== Sys2Proof/Machine/StShop.lean ====
section
/-! DEFINITION. Plain-data records of State for the shops: engine commands and queues, the matrix array, sheet banks,
ticket lists, stockroom windows (chapters 3 and 5) and the bench cores (chapter 4). -/

namespace Sys2Proof.Machine

/-- A context tag in use (R588): the tenant (none: the operator), the class, the order and GEN of an order step, or the ring and
TAG of a RUN. -/
structure CtxRec where
  tenant : Option Nat
  lc : Bool
  order : Option (Nat × Nat)
  ring : Nat
  tag : Nat
  /-- The bell in which the work was admitted. -/
  bell : Nat
  /-- The work ended with a fault: code and SUB (Table 5.11). -/
  fault : Option (Nat × Nat)
  /-- A cancel has been asked for. -/
  cancelled : Bool
  /-- Orders bound to the slots of the dispatch, slot 0 first (R233). -/
  slots : List Nat
deriving DecidableEq, Repr

/-- Where an engine command comes from: a template of a sheet bank, or a ticket of a list. -/
inductive CmdSrc where
  | templ (bank t tile : Nat)
  | ticket (list idx : Nat)
deriving DecidableEq, Repr

/-- An engine command (R124): its body words q0 to q4 as Table 5.6 lays them out. -/
structure Cmd where
  engine : Nat
  opcode : Nat
  ctx : Nat
  lc : Bool
  tenant : Option Nat
  cvt : Nat
  seed : Nat
  body : List Nat
  waits : Nat
  posts : Nat
  src : CmdSrc
  /-- An operand sum that did not fit its field (R121): a SHAPE fault at the start. -/
  overflow : Bool
  /-- Values taken from streams with their SPACE, checked at the start (R120). -/
  checks : List (Nat × Nat)
deriving DecidableEq, Repr

/-- A command that has started (R113): whether its operation is done, and the bell in which it started. -/
structure Run where
  cmd : Cmd
  done : Bool
  bell : Nat
  /-- Remote requests have been sent (R409); those not answered; data returned by offset, with its poison mask; a refusal's
  work-fault code. -/
  asked : Bool
  need : List Nat
  chunks : List (Nat × List (BitVec 8) × Nat)
  refused : Option Nat
deriving DecidableEq, Repr

/-- One engine of a shop (R112, R113): entries not yet started, oldest first, and commands started and not completed, in
start order. -/
structure EngSt where
  queue : List Cmd
  runs : List Run
deriving DecidableEq, Repr

def EngSt.reset : EngSt := ⟨[], []⟩

/-- A tile of a sheet or a ticket that has commands (R123, R128). -/
structure TileSt where
  num : Nat
  /-- Bell in which its first command started. -/
  started : Option Nat
  /-- Commands emitted and not completed. -/
  left : Nat
deriving DecidableEq, Repr

/-- A position in the walk of a loop nest: indices of levels 0 to 6, level, phase, and the next template number. -/
structure Cursor where
  idx : List Nat
  level : Nat
  phase : Nat
  templ : Nat
deriving DecidableEq, Repr

/-- A sheet bank (R116 to R127). -/
structure SheetBank where
  /-- 0 free; 1 loading; 2 waiting to start; 3 running (Table 5.12). -/
  st : Nat
  ctx : Nat
  lc : Bool
  tenant : Option Nat
  addr : Nat
  /-- The 256 registers, once the image has been read. -/
  regs : List Nat
  /-- The image passed R122; a failure's SUB. -/
  bad : Option Nat
  go : Bool
  /-- The GO is a resume GO. -/
  resume : Bool
  /-- Windows are held. -/
  granted : Bool
  /-- Enabled waits already satisfied, as a mask. -/
  waited : Nat
  /-- Token counters (R114). -/
  tokens : List Nat
  /-- Next emission, none when the nest is finished. -/
  cur : Option Cursor
  /-- Tile number of the last emission. -/
  lastTile : Option Nat
  tiles : List TileSt
  /-- Pre-emption asked for, and emission stopped at a pre-emption point. -/
  preempt : Bool
  stopped : Bool
deriving DecidableEq, Repr

def SheetBank.reset : SheetBank where
  st := 0
  ctx := 0
  lc := false
  tenant := none
  addr := 0
  regs := []
  bad := none
  go := false
  resume := false
  granted := false
  waited := 0
  tokens := []
  cur := none
  lastTile := none
  tiles := []
  preempt := false
  stopped := false

/-- A ticket in a list's window (R132): its 16 words, whether it has been issued, which waits hold already. -/
structure TicketSt where
  idx : Nat
  words : List Nat
  issued : Bool
  started : Option Nat
  waited : Nat
deriving DecidableEq, Repr

/-- A ticket list (R130, R132). -/
structure TicketList where
  id : Nat
  ctx : Nat
  lc : Bool
  tenant : Option Nat
  addr : Nat
  count : Nat
  /-- Resident: its header was accepted and it holds one of the two places. -/
  resident : Bool
  granted : Bool
  /-- WINDOW0 to WINDOW3. -/
  wins : List Nat
  /-- Next ticket to enter the window. -/
  next : Nat
  window : List TicketSt
  completed : Nat
deriving DecidableEq, Repr

/-- A held stockroom window (R76), in 4 KiB units. -/
structure Window where
  ctx : Nat
  tenant : Option Nat
  base : Nat
  size : Nat
  /-- Being cleared (R77). -/
  clearing : Bool
  /-- Sheet bank 0 or 1, or 2 + list id, that asked for it. -/
  holder : Nat
deriving DecidableEq, Repr

/-- A pre-empted sheet (R126, R127): its context, image and windows stay with the shop. -/
structure Preempted where
  ctx : Nat
  addr : Nat
  lc : Bool
  tenant : Option Nat
  windows : Nat
deriving DecidableEq, Repr

/-- A sheet load waiting in the command processor. -/
structure LoadEntry where
  ctx : Nat
  addr : Nat
  lc : Bool
  tenant : Option Nat
deriving DecidableEq, Repr

/-- A pass in the array (R65 to R71): from its start to the drain of its last vector. -/
structure PassSt where
  cmd : Cmd
  /-- Pass tag: the buffer it multiplies by. -/
  tag : Nat
  /-- Its vectors have streamed through; slot of its last vector's entry. -/
  streamed : Bool
  last : Nat
  /-- Activation codes by sub-array, then vector. -/
  acts : List (List (List Nat))
  drained : Nat
  /-- First vector whose activations come from a poisoned line. -/
  poisonAt : Option Nat
  /-- A vector was flagged (R79): row and column (logical), weight parity, and two or more columns of the row. -/
  flag : Option (Nat × Nat × Bool × Bool)
deriving DecidableEq, Repr

/-- The matrix array (R63 to R73). -/
structure ArraySt where
  /-- Weight codes of the two buffers, keyed buffer × 2^9 + row, one list per sub-array. -/
  weights : Tbl (List (List Nat))
  /-- Rows of the next tile already written by the loader. -/
  rows : List Nat
  /-- Pass tag of the newest tile. -/
  tag : Nat
  /-- Passes started and not completely drained, oldest first. -/
  passes : List PassSt
  /-- Mode and format class of the last pass; slot of its last vector's entry; drain slot; the last-vector slot of the
  pass before the newest tile. -/
  mode : Nat
  cls : Nat
  lastSlot : Nat
  drainSlot : Nat
  prevLast : Nat
  /-- Passes started since reset, up to two (the reload rule needs the pass before last). -/
  count : Nat
  /-- The array map (R78): physical rows and columns not enabled, each with whether it is a free spare. -/
  rowsOff : List (Nat × Bool)
  colsOff : List (Nat × Bool)
  /-- Physical rows and columns retired by soft repair, and those of them that the flash record holds. -/
  softRows : List Nat
  softCols : List Nat
  flashRows : List Nat
  flashCols : List Nat
  lastRow : Nat
  lastCol : Nat
  /-- Transients per cell in the ledger period, keyed row × 256 + column. -/
  transients : Tbl Nat
  /-- A repair to be written to the soft repair record at the next ledger close. -/
  softPending : Bool
  failed : Bool
deriving DecidableEq, Repr

def ArraySt.reset : ArraySt where
  weights := []
  rows := []
  tag := 0
  passes := []
  mode := 0
  cls := 0
  lastSlot := 0
  drainSlot := 0
  prevLast := 0
  count := 0
  rowsOff := [(128, true), (129, true), (130, true), (131, true)]
  colsOff := [(128, true), (129, true), (130, true), (131, true)]
  softRows := []
  softCols := []
  flashRows := []
  flashCols := []
  lastRow := 0xFF
  lastCol := 0xFF
  transients := []
  softPending := false
  failed := false

/-- A kernel slot of a bench group (R97). -/
structure KSlot where
  kid : Nat
  ctx : Nat
  tenant : Option Nat
  first : Nat
deriving DecidableEq, Repr

/-- A launch (R98, R99). -/
structure Launch where
  cmd : Cmd
  kid : Nat
  slot : Nat
  /-- Entry instruction index. -/
  entry : Nat
  groups : Nat
  count : Nat
  /-- Next undispatched instance, instances halted. -/
  next : Nat
  halted : Nat
  argBase : Nat
  argStride : Nat
  idem : Bool
  rerun : Bool
  flags : Nat
  /-- A bench fault's code. -/
  fault : Option Nat
deriving DecidableEq, Repr

/-- A device-memory access of a bench that has not returned (R95, R96). -/
structure OutAcc where
  id : Nat
  /-- 0 VLDM; 1 VSTM; 2 SATOM. -/
  kind : Nat
  dest : Nat
  data : List (BitVec 8)
  poison : Bool
  /-- Its data or completion is at hand: at once for this device's memory, with the answer for another device's. -/
  arrived : Bool
deriving DecidableEq, Repr

/-- What a bench waits for. -/
inductive BWait where
  | run
  | tally
  | outstanding (max : Nat)
deriving DecidableEq, Repr

/-- A bench (R83 to R100). Unlisted registers hold zero; an unlisted mask register holds zero (R99), and m0 reads as all
ones. -/
structure BenchSt where
  s : Tbl (BitVec 64)
  v : Tbl Vec256
  m : Tbl (BitVec 32)
  pc : Nat
  bctl : Nat
  bflags : Nat
  bsridx : BitVec 64
  inst : Nat
  arg : Nat
  seed : Nat
  ctx : Nat
  /-- Device time at the instance's start, ns. -/
  start : Nat
  /-- Key of the running launch (its command's engine position is not needed): index of the launch in the shop. -/
  launch : Option Nat
  /-- LOOP in progress: first index, index after the body, iterations left. -/
  loop : Option (Nat × Nat × Nat)
  out : List OutAcc
  nextOut : Nat
  /-- Accesses a FENCE holds later ones for. -/
  fence : List Nat
  /-- Signals waiting for earlier accesses: accesses, tally, increment. -/
  sigs : List (List Nat × Nat × Nat)
  wait : BWait
  local_ : Tbl (BitVec 8)
  /-- Tenant last served, once one has been (R100). -/
  lastTenant : Option (Option Nat)
  absent : Bool
  /-- A reset named by SHOP_BENCH_RESET waits (R109); a reset is under way. -/
  resetPend : Bool
  resetting : Bool
deriving DecidableEq, Repr

def BenchSt.reset : BenchSt where
  s := []
  v := []
  m := []
  pc := 0
  bctl := 0
  bflags := 0
  bsridx := 0
  inst := 0
  arg := 0
  seed := 0
  ctx := 0
  start := 0
  launch := none
  loop := none
  out := []
  nextOut := 0
  fence := []
  sigs := []
  wait := .run
  local_ := []
  lastTenant := none
  absent := false
  resetPend := false
  resetting := false

/-- A logical shop (chapters 3 to 6). -/
structure ShopSt where
  /-- 0 present; 1 absent; 2 in reset (Table 3.6). -/
  state : Nat
  /-- The spare position now serving this number, if not its own. -/
  spare : Option Nat
  shadow : Nat
  array : ArraySt
  engines : List EngSt
  banks : List SheetBank
  loads : List LoadEntry
  lists : List TicketList
  nextList : Nat
  windows : List Window
  /-- Tenant + 1 that last owned each 4 KiB granule; 0 for none (R77); 4,097 for the operator. -/
  owner : Tbl Nat
  preempted : List Preempted
  /-- Kernel slots, keyed group × 4 + slot, and instruction memory, keyed group × 4,096 + index. -/
  slots : Tbl (Option KSlot)
  imem : Tbl (BitVec 32)
  launches : List Launch
  spareFree : Nat
  lastSpared : Nat
  fwVersion : Nat
  fwCrc : Nat
  /-- A firmware update waiting for R108: version, CRC, instructions. -/
  fwPending : Option (Nat × Nat × List Nat)
  /-- The last SHOP_WORK_FAULT record and the last bench fault record are held in their registers. -/
  fault : Option (List Nat)
  faultOver : Bool
  benchFault : Option (List Nat)
  benchOver : Bool
  transient : Nat
  hard : Nat
  parity : Nat
deriving DecidableEq, Repr

/-- A shop after reset: in reset, with four free spare rows and columns and sixteen free spare benches. -/
def ShopSt.reset : ShopSt where
  state := 2
  spare := none
  shadow := 0xF
  array := ArraySt.reset
  engines := List.replicate 5 EngSt.reset
  banks := [SheetBank.reset, SheetBank.reset]
  loads := []
  lists := []
  nextList := 0
  windows := []
  owner := []
  preempted := []
  slots := []
  imem := []
  launches := []
  spareFree := 16
  lastSpared := 0x1FF
  fwVersion := 0
  fwCrc := 0
  fwPending := none
  fault := none
  faultOver := false
  benchFault := none
  benchOver := false
  transient := 0
  hard := 0
  parity := 0

end Sys2Proof.Machine
end

