-- ==== Sys2Proof/Machine/StSched.lean ====
section
/-! DEFINITION. Plain-data records of State for bells, the scheduler and the power governor (chapter 13). Energies are in
picojoules, times in nanoseconds, clocks in units of 50 MHz. -/

namespace Sys2Proof.Machine

/-- What a candidate is (R325). -/
inductive WorkKind where
  | sheet | ticket | invocation | copy | collective
deriving DecidableEq, Repr

/-- A piece of work the scheduler admits tile by tile: a sheet (its tiles), a ticket, an invocation, a copy or a collective
(one tile each). -/
structure Cand where
  id : Nat
  kind : WorkKind
  /-- Context tag, taken at the first admission (R588). -/
  ctx : Option Nat
  tenant : Option Nat
  lc : Bool
  /-- Work of Nororadra, the floorwalker or the order book: ahead of the round robin (R329, R587). -/
  device : Bool
  /-- Order and GEN of an order step; ring and TAG of a RUN. -/
  order : Option (Nat × Nat)
  ring : Nat
  tag : Nat
  /-- Sheet image, list or program address; list index of a ticket. -/
  addr : Nat
  idx : Nat
  /-- Stacks of an invocation's gang or of a copy; quarter of a shop tile, and a pinned shop. -/
  gang : List Nat
  quarter : Nat
  pin : Option Nat
  /-- The shop serving it, once chosen. -/
  shop : Option Nat
  /-- Tiles in all, started, and admitted but not started. -/
  total : Nat
  started : Nat
  admitted : Nat
  /-- Charge of one tile at 2.0 GHz, pJ (per member stack for an invocation), and its cycle bound. -/
  energy : Nat
  cycles : Nat
  deadline : Nat
  /-- Bell of the step's first admission; the work is committed from then (R333). -/
  admBell : Option Nat
  /-- Layer of a model with both lowerings whose work this is. -/
  layer : Option (Nat × Nat)
  /-- Number of the host's RUN, COPY or MODEL_LOAD that it belongs to. -/
  job : Nat
deriving DecidableEq, Repr

/-- A tile that has started and not ended, for carry-in (R328) and unit time (R330). -/
structure RunTile where
  cand : Nat
  /-- 0 shop, 1 stack; unit number. -/
  unitKind : Nat
  unit : Nat
  charge : Nat
  /-- Start and expected end, ns. -/
  start : Nat
  stop : Nat
deriving DecidableEq, Repr

/-- The floorwalker's state between boundaries (chapter 12). -/
structure PlcSt where
  /-- Stacks below FREE_LOW, and those whose SPACE_LOW and PIN_HOT the ledger period has seen. -/
  low : List Nat
  lowSaid : List Nat
  hotSaid : List Nat
  /-- Aborts of the bell by cause (Table 12.4). -/
  aborts : Tbl Nat
  /-- Units marked absent whose routing begins at the next boundary, as UNIT words. -/
  absent : List Nat
  /-- Shops whose shadow changes at the next boundary: shop, old shadow. -/
  moved : List (Nat × Nat)
deriving DecidableEq, Repr

/-- Bells, scheduler and governor. -/
structure SchedSt where
  plc : PlcSt
  /-- Bytes of migration copies admitted in the bell (MIG_RATE). -/
  migUsed : Nat
  cands : List Cand
  nextId : Nat
  /-- Candidates that step 1 does not reach in the plan being made (R322). -/
  late : List Nat
  /-- Bell at which the running ledger period opened. -/
  ledgerAt : Nat
  /-- Context tags in use (R588). -/
  ctxs : Tbl (Option CtxRec)
  running : List RunTile
  /-- Contexts to end on every other unit at the next boundary (R134): tag, code, SUB. -/
  ending : List (Nat × Nat × Nat)
  /-- Period in force in 10 µs units, ledger period in force in bells, and values that wait (R318). -/
  period : Nat
  ledger : Nat
  nextPeriod : Option Nat
  nextLedger : Option Nat
  /-- Instant at which the running bell opened. -/
  opened : Nat
  /-- Plan of the bell: A, remainder and H, all pJ. -/
  allow : Nat
  remainder : Nat
  hold : Nat
  short : Bool
  shortSaid : Bool
  /-- Energy used of each thermal allowance in the bell: kind (1 quarter, 2 shadow, 4 stack) × 512 + unit. -/
  used : Tbl Nat
  /-- Time until which a unit's admitted work fills it: kind (0 shop, 1 stack) × 512 + unit. -/
  freeAt : Tbl Nat
  deficit : Tbl Nat
  /-- Participant of the rotation to be visited next; 4,096 is the operator. -/
  rot : Nat
  /-- Governor: energy of the bell so far, in units of 10 pJ; charges admitted in it, pJ; standing draw of the closing bell, mW;
  carry-in, pJ; clamp. -/
  energy : Nat
  charged : Nat
  standing : Nat
  carry : Nat
  clamped : Bool
  clampBells : Nat
  clampEnergy : Nat
  /-- Sums of the ledger period: measured µJ, charges pJ, standing pJ. -/
  sumMeasured : Nat
  sumCharged : Nat
  sumStanding : Nat
  /-- Correction factor in 1/128 (R339). -/
  corr : Nat
  /-- Last closed bell: measured and charged µJ, B in 0.1 mJ of the bell in force. -/
  lastMeasured : Nat
  lastCharged : Nat
  budget : Nat
  /-- Clock planned for each quarter, when not 40; the clamp replaces it (R338). -/
  clk : Tbl Nat
  /-- Order steps that completed or ended in the closing bell (R218): order, completed. -/
  stepEnds : List (Nat × Bool)
deriving DecidableEq, Repr

def SchedSt.reset : SchedSt where
  plc := ⟨[], [], [], [], [], []⟩
  migUsed := 0
  cands := []
  nextId := 0
  late := []
  ledgerAt := 0
  ctxs := []
  running := []
  ending := []
  period := 20
  ledger := 5000
  nextPeriod := none
  nextLedger := none
  opened := 0
  allow := 0
  remainder := 0
  hold := 0
  short := false
  shortSaid := false
  used := []
  freeAt := []
  deficit := []
  rot := 0
  energy := 0
  charged := 0
  standing := 0
  carry := 0
  clamped := false
  clampBells := 0
  clampEnergy := 0
  sumMeasured := 0
  sumCharged := 0
  sumStanding := 0
  corr := 128
  lastMeasured := 0
  lastCharged := 0
  budget := 8000
  clk := []
  stepEnds := []

end Sys2Proof.Machine
end

