-- ==== Sys2Proof/Machine/StOrder.lean ====
section
/-! DEFINITION. Plain-data records of State for loaded models, orders, the pattern book and the cellar (chapters 9 and
10), token selectors and grammars (chapter 11) and the fullers (chapter 8). -/

namespace Sys2Proof.Machine

/-- One dimension's split (Table 6.2): kinds 0 replicated, 1 blocked, 2 cyclic; parts; cyclic blocks. -/
structure DimSplit where
  extent : Nat
  stride : Nat
  dkind : Nat
  dparts : Nat
  dblock : Nat
  ukind : Nat
  uparts : Nat
  ublock : Nat
deriving DecidableEq, Repr

/-- A tensor descriptor (Tables 6.1 and 6.2) with its reserved bits gathered in one flag. -/
structure TensorDesc where
  magic : Nat
  target : Nat
  plane : Bool
  fmt : Nat
  /-- 0 stack memory; 1 warehouse; 2 stockroom; 3 host memory. -/
  home : Nat
  group : Nat
  base : Nat
  partStride : Nat
  kdim : Nat
  segdir : Nat
  scaleDesc : Nat
  reserved : Bool
  dims : List DimSplit
  /-- A pin of the image (R28): the stack or quarter of unit part 0, when there is one. -/
  pin : Option Nat
deriving DecidableEq, Repr

/-- A KV descriptor (R213): format code, group, head dimension, and the splits of layers, heads and positions. -/
structure KvDesc where
  fmt : Nat
  group : Nat
  d : Nat
  layers : DimSplit
  heads : DimSplit
  pos : DimSplit
deriving DecidableEq, Repr

/-- One piece of work of a lowered image's program, as the scheduler charges and places it (R325, R327). -/
structure WorkItem where
  kind : WorkKind
  addr : Nat
  idx : Nat
  gang : List Nat
  quarter : Nat
  pin : Option Nat
  total : Nat
  energy : Nat
  cycles : Nat
  /-- A layer with both lowerings, and whether this is its work on the fullers. -/
  layer : Option (Nat × Bool)
deriving DecidableEq, Repr

/-- A layer with both lowerings (R207, R309): the largest batch for which the fullers are faster, the side now and the side the
image names first (true: fullers), and a side pin. -/
structure SideRec where
  layer : Nat
  best : Nat
  now : Bool
  first : Bool
  pinned : Bool
  /-- Tensors that hold its weights, and their granules once the image is placed. -/
  tensors : List Nat
  granules : List Nat
  /-- Consecutive boundaries with the live batch above `best`, at or below it, and with every stack of its weights at step 0. -/
  above : Nat
  below : Nat
  cool : Nat
  /-- It has moved to the shops for a stack's temperature. -/
  hot : Bool
deriving DecidableEq, Repr

/-- A fuller routine image (Table 8.4). -/
structure RoutineImg where
  magic : Nat
  typ : Nat
  target : Nat
  slot : Nat
  nseg : Nat
  crc : Nat
  reserved : Bool
  code : List Nat
deriving DecidableEq, Repr

/-- A directive of a loaded model (Table 12.5). -/
structure DirRec where
  kind : Nat
  hard : Bool
  weight : Nat
  object : Nat
  part : Nat
  unit : Nat
deriving DecidableEq, Repr

/-- A loaded model (R441). -/
structure ModelRec where
  tenant : Nat
  vocab : Nat
  kv : Option KvDesc
  /-- For each unit part of the KV descriptor the stack whose weight parts hold all its heads, where there is one (R312). -/
  parts : List (Option Nat)
  /-- Work of one prefill step, of one decode step, and of each RUN entry. -/
  prefill : List WorkItem
  decode : List WorkItem
  entries : List (List WorkItem)
  /-- Granules and warehouse pages its tensors hold, routine slots, relays. -/
  granules : List Nat
  whPages : List Nat
  routines : List Nat
  relays : List Nat
  /-- Device groups that its image names (R408). -/
  groups : List Nat
  sides : List SideRec
  directives : List DirRec
  /-- Still loading; being unloaded. -/
  loading : Bool
  unloading : Bool
deriving DecidableEq, Repr

/-- A FEED as an order holds or runs it. -/
structure FeedRec where
  tokens : List Nat
  maxNew : Nat
  isMatch : Bool
  ring : Nat
  tag : Nat
  /-- Scan time, ns. -/
  scan : Nat
deriving DecidableEq, Repr

/-- A running or waiting step of an order (R218): positions t0 to e − 1; whether it selects; whether it has been
admitted; frames its reservation took. -/
structure StepRec where
  t0 : Nat
  e : Nat
  selects : Bool
  attach : Bool
  admitted : Bool
  ctx : Nat
  /-- Bell of its admission; DEADLINE_MISS written. -/
  bell : Nat
  missed : Bool
  /-- Granules of pages and blocks that the reservation allocated. -/
  took : List Nat
  /-- The selection of the step is done. -/
  selected : Bool
  /-- An unexpected delivery of the step has been counted (R269). -/
  unexpected : Bool
  /-- Orders dispatched with this step as one dense batch, in batch order (R233). -/
  batch : List Nat
deriving DecidableEq, Repr

/-- The selector parameter block (Table 11.1). -/
structure SelParams where
  temp : Nat
  topP : Nat
  minP : Nat
  repPen : Nat
  topK : Nat
  repWin : Nat
  listEn : Bool
  batch : Nat
  seed : Nat
  list : Nat
  listCount : Nat
  stops : List Nat
  reserved : Bool
deriving DecidableEq, Repr

def SelParams.reset : SelParams := ⟨0, 0x3F800000, 0, 0x3F800000, 0, 0, false, 1, 0, 0, 0, [], false⟩

/-- A copy in progress for an order: cellaring, recall, attach or prefix store. -/
structure OrderCopy where
  /-- 0 cellaring; 1 recall; 2 attach; 3 prefix store. -/
  kind : Nat
  /-- Pages of an attach or prefix store; the copy has completed and waits for its commit. -/
  total : Nat
  done : Bool
  /-- A failure found: 0 none; 1 write error or port loss; 3 CELLAR_POISON; 4 CELLAR_CORRUPT. -/
  failed : Nat
  /-- Cellar units of the image (port, unit), or pattern-book nodes copied, or granules reserved. -/
  units : List (Nat × Nat)
  nodes : List Nat
  /-- Root and order-state granules reserved by a recall. -/
  granules : List Nat
  tag : Nat
deriving DecidableEq, Repr

/-- A cellar image (R252): its frames with their bytes and poison, kept as the plaintext that recall must find again; the
encryption of R253 changes nothing that a reader of the model can observe. -/
structure CellarImg where
  units : List (Nat × Nat)
  n : Nat
  /-- The copied frames: page entry index × 16 + frame of the page, or 2^40 for the order-state frame; the nonzero bytes by
  offset; the poisoned sectors. -/
  frames : List (Nat × List (Nat × BitVec 8) × List Nat)
  /-- GEN and the CELLARINGS + 1 of its tweak (R253). -/
  gen : Nat
  tweak : Nat
  /-- Device time of the commit, ns (R313). -/
  time : Nat
deriving DecidableEq, Repr

/-- An order (Table 10.1) with its order-state frame and the work it has in hand. -/
structure OrderRec where
  /-- Table 10.2. -/
  state : Nat
  lc : Bool
  noCellar : Bool
  prior : Nat
  tenant : Nat
  model : Nat
  grammar : Nat
  grammarEn : Bool
  gen : Nat
  n : Nat
  pendingTok : Nat
  pendValid : Bool
  deadline : Nat
  root : Nat
  stateFrame : Nat
  fault : Nat
  reason : Nat
  cellar : Nat
  evmask : Nat
  ttl : Nat
  cellarAfter : Nat
  /-- EXPIRE to the nanosecond, in device time; 0 unless CELLARED. Word q5 shows its milliseconds. -/
  expire : Nat
  generated : Nat
  fed : Nat
  cellarings : Nat
  misses : Nat
  frames : Nat
  /-- Order-state frame: parameters, automaton state and stack, tokens selected and not reported with the position of the
  first, penalty history (position, token). -/
  params : SelParams
  autState : Nat
  autStack : List Nat
  unreported : List Nat
  unrepAt : Nat
  history : List (Nat × Nat)
  /-- The order is under a PREFILL or DECODE: tokens still to append, MAX_NEW, tokens selected in this generation, STOP
  asked, the state that the FEED found. -/
  feed : List Nat
  maxNew : Nat
  made : Nat
  stopAsked : Bool
  found : Nat
  feedTag : Nat
  step : Option StepRec
  /-- An end of generation waiting for the boundary: its reason. -/
  genEnd : Option Nat
  held : Option FeedRec
  /-- Bells left of a held recall; a CELLAR applied. -/
  recallWait : Nat
  recallAsked : Bool
  /-- TAG of the RECALL held; cause of the last failed reservation (Table 10.4). -/
  recallTag : Option Nat
  recallCause : Nat
  cellarAsked : Bool
  copy : Option OrderCopy
  image : Option CellarImg
  /-- Pages: index (k × Y + l) × H + h ↦ granule + 1; page-list blocks: number ↦ granule + 1. -/
  pages : Tbl Nat
  blocks : Tbl Nat
  /-- Stacks of the unit parts, selector. -/
  parts : List Nat
  selector : Nat
  idle : Nat
  /-- Fault waiting for the boundary: cause, work-fault code, SUB. -/
  faultPend : Option (Nat × Nat × Nat)
  /-- Truncation to apply its frees at the next bell. -/
  cutPend : Bool
deriving DecidableEq, Repr

/-- A FREE order after reset: GEN 0. -/
def OrderRec.reset : OrderRec where
  state := 0
  lc := false
  noCellar := false
  prior := 0
  tenant := 0
  model := 0
  grammar := 0
  grammarEn := false
  gen := 0
  n := 0
  pendingTok := 0
  pendValid := false
  deadline := 0
  root := 0
  stateFrame := 0
  fault := 0
  reason := 0
  cellar := 0
  evmask := 0
  ttl := 0
  cellarAfter := 0
  expire := 0
  generated := 0
  fed := 0
  cellarings := 0
  misses := 0
  frames := 0
  params := SelParams.reset
  autState := 0
  autStack := []
  unreported := []
  unrepAt := 0
  history := []
  feed := []
  maxNew := 0
  made := 0
  stopAsked := false
  found := 0
  feedTag := 0
  step := none
  genEnd := none
  held := none
  recallWait := 0
  recallAsked := false
  recallTag := none
  recallCause := 9
  cellarAsked := false
  copy := none
  image := none
  pages := []
  blocks := []
  parts := []
  selector := 0
  idle := 0
  faultPend := none
  cutPend := false

/-- A pattern-book node (R259 to R262): parent + 1 (0: the root), its 256 token IDs, last match, and its frames' granules
by local layer × heads + head. -/
structure NodeRec where
  tenant : Nat
  model : Nat
  parent : Nat
  tokens : List Nat
  lastMatch : Nat
  granules : List Nat
  /-- Copies that use its frames; to be released when they commit (DROP_PREFIXES). -/
  busy : Nat
  drop : Bool
deriving DecidableEq, Repr

/-- A far port (Table 17.18): state, link width and speed code, usable units, whether a device is attached. -/
structure FarPort where
  state : Nat
  width : Nat
  speed : Nat
  capacity : Nat
  present : Bool
deriving DecidableEq, Repr

def FarPort.reset : FarPort := ⟨0, 0, 0, 0, false⟩

/-- The order book. -/
structure BookSt where
  orders : Tbl OrderRec
  models : Tbl (Option ModelRec)
  nodes : Tbl (Option NodeRec)
  /-- Tenants with a cellar key (R253). -/
  keys : List Nat
  /-- Tenants enabled by the operator (R442). -/
  enabled : List Nat
  /-- The eight words shown in OBK_ENTRY0–7. -/
  shown : List Nat
  far : Tbl FarPort
deriving DecidableEq, Repr

def BookSt.reset : BookSt := ⟨[], [], [], [], [], [], []⟩

/-- A claimed logit row (R267, R269): values keyed by token, code + 1. -/
structure LogitRow where
  order : Nat
  vals : Tbl Nat
  complete : Bool
  poison : Bool
  /-- The row completed before its mask was ready. -/
  late : Bool
deriving DecidableEq, Repr

/-- A delivery held in the on-die network. -/
structure HeldRow where
  order : Nat
  vals : List (Nat × Nat)
  poison : Bool
deriving DecidableEq, Repr

/-- A token selector (R267 to R290). -/
structure SelSt where
  rows : List LogitRow
  held : List HeldRow
  /-- Orders waiting for the mask unit, in order; orders whose mask is ready. -/
  maskQueue : List Nat
  masks : List (Nat × List Nat)
  /-- Orders whose row is complete, in completion order. -/
  ready : List Nat
  absent : Bool
  /-- Consecutive boundaries at which 16 masks were queued (R311). -/
  full : Nat
deriving DecidableEq, Repr

def SelSt.reset : SelSt := ⟨[], [], [], [], [], false, 0⟩

/-- A transition of a grammar (Table 11.3). -/
structure GTrans where
  cls : Nat
  top : Nat
  next : Nat
  pop : Nat
  push : List Nat
deriving DecidableEq, Repr

/-- A loaded grammar: class map, states (transitions, FINAL) and its state of Table 11.7. -/
structure GrammarRec where
  tenant : Nat
  /-- 0 free; 1 loading; 2 loaded; 3 draining; 4 broken. -/
  state : Nat
  unloaded : Bool
  vocab : Nat
  start : Nat
  classes : List Nat
  states : List (List GTrans × Bool)
  /-- Index of each state's first transition, and the granules that hold the image in its byte order. -/
  firsts : List Nat
  frames : List Nat
  /-- LENGTH of the image. -/
  bytes : Nat
deriving DecidableEq, Repr

/-- An output waiting in the result merger (R198): RSTORE's destination and operands, the output's number, and the parts that
have arrived with their values by vector. -/
structure MergeOut where
  dest : Nat
  px : Nat
  pz : Nat
  fmt : Nat
  parts : Nat
  out : Nat
  got : List (Nat × List Nat)
deriving DecidableEq, Repr

/-- An ALOAD of a remote source under way: the fuller, its requests not answered, the data by offset with poison masks. -/
structure FulFetch where
  fuller : Nat
  need : List Nat
  chunks : List (Nat × List (BitVec 8) × Nat)
deriving DecidableEq, Repr

/-- One invocation record in the command register area (Table 8.5). -/
structure InvRec where
  /-- SEQ, and the candidate it came from. -/
  id : Nat
  cand : Nat
  words : List Nat
  tenant : Option Nat
  /-- Waits satisfied, as a mask; the plan has admitted it. -/
  waited : Nat
  rerun : Bool
deriving DecidableEq, Repr

/-- A running invocation of a stack. -/
structure InvRun where
  inv : InvRec
  /-- Bell of its start; members of its gang. -/
  bell : Nat
  gang : List Nat
  /-- A stop has been asked (R204); the fault it ends with: code, SUB, fuller. -/
  stopping : Bool
  fault : Option (Nat × Nat × Nat)
  /-- Fullers that have halted, and those waiting at a SYNC or COMBINE. -/
  halted : List Nat
  waiting : List Nat
deriving DecidableEq, Repr

/-- A logical fuller's working state (Table 8.1). -/
structure FullerSt where
  p : Tbl (BitVec 64)
  /-- Activation store: codes of each vector, and its format (1 BF16, 2 E4M3, 3 E5M2). -/
  act : List (List Nat)
  actFmt : Nat
  scratch : Tbl (BitVec 32)
  /-- Result list: row and one value per vector. -/
  results : List (Nat × List Nat)
  /-- Next micro-instruction of the routine; LOOPs in progress (first, end, left), innermost first; words offered to a
  COMBINE with the destination word. -/
  pc : Nat
  loops : List (Nat × Nat × Nat)
  offer : List Nat
  offerTo : Nat
  /-- Attention partial records of this fuller's frames: frame index, vector, words. -/
  partials : List (Nat × Nat × List Nat)
deriving DecidableEq, Repr

def FullerSt.reset : FullerSt := ⟨[], [], 0, [], [], 0, [], [], 0, []⟩

/-- The fuller side of one stack controller. -/
structure FulStackSt where
  /-- Logical fullers absent (R187), and dies whose spare fuller serves (one spare a die). -/
  absent : List Nat
  sparesUsed : List Nat
  records : List InvRec
  run : Option InvRun
  /-- Context of the last invocation started: its activation stores stay for the next one of the same context. -/
  lastCtx : Option Nat
  /-- Routine slots: owning tenant (none: library) and code. -/
  slots : Tbl (Option (Option Nat × List Nat))
  libVersion : Nat
  libCrc : Nat
  libPending : Option (Nat × Nat × List RoutineImg)
  merger : List MergeOut
  fetch : Option FulFetch
  /-- STK_WORK_FAULT record and its OVERRUN. -/
  fault : Option (List Nat)
  faultOver : Bool
deriving DecidableEq, Repr

def FulStackSt.reset : FulStackSt where
  absent := []
  sparesUsed := []
  records := []
  run := none
  lastCtx := none
  slots := []
  libVersion := 0
  libCrc := 0
  libPending := none
  merger := []
  fetch := none
  fault := none
  faultOver := false

end Sys2Proof.Machine
end

