-- ==== Sys2Proof/Machine/StBalis.lean ====
section
/-! DEFINITION. Plain-data records of State for the Balis fabric (chapter 16): ports, packets, outstanding requests,
collectives. -/

namespace Sys2Proof.Machine

/-- A packet (Table 16.4), less its ECRC. -/
structure Packet where
  typ : Nat
  src : Nat
  dst : Nat
  vc : Nat
  tenant : Nat
  tag : Nat
  addr : Nat
  port : Nat
  op : Nat
  arg : Nat
  arg2 : Nat
  beats : Nat
  data : List (BitVec 8)
deriving DecidableEq, Repr

/-- Who issued a request (Table 16.6): a bench's access, an engine's running command, a stack's invocation, a relay, a
collective, or the device's own control message. -/
inductive Issuer where
  | bench (b acc : Nat)
  | engine (shop eng : Nat)
  | invocation (stack : Nat)
  | relay (seq : Nat)
  | collective (inst : Nat)
  | control
deriving DecidableEq, Repr

/-- An outstanding request of this device (R404, R420, R422). -/
structure BReq where
  id : Nat
  pkt : Packet
  tenant : Option Nat
  ctx : Nat
  issuer : Issuer
  /-- Offset of its data within the issuer's transfer. -/
  off : Nat
  /-- Time of the last sending, ns; sent once more already (R422). -/
  sent : Nat
  again : Bool
  /-- Time of the first BUSY_RETRY, wait in force, ns, and when the resend is due (R420). -/
  busySince : Option Nat
  wait : Nat
  due : Option Nat
  /-- Held by R407 or for want of a route. -/
  held : Bool
deriving DecidableEq, Repr

/-- A port (R394 to R400). -/
structure PortSt where
  /-- STATE of Table 16.10. -/
  state : Nat
  pass : Nat
  spare : Nat
  peer : Nat
  peerPort : Nat
  latency : Nat
  /-- Failed lanes awaiting retest, lanes locked, errors of the last window by lane. -/
  failed : List Nat
  lock : Nat
  errors : Tbl Nat
  /-- Codewords: next expected, last acknowledged by the peer, next to send; NAK to be sent; replays in a row. -/
  rxNext : Nat
  txAcked : Nat
  txNext : Nat
  nak : Bool
  replays : Nat
  /-- Signal lost at, ns. -/
  lostAt : Option Nat
  /-- Earliest retraining, ns. -/
  retrain : Nat
  /-- Credits used (R403): dedicated buffers keyed class × 8 + VC, the shared pool at 64; packets waiting for credit, oldest first. -/
  credits : Tbl Nat
  queue : List Packet
  /-- BLS_ERR record and OVERRUN. -/
  err : Option (List Nat)
  errOver : Bool
deriving DecidableEq, Repr

def PortSt.reset : PortSt where
  state := 1
  pass := 0
  spare := 0xF
  peer := 0
  peerPort := 0
  latency := 0
  failed := []
  lock := 0
  errors := []
  rxNext := 0
  txAcked := 0
  txNext := 0
  nak := false
  replays := 0
  lostAt := none
  retrain := 0
  credits := []
  queue := []
  err := none
  errOver := false

/-- A collective instance on this device (R415 to R417): placed when its tile is admitted, started by COLLECTIVE_START. -/
structure CollSt where
  id : Nat
  cand : Nat
  /-- The record's sixteen words. -/
  words : List Nat
  ctx : Nat
  tenant : Option Nat
  /-- Waits satisfied, as a mask. -/
  waited : Nat
  started : Bool
  /-- Bell of the start, for the watchdog. -/
  bell : Nat
  /-- Instance number of the COLLNUM on the group. -/
  seq : Nat
  /-- Members whose COLL_READY has arrived, and those that this member's contribution has been sent to. -/
  ready : List Nat
  sentTo : List Nat
  /-- Staging bytes received: address and length. -/
  got : List (Nat × Nat)
  /-- The slots are folded and the results sent. -/
  folded : Bool
deriving DecidableEq, Repr

/-- The fabric side of the device. -/
structure BalisSt where
  ports : Tbl PortSt
  /-- Device ID in force (R405). -/
  active : Nat
  reqs : List BReq
  nextId : Nat
  /-- Packets sent and not yet taken by the fabric, oldest first, with their port. -/
  out : List (Nat × Packet)
  colls : List CollSt
  nextColl : Nat
  /-- Dispatch numbers by group × 2^24 + COLLNUM, and COLL_READY held for instances not yet started: group, COLLNUM,
  number, member. -/
  collSeq : Tbl Nat
  heldReady : List (Nat × Nat × Nat × Nat)
  /-- Devices now unreachable. -/
  unreachable : List Nat
  /-- Fabric bell number, alignment, bells without a mark, mismatch reported, loop reported in the period. -/
  fabric : Nat
  aligned : Bool
  noMark : Nat
  mismatch : Bool
  sourceLost : Bool
  loopSaid : Bool
  /-- Commands, tokens and refusals to send to the other members of a group at the boundary (R219, R264, R289): group, message words. -/
  ctrlOut : List (Nat × List Nat)
deriving DecidableEq, Repr

def BalisSt.reset : BalisSt where
  ports := []
  active := 0
  reqs := []
  nextId := 0
  out := []
  colls := []
  nextColl := 0
  collSeq := []
  heldReady := []
  unreachable := []
  fabric := 0
  aligned := false
  noMark := 0
  mismatch := false
  sourceLost := false
  loopSaid := false
  ctrlOut := []

end Sys2Proof.Machine
end

