-- ==== Sys2Proof/Machine/StBase.lean ====
section
/-! DEFINITION. Plain-data records of State shared by every family: event records and ring sets (chapter 17), stack frames,
map entries and translations (chapters 7, 12, 15), tallies (chapter 15), error-log records (chapter 18). -/

namespace Sys2Proof.Machine

/-- An event record before it is given its slot (Tables 17.8 and 17.11): PHASE and OVF are added when it is written. -/
structure EvRec where
  /-- q0 [7:0]. -/
  family : Nat
  /-- q0 [15:8]. -/
  kind : Nat
  /-- q0 [31:24]. -/
  code : Nat
  /-- q0 [63:32], BELL_COUNT [31:0] when the record was made. -/
  bell : Nat
  /-- q1 [31:0]. -/
  aux : Nat
  /-- ORDER and GEN; none sets NOORD. -/
  order : Option (Nat × Nat)
  /-- q0 [18]. -/
  merged : Bool
  /-- q2 to q7. -/
  payload : List Nat
deriving DecidableEq, Repr

/-- One of the 4,097 ring sets (R430 to R434, R448 to R451). -/
structure RingSet where
  sqLog : Nat
  sqBase : Nat
  eqLog : Nat
  eqBase : Nat
  pasid : Nat
  pasidEn : Bool
  /-- HQ_TMEM.MEM_MAX, units of 64 KiB. -/
  memMax : Nat
  /-- ENABLED: the set is started. -/
  started : Bool
  /-- Started, and no scan has taken its doorbells yet (R434). -/
  fresh : Bool
  /-- SQ_STOPPED (R433). -/
  stopped : Bool
  /-- Scans in a row with a failed read of entries. -/
  failScans : Nat
  /-- SQ_CONSUMED, modulo 2^32. -/
  consumed : Nat
  /-- EQ_PRODUCED, modulo 2^32. -/
  produced : Nat
  /-- The last good HEAD. -/
  head : Nat
  /-- A TAIL_RANGE or HEAD_RANGE episode is under way. -/
  badTail : Bool
  badHead : Bool
  armed : Bool
  /-- HEAD at which the last MSI-X message was sent. -/
  lastMsg : Option Nat
  eqOverflow : Bool
  eqLost : Bool
  /-- HQ_VF_EVLOST.LOST. -/
  lost : Nat
  /-- Records lost since the last EVENTS_LOST. -/
  lostNew : Nat
  /-- The next record written carries OVF. -/
  ovfNext : Bool
  /-- The ring's records in the overflow store, oldest first. -/
  store : List EvRec
  /-- The function's MSI-X entry: address, data, vector mask, pending bit. -/
  msixAddr : Nat
  msixData : Nat
  msixMask : Bool
  msixPend : Bool
deriving DecidableEq, Repr

/-- A ring set after reset: unconfigured, stopped; its vector masked (R566). -/
def RingSet.reset : RingSet where
  sqLog := 0
  sqBase := 0
  eqLog := 0
  eqBase := 0
  pasid := 0
  pasidEn := false
  memMax := 0
  started := false
  fresh := false
  stopped := false
  failScans := 0
  consumed := 0
  produced := 0
  head := 0
  badTail := false
  badHead := false
  armed := false
  lastMsg := none
  eqOverflow := false
  eqLost := false
  lost := 0
  lostNew := 0
  ovfNext := false
  store := []
  msixAddr := 0
  msixData := 0
  msixMask := true
  msixPend := false

/-- What a frame is held for. -/
inductive FrameUse where
  | free
  | page (order : Nat)
  | orderState (order : Nat)
  | blockOf (order : Nat)
  | node (n : Nat)
  | tensor (model : Nat)
  | mapping (tenant : Nat)
  | grammar (g : Nat)
  | copyDest (granule : Nat)
  | reserved (order : Nat)
deriving DecidableEq, Repr

/-- A stack frame as the stack controller and the floorwalker hold it (R170 to R174, R475). -/
structure Frame where
  /-- Table 7.6: 0 bulk; 1 state, none valid; 2 state, all valid; 3 state, some valid. -/
  summary : Nat
  use : FrameUse
  /-- The granule bound to the frame, when one is. -/
  granule : Option Nat
  /-- A poison fill is under way (R173, R174). -/
  filling : Bool
  /-- Retired (R475, R481). -/
  retired : Bool
  /-- On a lost die or absent stack (R481). -/
  lost : Bool
deriving DecidableEq, Repr

/-- A free frame: bulk summary, filled with "unwritten" poison (R180 step 3). -/
def Frame.reset : Frame := ⟨0, .free, none, false, false, false⟩

/-- A tenant translation (R366): tenant addresses [va, va + size) map to device local addresses from la. -/
structure Xlate where
  va : Nat
  size : Nat
  la : Nat
  /-- 64 KiB, 2 MiB or 1 GiB, as bytes. -/
  page : Nat
  /-- Installed by MAP; otherwise by the loader for the model named. -/
  model : Option Nat
deriving DecidableEq, Repr

/-- A request waiting in, or held before, a channel's reorder queue (R159 to R162). -/
structure StkReq where
  write : Bool
  /-- Frame of the stack and sector of the frame. -/
  frame : Nat
  sector : Nat
  /-- Byte mask of a write. -/
  mask : Nat
  data : List Byte
  /-- Latency-critical. -/
  lc : Bool
  /-- Arrival time, ns. -/
  arrived : Nat
  /-- Promoted by AGE_CAP (counted once). -/
  promoted : Bool
deriving DecidableEq, Repr

/-- A tally (R378 to R380). -/
structure Tally where
  value : BitVec 32
  ovf : Bool
deriving DecidableEq, Repr

/-- A tally after reset. -/
def Tally.reset : Tally := ⟨0, false⟩

/-- Who waits on a tally: a bench (shop × 256 + bench), a sheet bank (shop × 2 + bank), a ticket of a shop's list
engine, an invocation of a stack, a collective instance. -/
inductive Waiter where
  | bench (b : Nat)
  | sheet (k : Nat)
  | ticket (shop t : Nat)
  | invocation (stack n : Nat)
  | collective (n : Nat)
deriving DecidableEq, Repr

/-- A held tally wait (R379). -/
structure TallyWait where
  tally : Nat
  value : Nat
  /-- The waiter's tenant; none for the operator's work. -/
  tenant : Option Nat
  ctx : Nat
  who : Waiter
  /-- The wait has been satisfied: its waiter has acquired (R378). -/
  satisfied : Bool
deriving DecidableEq, Repr

/-- An error-log record (Table 18.6), less its sequence number and CRC, which are added when it is logged. -/
structure RasRec where
  typ : Nat
  sev : Nat
  nv : Bool
  count : Nat
  bell : Nat
  unit : Nat
  addr : Nat
  /-- q3: DIE, BANK, ROW, COLUMN, BIT, SYMBOL. -/
  pos : Nat
  /-- q4: TENANT, ORDER, CONTEXT, DEV, NOORD. -/
  owner : Nat
  detail : Nat
  time : Nat
  seq : Nat
deriving DecidableEq, Repr

/-- A placement-map entry (Table 12.2) with the destination frame of a running migration. -/
structure MapEnt where
  frame : Nat
  stack : Nat
  pinned : Bool
  migrating : Bool
  dest : Nat
  destFrame : Nat
  /-- The migration's copy and every forwarded write have completed (R300). -/
  copied : Bool
  /-- CLASS: true for state class. -/
  stateCls : Bool
  heat : Nat
  /-- Owning tenant; none for the KW800's own structures (DEVICE 1). -/
  tenant : Option Nat
  /-- The model or order whose memory it is, for the causes of Table 12.4. -/
  model : Option Nat
  order : Option Nat
deriving DecidableEq, Repr

/-- The memory families' state: stack memory (keyed by frame), warehouses, stockrooms, their poison, the map and the
translations. -/
structure MemSt where
  /-- Device memory. A stack byte lies at (stack × 2^20 + frame) × 2^16 + offset; warehouse and stockroom bytes lie at
  their local addresses (Table 15.1). Unlisted bytes read as zero. -/
  bytes : List (Nat × BitVec 8)
  /-- Sector status, keyed (stack × 2^20 + frame) × 2^10 + sector: 0 untouched, 1 written, 2 poisoned "corrupt". -/
  sector : Tbl Nat
  /-- Poison bits of warehouse and stockroom lines, keyed by local address ÷ 64: a listed line's poison is the opposite of its base, which is
  poisoned on the quarters of `whBad` and clean elsewhere. -/
  line : Tbl Bool
  /-- Quarters whose warehouse a quarter reset has poisoned (R507). -/
  whBad : List Nat
  /-- Frames, keyed stack × 2^20 + frame. -/
  frames : Tbl Frame
  /-- The placement map, keyed by granule. -/
  map : Tbl (Option MapEnt)
  /-- Sectors counted for HEAT in the running ledger period, keyed as frames (R295). -/
  heat : Tbl Nat
  /-- Translations of each tenant (R366). -/
  xlat : Tbl (List Xlate)
  /-- Translations removed, applying until the next boundary (R367): tenant, translation. -/
  xlatOut : List (Nat × Xlate)
  /-- Warehouse pages of 64 KiB held, keyed by quarter × 1024 + page: owner tenant + 1; 2^13 for the device's use. -/
  whPages : Tbl Nat
  /-- Warehouse pages retired (R476). -/
  whRetired : List Nat
  /-- Warehouse lines that failed without a spare row: they read as poison and drop writes (R476). -/
  lineDead : List Nat
  /-- Frames whose free waits for requests translated earlier (R174, R301), freed at the next boundary. -/
  draining : List Nat
deriving DecidableEq, Repr

/-- Memory with nothing listed. -/
def MemSt.reset : MemSt :=
  ⟨[], [], [], [], [], [], [], [], [], [], [], [], []⟩

/-- One active stack's controller state (chapters 7 and 8, less its fullers). -/
structure StackSt where
  /-- STATE of STK_IDENT: 0 present, 1 absent, 2 in reset or training. -/
  state : Nat
  /-- Throttle step in force. -/
  step : Nat
  /-- REFRESH code: 0 32 ms, 1 16 ms, 2 8 ms. -/
  refresh : Nat
  /-- Die temperature in °C. -/
  temp : Nat
  sensorFail : Bool
  /-- Frames of the mixed-frame cache, most recently used first (R172). -/
  mixed : List Nat
  /-- Reorder queues, keyed by channel 0 to 31 (R156, R159). -/
  queues : Tbl (List StkReq)
  /-- Requests held in the on-die network, oldest first, with their channel (R162). -/
  heldReqs : List (Nat × StkReq)
  /-- Channels whose write drain is under way (R160 rank 4). -/
  draining : List Nat
  /-- Open rows plus one, keyed die × 64 + bank; unlisted banks have no open row (R160). -/
  openRows : Tbl Nat
  /-- Frames whose valid bits are being fetched (R172). -/
  vmapMiss : List Nat
  /-- Channels whose lanes failed: lost lanes by channel (R479). -/
  lanesLost : Tbl Nat
  /-- Dies lost (R481). -/
  diesLost : List Nat
  /-- The metadata could not be saved at the last reset (R181). -/
  metaLost : Bool
deriving DecidableEq, Repr

/-- A stack after reset: in training. -/
def StackSt.reset : StackSt where
  state := 2
  step := 0
  refresh := 0
  temp := 0
  sensorFail := false
  mixed := []
  queues := []
  heldReqs := []
  draining := []
  openRows := []
  vmapMiss := []
  lanesLost := []
  diesLost := []
  metaLost := false

/-- Registers, counters and the value the last read returned. -/
structure RegSt where
  /-- Stored register values, keyed by BAR0 offset, or bank × 2^32 + offset for a register behind a selector. An
  unlisted key holds the register's reset value. -/
  vals : Tbl (Option (BitVec 64))
  /-- Values still in force of registers whose write waits for a boundary; an entry goes when the write takes effect. -/
  old : Tbl (Option (BitVec 64))
  /-- WOT registers written since their reset (R5), by key. -/
  wot : List Nat
  /-- Live counters, keyed by the BAR0 offset of their latched copy (R546). -/
  live : Tbl Nat
  /-- Latched copies (R547). -/
  latched : Tbl Nat
  /-- A counter saturated in the running period (R551). -/
  sat : Bool
  /-- Live per-tenant counters of Table 21.1, keyed tenant × 16 + index, and their latched copies. -/
  tlive : Tbl Nat
  tlatched : Tbl Nat
  /-- Per-bell figures of Table 21.2 being counted, keyed (kind × 512 + unit) × 4 + index, and the copies of the bell
  last closed. -/
  bcount : Tbl Nat
  bcopy : Tbl Nat
  /-- Live counters at the opening of the running bell, for the figures that are differences of counters. -/
  bbase : Tbl Nat
  /-- The value returned by the last command that reads. -/
  last : BitVec 64
  /-- The bytes returned by the last SMBus or data-returning command. -/
  lastBytes : List (BitVec 8)
deriving DecidableEq, Repr

/-- Registers after reset: every register at its reset value. -/
def RegSt.reset : RegSt := ⟨[], [], [], [], [], false, [], [], [], [], [], 0, []⟩

/-- A BENCH_FW or FULLER_LIB command whose units have not all taken their image (R443): TAG, units left, status so far. -/
structure FwWait where
  fuller : Bool
  tag : Nat
  units : List Nat
  status : Nat
deriving DecidableEq, Repr

/-- A consumed submission entry that waits for its boundary (R434, R437): its ring, scan time in ns and eight words. -/
structure QEntry where
  ring : Nat
  scan : Nat
  words : List Nat
deriving DecidableEq, Repr

/-- The host port and the rings (chapter 17). -/
structure HostSt where
  fwWaits : List FwWait
  /-- Entries read and not applied, in the order in which the scans read them. -/
  waiting : List QEntry
  rings : Tbl RingSet
  /-- Host memory as the device has last seen it, by I/O virtual address. -/
  mem : List (Nat × BitVec 8)
  /-- Host address ranges whose reads fail (Table 17.2): [lo, hi). -/
  fails : List (Nat × Nat)
  /-- PERST# is asserted. -/
  perst : Bool
  linkUp : Bool
  width : Nat
  speed : Nat
  /-- VF Enable and NumVFs (R427). -/
  vfEnable : Bool
  numVfs : Nat
  /-- Ring set after which the next scan's rotation starts (R432). -/
  lastFull : Nat
  /-- Start of the last accepted scan, ns (R324). -/
  lastScan : Nat
  /-- An early scan is held (R324). -/
  scanHeld : Bool
  /-- ns of the release of PERST#. -/
  perstRelease : Nat
deriving DecidableEq, Repr

/-- The host port after reset: PERST# not asserted by the device's own state, no link. -/
def HostSt.reset : HostSt := ⟨[], [], [], [], [], true, false, 0, 0, false, 0, 4095, 0, false, 0⟩

/-- A signal sent by a relay and not yet acknowledged (R414): sequence, tenant, context, group, member, tally there,
increment. -/
structure RelaySig where
  seq : Nat
  tenant : Option Nat
  ctx : Nat
  group : Nat
  member : Nat
  tally : Nat
  inc : Nat
deriving DecidableEq, Repr

/-- Tallies and their ranges (chapter 15). -/
structure TallySt where
  vals : Tbl Tally
  waits : List TallyWait
  /-- Ranges in force: tenant → (base, count) in tallies; count 0 is no range. -/
  range : Tbl (Nat × Nat)
  /-- Ranges written and not yet applied (R381). -/
  pend : List (Nat × Nat × Nat)
  /-- Relays (R414): local tally → group, member, tally there. -/
  relays : Tbl (Option (Nat × Nat × Nat))
  /-- Signals sent by relays and not acknowledged, oldest first. -/
  sent : List RelaySig
  sentSeq : Nat
deriving DecidableEq, Repr

def TallySt.reset : TallySt := ⟨[], [], [], [], [], [], 0⟩

/-- A tracked position of corrected errors (R472): stack, die, bank, column, bit as one number; rows seen. -/
structure PosGroup where
  pos : Nat
  rows : List Nat
  signature : Bool
deriving DecidableEq, Repr

/-- A repair copy under way, or a remap entry waiting for a boundary (R473, R474). -/
structure Repair where
  /-- (stack × 16 + die) × 64 + bank. -/
  bank : Nat
  column : Bool
  index : Nat
  copied : Bool
deriving DecidableEq, Repr

/-- One bank's remap table (R475). -/
structure Remap where
  fuse : Nat
  rows : List Nat
  cols : List Nat
  retired : Nat
deriving DecidableEq, Repr

def Remap.reset : Remap := ⟨0, [], [], 0⟩

/-- Scrub state (R468 to R470). -/
structure ScrubSt where
  busy : Bool
  /-- GO taken, starting at the next boundary. -/
  requested : Bool
  start : Nat
  count : Nat
  seq : Nat
  /-- Next sector of each stack's part: granule × 1024 + sector, keyed by stack; absent when finished. -/
  cursor : Tbl Nat
  read : Nat
  skipped : Nat
  invalid : Nat
  unwritten : Nat
  corrected : Nat
  ue : Nat
  lines : Nat
  rowsRemapped : Nat
  colsRemapped : Nat
  remapFull : Nat
  framesRetired : Nat
  time : Nat
  endCode : Nat
  /-- The five summary words shown in RAS_SCRUB_SUM0–4, written at the end. -/
  sums : List Nat
  groups : List PosGroup
deriving DecidableEq, Repr

def ScrubSt.reset : ScrubSt where
  busy := false
  requested := false
  start := 0
  count := 0
  seq := 0
  cursor := []
  read := 0
  skipped := 0
  invalid := 0
  unwritten := 0
  corrected := 0
  ue := 0
  lines := 0
  rowsRemapped := 0
  colsRemapped := 0
  remapFull := 0
  framesRetired := 0
  time := 0
  endCode := 0
  sums := []
  groups := []

/-- Errors, repair and containment (chapter 18). -/
structure RasSt where
  /-- The SRAM log, newest first, at most 4,096 records. -/
  log : List RasRec
  /-- The non-volatile log in flash, newest first, at most 65,536 records. -/
  nvLog : List RasRec
  /-- Sequence numbers of non-volatile records whose CRC fails when read. -/
  nvBad : List Nat
  /-- Sequence number of the newest record. -/
  seq : Nat
  remap : Tbl Remap
  repairs : List Repair
  /-- Demand-correction groups of each stack: the 64-entry trackers, most recent first, keyed by stack. -/
  tracker : Tbl (List PosGroup)
  /-- Sectors corrected once already, by a scrub or on demand in the period: sector key × 512 + bit. -/
  seen : List Nat
  scrub : ScrubSt
  /-- Retired cellar units by port (flash). -/
  farRetired : Tbl (List Nat)
  farRetirePend : List (Nat × Nat)
  /-- Spare SRAM rows used, keyed by array × 64 + bank (array: shop 0–319, 512 + quarter for a warehouse). -/
  rowsUsed : Tbl Nat
  /-- Frames whose poison reads were logged in this ledger period. -/
  poisonLogged : List Nat
  /-- The record shown in RAS_LOG0–7, the pending non-volatile read and the BAD mark. -/
  shown : List Nat
  pendingRead : Option Nat
  bad : Bool
  /-- Corrected sectors of each stack in the ledger period. -/
  ceStack : Tbl Nat
  /-- Spare shop positions that failed their self-test. -/
  badSpares : List Nat
  /-- Shop moves to a spare under way: shop, spare position × 2, plus 1 when nothing is moved (R480). -/
  moves : List (Nat × Nat)
  /-- Format errors logged for invalid plane headers (R48): UNIT word and header address, newest first. -/
  fmtErrors : List (Nat × Nat)
deriving DecidableEq, Repr

def RasSt.reset : RasSt where
  log := []
  nvLog := []
  nvBad := []
  seq := 0
  remap := []
  repairs := []
  tracker := []
  seen := []
  scrub := ScrubSt.reset
  farRetired := []
  farRetirePend := []
  rowsUsed := []
  poisonLogged := []
  shown := []
  pendingRead := none
  bad := false
  ceStack := []
  badSpares := []
  moves := []
  fmtErrors := []

/-- Statistics of the ledger (chapter 21). -/
structure StatSt where
  seq : Nat
  bells : Nat
  period : Nat
  sat : Bool
  ms : Nat
  /-- Units marked partial for the latched copies, and those reset in the running period: shops, stacks × 2^10 and so on
  as UNIT words. -/
  partialUnits : List Nat
  partialNow : List Nat
  /-- The snapshot of STAT_TSEL (ten words) and of STAT_BSEL (bell number, four words). -/
  tval : List Nat
  bval : List Nat
  bellSeq : Nat
  /-- The bell the per-bell copies describe. -/
  copyBell : Nat
  /-- Sums since the last DEVICE record, and periods covered. -/
  devSum : List Nat
  devPeriods : Nat
  /-- The same for each tenant. -/
  tenSum : Tbl (List Nat)
  tenPeriods : Tbl Nat
  /-- BUSY: a close is latching, from its snapshot of the live counters (device, tenants) and its saturation mark (R547). -/
  busy : Bool
  snap : Tbl Nat
  tsnap : Tbl Nat
  snapSat : Bool
  /-- Of the period being latched: its bells, its bell period in 10 µs units, the closing boundary and its device time in ms, the units marked. -/
  snapBells : Nat
  snapPeriod : Nat
  snapBell : Nat
  snapMs : Nat
  snapPartial : List Nat
  /-- Selector writes made during BUSY, whose snapshots wait: STAT_TSEL and STAT_BSEL values (R549). -/
  waitTsel : Option Nat
  waitBsel : Option Nat
deriving DecidableEq, Repr

def StatSt.reset : StatSt where
  seq := 0
  bells := 0
  period := 0
  sat := false
  ms := 0
  partialUnits := []
  partialNow := []
  tval := []
  bval := []
  bellSeq := 0
  copyBell := 0
  devSum := []
  devPeriods := 0
  tenSum := []
  tenPeriods := []
  busy := false
  snap := []
  tsnap := []
  snapSat := false
  snapBells := 0
  snapPeriod := 0
  snapBell := 0
  snapMs := 0
  snapPartial := []
  waitTsel := none
  waitBsel := none

/-- A UNIT word (Table 17.12). -/
def unitWord (kind number sub : Nat) : Nat := kind % 256 + number % 2 ^ 24 * 256 + sub % 2 ^ 32 * 2 ^ 32

end Sys2Proof.Machine
end

