-- ==== Sys2Proof/Machine/StTherm.lean ====
section
/-! DEFINITION. Plain-data records of State for temperatures, enforcement, the trip and the flash window (chapter 14). Readings are
16-bit two's complement codes in units of 0.125 °C. -/

namespace Sys2Proof.Machine

/-- A temperature channel (Table 14.1). -/
structure Chan where
  reading : Nat
  /-- 0 working; 1 wire fault; 2 converter fault. -/
  state : Nat
  rate : Nat
  peak : Nat
  /-- Time of the last sample, ns. -/
  sampled : Nat
deriving DecidableEq, Repr

def Chan.reset : Chan := ⟨0, 0, 0, 0x8000, 0⟩

/-- A thermal unit: stack 0 to 11, quarter 12 to 15, external channel 16 to 31. -/
structure TUnit where
  warn : Bool
  slow : Bool
  enforcing : Bool
  /-- ENFORCED has been written in this enforcement. -/
  said : Bool
  /-- Grace deadline, ms of device time; the request is open without a timer (R353). -/
  deadline : Option Nat
  opened : Bool
  /-- Ceiling that this unit's enforcement sets, 50 MHz units. -/
  ceil : Nat
  /-- Reading and time (ns) of the last increase. -/
  lastInc : Option (Nat × Nat)
  /-- A sample since the last boundary lay below the warning threshold. -/
  cool : Bool
deriving DecidableEq, Repr

def TUnit.reset : TUnit := ⟨false, false, false, false, none, false, 44, none, false⟩

/-- A record held for flash while its window is closed (R358): 0 error log, 1 audit log, 2 trip, 3 soft repair of a shop. -/
structure HeldRec where
  kind : Nat
  ras : Option RasRec
  words : List Nat
deriving DecidableEq, Repr

/-- Temperatures and what they drive. -/
structure ThermSt where
  chans : Tbl Chan
  units : Tbl TUnit
  /-- Thermal allowances of the bell in force, pJ: kind (1 quarter, 2 shadow, 4 stack) × 512 + unit. -/
  allow : Tbl Nat
  /-- Flash die temperature; window open; held records, oldest first. -/
  flashTemp : Nat
  flashOpen : Bool
  held : List HeldRec
  /-- The audit log in flash, newest first (R539). -/
  audit : List (List Nat)
  /-- Trip record: cause, channel, reading, device time; whether flash holds it; the latch. -/
  trip : Option (List Nat)
  tripFlashed : Bool
  tripLatch : Bool
  /-- An event record for the trip is due at READY. -/
  tripSaid : Bool
deriving DecidableEq, Repr

def ThermSt.reset : ThermSt := ⟨[], [], [], 0, false, [], [], none, false, false, true⟩

end Sys2Proof.Machine
end

