-- ==== Sys2Proof/Machine/StHost.lean ====
section
/-! DEFINITION. Plain-data records of State for the host's commands (R436 to R443): lowered images as MODEL_LOAD finds them, jobs
that have been applied and not completed, and mappings. -/

namespace Sys2Proof.Machine

/-- The contents of one unit part of a tensor in an image: tensor, part, the size that the image gives a plane tensor's part, and
the bytes by offset (zero where not listed). -/
structure ImgData where
  tensor : Nat
  part : Nat
  size : Nat
  bytes : List (Nat × BitVec 8)
deriving DecidableEq, Repr

/-- A lowered image as its container yields it; the spec gives the items of the container, not its layout (log entry 20, DESIGN CHOICE). -/
structure ModelImg where
  /-- Byte offset of the first field of the container found wrong (detail 0x08). -/
  badAt : Option Nat
  target : Nat
  tensors : List TensorDesc
  /-- Device address at which each tensor's descriptor lies once loaded. -/
  descAt : List Nat
  data : List ImgData
  kv : List TensorDesc
  /-- Directives, each with whether one of its reserved bits is set. -/
  directives : List (DirRec × Bool)
  /-- Layers with the lowerings they have: layer, fullers, shops. -/
  layers : List (Nat × Bool × Bool)
  routines : List RoutineImg
  /-- Groups named: group, whether every member answered with a like entry, whether every member runs the same period. -/
  groups : List (Nat × Bool × Bool)
  /-- Relay table (R414): local tally, group, member, tally there. -/
  relays : List (Nat × Nat × Nat × Nat)
  vocab : Nat
  /-- For each unit part of the cache the weight part (tensor, part) that holds every head of it, where there is one (R312). -/
  headParts : List (Option (Nat × Nat))
  prefill : List WorkItem
  decode : List WorkItem
  entries : List (List WorkItem)
  sides : List SideRec
deriving DecidableEq, Repr

/-- A command applied and not complete: MODEL_LOAD, MODEL_UNLOAD, UNMAP, COPY, RUN or TENANT_DISABLE. -/
structure Job where
  id : Nat
  op : Nat
  ring : Nat
  tag : Nat
  /-- Model handle; tenant of TENANT_DISABLE; SRC of COPY; tenant address of UNMAP. -/
  a : Nat
  /-- DST of COPY; program of RUN; 1 in TENANT_DISABLE when the tenant is enabled again afterwards (R428), with no completion. -/
  b : Nat
  len : Nat
  /-- COPY: tally and increment signalled at the end. RUN: address of the argument block. -/
  tally : Option (Nat × Nat)
  args : Nat
  img : Option ModelImg
  /-- RUN: context tag once admitted, and whether it was cancelled. -/
  ctx : Option Nat
  cancelled : Bool
  /-- Bell of application: memory removed by it is freed at a later boundary (R367). -/
  bell : Nat
deriving DecidableEq, Repr

/-- A MAP in force: tenant, first address, bytes, warehouse. -/
structure MapRec where
  tenant : Nat
  va : Nat
  size : Nat
  wh : Bool
deriving DecidableEq, Repr

/-- What the block learns from outside about a command with an image: the lowered image of MODEL_LOAD, the outcome of a signature check, or
the library of FULLER_LIB with its version and CRC. -/
structure CmdIn where
  ring : Nat
  tag : Nat
  img : Option ModelImg
  sigOk : Bool
  lib : Nat × Nat × List RoutineImg
deriving DecidableEq, Repr

/-- A disagreement found at a boundary (R483, R484): item (row of Table 18.5, from 1), UNIT word, and what it concerns: a context tag for items 1 and
2, a frame for item 8. -/
structure Finding where
  item : Nat
  unit : Nat
  arg : Nat
deriving DecidableEq, Repr

/-- What a bell boundary learns from outside the model: time, standing draw of the closing bell in mW, candidates that step 1 does not reach,
orders dispatched as dense batches, host memory that the device reads in step 2 and ranges whose reads fail, images of commands, the policy's migrations (granule,
destination, against a hint) and rebound orders (order, selector), disagreements, the outcomes of step 1 of a bring-up that a reset starts, and
the time in ns that the scan takes, as the host answers its reads. -/
structure BellIn where
  time : Nat
  standing : Nat
  late : List Nat
  batches : List (List Nat)
  hostCells : List (Nat × BitVec 8)
  hostFails : List (Nat × Nat)
  cmds : List CmdIn
  migrations : List (Nat × Nat × Bool)
  rebinds : List (Nat × Nat)
  findings : List Finding
  boot : Bool × Bool
  scanNs : Nat
deriving DecidableEq, Repr

/-- Jobs and mappings. -/
structure JobSt where
  jobs : List Job
  maps : List MapRec
deriving DecidableEq, Repr

def JobSt.reset : JobSt := ⟨[], []⟩

end Sys2Proof.Machine
end

