-- ==== Sys2Proof/Machine/StSys.lean ====
section
/-! DEFINITION. Plain-data records of State for bring-up and resets (chapter 19), stewards, the bellboard, device locks, roles, JTAG
(chapter 20), and the sideband signals and board management port (chapter 23). -/

namespace Sys2Proof.Machine

/-- A unit reset asked for or under way (R506, R507). -/
structure UnitReset where
  /-- 0 shop; 1 quarter; 2 stack. -/
  scope : Nat
  unit : Nat
  update : Bool
  /-- 0 waits for its boundary; 2 drain; 4 test (the reset phase ends with the drain, log entry 41, DESIGN CHOICE); 5 the test has ended and the unit returns at
  the next boundary. -/
  phase : Nat
  /-- The test failed. -/
  failed : Bool
  /-- Instant of application, ns. -/
  applied : Nat
deriving DecidableEq, Repr


/-- What a role command or a recovery learns from checks that the model does not compute: the certificate's signature, the response's signature, and
of an image its host read, signature, target, security version, fit in its region, the flash window closing during the write, and its version. -/
structure RoleIn where
  certSig : Bool
  respSig : Bool
  readOk : Bool
  imgSig : Bool
  target : Nat
  secOk : Bool
  fits : Bool
  closed : Bool
  version : Nat
deriving DecidableEq, Repr

/-- A store staged in a lock's buffer (R528): to a BAR0 register or to a device local address, 8 bytes, with what a role command in it would learn. -/
structure LockStore where
  bar0 : Bool
  addr : Nat
  value : Nat
  ins : RoleIn
deriving DecidableEq, Repr

/-- A device lock (R528, R529). -/
structure DevLock where
  /-- 0 free; h + 1 held by steward h. -/
  owner : Nat
  epoch : Nat
  staged : List LockStore
  /-- Expiry of the lease, ns. -/
  lease : Option Nat
  /-- Owner + 1 at the last break; 0xF for none. -/
  lastBroken : Nat
deriving DecidableEq, Repr

def DevLock.reset : DevLock := ⟨0, 0, [], none, 0xF⟩

/-- A steward (R520, R521). -/
structure Steward where
  present : Bool
  /-- Halted by the debug module since, ns. -/
  halted : Option Nat
  restarting : Bool
deriving DecidableEq, Repr

def Steward.reset : Steward := ⟨true, none, false⟩

/-- Role sessions and the debug level (R532, R533, R541). -/
structure RoleSt where
  /-- 0 none; 1 challenge issued; 2 open; 3 locked out. -/
  state : Nat
  /-- 1 installer; 2 maker. -/
  role : Nat
  /-- 0 PF; 1 SMBus; 2 JTAG: of the session, or of the challenge. -/
  channel : Nat
  rights : Nat
  serial : Nat
  /-- ROLE_RESULT. -/
  cause : Nat
  done : Bool
  /-- The six challenge words, the time of issue, ns. -/
  challenge : List Nat
  issued : Nat
  /-- Times of failures, and the end of a lockout, ns. -/
  fails : List Nat
  lockedTill : Nat
  /-- Time of the session's last write, ns. -/
  lastWrite : Nat
  level : Nat
deriving DecidableEq, Repr

def RoleSt.reset : RoleSt := ⟨0, 0, 0, 0, 0, 0, false, [], 0, [], 0, 0, 0⟩

/-- A register whose writes of the running bell were refused (R535): offset, number of writes, the value held and the first value written, role and
channel of the writer, its certificate, device time. -/
structure RefusedRec where
  off : Nat
  count : Nat
  old : Nat
  new : Nat
  role : Nat
  channel : Nat
  cert : Nat
  time : Nat
deriving DecidableEq, Repr

/-- The path on which a register access arrives: the physical function, virtual function v (0: the physical function's own MSI-X table), SMBus,
the JTAG ROLE data register, the debug aperture, or a steward's own bus. -/
inductive RegPath where
  | pf
  | vf (v : Nat)
  | smbus
  | jtag
  | aperture
  | steward (h : Nat)
deriving DecidableEq, Repr

/-- An access through the JTAG debug module interface (R541): a debug-module register, a BAR0 register write, or device memory. -/
inductive DmiOp where
  | read (addr : Nat)
  | write (addr value : Nat)
  | regWrite (off size value : Nat)
  | memWrite (addr : Nat) (data : List (BitVec 8))
deriving DecidableEq, Repr

/-- A unit that failed its self-test (Table 19.2): kind, unit, and a number within it. Kinds: 0 host and management storage; 1 command processor of
a shop; 2 steward; 3 matrix array row and 4 column (shop, physical number); 5 bench (shop, bench); 6 stockroom or 7 warehouse line (number of its
local address's line; bank in `sub`); 8 fuller (stack, fuller); 9 stack channel lane (stack, channel); 10 die; 11 stack controller; 12 token selector;
13 engines or network port of a shop; 14 network or bridge ends of a quarter; 15 spare shop position; 16 bench firmware of a
shop; 17 metadata of a stack lost; 18 one metadata copy of a stack rewritten. -/
structure TestFail where
  kind : Nat
  unit : Nat
  sub : Nat
deriving DecidableEq, Repr

/-- Flash regions that hold images: whether each holds a valid image, and its version; keyed 0 slot A, 1 slot B, 2 to 5 the staged images of command
processors, token selectors, collective engines and stack controllers, 6 bench firmware, 7 fuller library. -/
structure FlashImg where
  valid : Bool
  version : Nat
deriving DecidableEq, Repr

/-- System-level state. -/
structure SysSt where
  /-- GLB_BOOT_STATUS. -/
  stage : Nat
  /-- GLB_CAPS as bring-up step 5 left it, when bring-up has failed after it. -/
  caps : Nat
  cause : Nat
  slot : Nat
  slotABad : Bool
  origin : Nat
  readyMs : Nat
  /-- Instant of the last READY, from which device time counts (R239), ns. -/
  readyAt : Nat
  /-- Release of SYS_RST_N, or start of the compute-part reset, ns. -/
  released : Nat
  /-- Unit resets, and GLB_RESET_STATUS: phase, scope and unit of the last reset applied, and its W1C bits. -/
  resets : List UnitReset
  lastPhase : Nat
  lastScope : Nat
  lastUnit : Nat
  done : Bool
  failed : Bool
  drainOut : Bool
  /-- Flash regions of images (FlashImg). -/
  flash : Tbl FlashImg
  /-- Image version in use by kind and unit: (kind × 512 + unit), kinds as the flash regions 2 to 5. -/
  inUse : Tbl Nat
  /-- Sideband: 3.3 V auxiliary in range, 12 V in range, PWR_OK, SYS_RST_N released, 12 V domains powered. -/
  aux : Bool
  v12 : Bool
  pwrOk : Bool
  sysRstN : Bool
  powered : Bool
  /-- A supply fault keeps the regulators off until the next release of SYS_RST_N (R571). -/
  supplyBad : Bool
  /-- SMBus REG_ADDR. -/
  smbAddr : Nat
  /-- PLC_MAP_ENTRY: the snapshot taken by PLC_MAP_SEL. -/
  mapShown : Nat
  stewards : Tbl Steward
  /-- Steward that holds each of the eight duties, keyed by duty; duty d starts with steward d. -/
  duties : Tbl (Option Nat)
  /-- Bellboard: pending sources; active sources with owner; asserted level inputs. -/
  bbdPend : List Nat
  bbdActive : Tbl (Option Nat)
  bbdLevel : List Nat
  locks : Tbl DevLock
  role : RoleSt
  /-- Audit sequence number of the newest entry, entries read by number, the entry shown. -/
  auditSeq : Nat
  auditRead : List Nat
  auditShown : List Nat
  /-- Words of the newest audit entry, for the next CHAIN. -/
  auditLast : List Nat
  /-- Refused writes of the running bell, one entry for each register (R535). -/
  refused : List RefusedRec
  /-- GLB_LOCK in force and the lock policy in flash (R534). -/
  lockBits : Nat
  lockPolicy : Nat
  /-- Fuse words programmed, and repair or calibration records written by the maker (R538). -/
  fuses : Tbl Nat
  makerRecords : List (Nat × List Nat)
  /-- JTAG instruction: 0 BYPASS; 1 IDCODE; 2 SAMPLE/PRELOAD; 3 EXTEST; 4 DTMCS; 5 DMI; 6 ROLE; 7 RECOVERY. Output lands driven by EXTEST. -/
  jtagIr : Nat
  extest : List Bool
  /-- DTMCS error and debug-module registers, keyed by DMI address. -/
  dmi : Tbl Nat
deriving DecidableEq, Repr

def SysSt.reset : SysSt where
  stage := 1
  caps := 0
  cause := 0
  slot := 0
  slotABad := false
  origin := 0
  readyMs := 0
  readyAt := 0
  released := 0
  resets := []
  lastPhase := 0
  lastScope := 0
  lastUnit := 0
  done := false
  failed := false
  drainOut := false
  flash := []
  inUse := []
  aux := true
  v12 := true
  pwrOk := true
  sysRstN := false
  powered := false
  supplyBad := false
  smbAddr := 0
  mapShown := 0
  stewards := []
  duties := []
  bbdPend := []
  bbdActive := []
  bbdLevel := []
  locks := []
  role := RoleSt.reset
  auditSeq := 0
  auditRead := []
  auditShown := []
  auditLast := []
  refused := []
  lockBits := 0
  lockPolicy := 0
  fuses := []
  makerRecords := []
  jtagIr := 1
  extest := []
  dmi := []

end Sys2Proof.Machine
end

