-- ==== Sys2Proof/Syntax.lean ====
section
/-! DEFINITION. The commands of the KW800, one constructor per row of spec/opcode_table.json. The operands carry what the
row acts on (unit numbers, addresses, values) and what comes from outside the block (times, readings, host bytes, outcomes of
checks the model does not compute). Rows with operands come first, in the order of the table, and then those without. -/

namespace Sys2Proof

open Machine

/-- A command of the block. -/
inductive Instr where
  /-- REGISTER_WRITE (R5): A write to a BAR0 register field that has no row of its own takes effect by the field's access type. -/
  | registerWrite (path : RegPath) (off : Nat) (size : Nat) (value : Nat) (guard : Option Nat) (ins : RoleIn) (time : Nat)
  /-- RC_READ (R10): A 64-bit read of a register with RC fields returns them and clears them, while 32-bit and debug reads only peek. -/
  | rcRead (path : RegPath) (off : Nat) (size : Nat) (time : Nat)
  /-- BRIDGE_LANE_LOSS (R17): A bridge that loses more lanes than it has spares drops to half width and raises a RAS event. -/
  | bridgeLaneLoss (bridge : Nat) (lost : Nat) (spares : Nat)
  /-- LOAD (R62): the load engine copies bytes into the stockroom, multicasting to a set of shops on its quarter. -/
  | load (shop : Nat)
  /-- LOAD_PLANE (R146): the load engine reads whole plane segments, writes expanded blocks and headers, and faults if segment lengths mismatch LENGTH. -/
  | loadPlane (shop : Nat)
  /-- PASS (R65): the matrix engine runs one array pass of up to 4,096 vectors through a stationary weight tile. -/
  | pass (shop : Nat) (idle : Nat) (feed : Nat) (drain : Nat) (long : Nat)
  /-- WEIGHT_ROW_WRITE (R70): the weight loader writes a row of the next tile into the free buffer once the row frees and its weights are in the stockroom. -/
  | weightRowWrite (shop : Nat) (row : Nat) (slot : Nat)
  /-- PASS_DRAIN (R66): the drain writes an output vector once all its columns have arrived, completing the pass at its last vector. -/
  | passDrain (shop : Nat) (flagged : Bool) (row : Nat) (col : Nat) (parity : Bool) (multi : Bool)
  /-- ARRAY_REPLAY (R80): the repair sequencer reloads the tile, replays from the flagged vector and retires a column or row on a hard error. -/
  | arrayReplay (shop : Nat) (again : Bool)
  /-- KLOAD (R97): the bench group engine writes a kernel image into the named slots of every group of the mask. -/
  | kload (shop : Nat)
  /-- LAUNCH (R98): the bench group engine checks the kernel and starts instances of a launch on the benches of its group mask. -/
  | launch (shop : Nat)
  /-- LAUNCH_COMPLETE (R99): A launch completes once every instance has halted and all its stores, atomics and signals have completed. -/
  | launchComplete (shop : Nat)
  /-- STORE (R124): the store engine writes stockroom data out, converting and scaling under the conversion control. -/
  | store (shop : Nat)
  /-- STORE_KV (R221): the store engine writes key or value rows into an order's KV pages, forwarding rows of other members over Balis. -/
  | storeKv (shop : Nat)
  /-- XLAYOUT (R148): the transform engine rearranges a view in the stockroom with strides, reversal and rotation. -/
  | xlayout (shop : Nat) (cycles : Nat)
  /-- XGATHER (R149): the transform engine gathers source elements along one dimension by an index tensor. -/
  | xgather (shop : Nat) (cycles : Nat)
  /-- XSCATTER (R149): the transform engine scatters source elements along one dimension by an index tensor. -/
  | xscatter (shop : Nat) (cycles : Nat)
  /-- NOP (R124): an engine NOP command completes at once and posts its tokens. -/
  | nop (shop : Nat) (engine : Nat)
  /-- STOCKROOM_CLEAR_DONE (R77): clearing of granules last owned by another tenant ends and the window becomes usable. -/
  | stockroomClearDone (shop : Nat)
  /-- SADD (R89): bench scalar integer add. -/
  | sadd (shop : Nat) (bench : Nat) (d : Nat) (a : Nat) (b : Nat) (c : Nat) (m : Nat) (fmt : Nat)
  /-- SSUB (R89): bench scalar integer subtract. -/
  | ssub (shop : Nat) (bench : Nat) (d : Nat) (a : Nat) (b : Nat) (c : Nat) (m : Nat) (fmt : Nat)
  /-- SMUL (R89): bench scalar multiply keeping the low 64 bits. -/
  | smul (shop : Nat) (bench : Nat) (d : Nat) (a : Nat) (b : Nat) (c : Nat) (m : Nat) (fmt : Nat)
  /-- SAND (R89): bench scalar bitwise AND. -/
  | sand (shop : Nat) (bench : Nat) (d : Nat) (a : Nat) (b : Nat) (c : Nat) (m : Nat) (fmt : Nat)
  /-- SOR (R89): bench scalar bitwise OR. -/
  | sor (shop : Nat) (bench : Nat) (d : Nat) (a : Nat) (b : Nat) (c : Nat) (m : Nat) (fmt : Nat)
  /-- SXOR (R89): bench scalar bitwise XOR. -/
  | sxor (shop : Nat) (bench : Nat) (d : Nat) (a : Nat) (b : Nat) (c : Nat) (m : Nat) (fmt : Nat)
  /-- SSHL (R89): bench scalar shift left. -/
  | sshl (shop : Nat) (bench : Nat) (d : Nat) (a : Nat) (b : Nat) (c : Nat) (m : Nat) (fmt : Nat)
  /-- SSHR (R89): bench scalar logical shift right. -/
  | sshr (shop : Nat) (bench : Nat) (d : Nat) (a : Nat) (b : Nat) (c : Nat) (m : Nat) (fmt : Nat)
  /-- SSRA (R89): bench scalar arithmetic shift right. -/
  | ssra (shop : Nat) (bench : Nat) (d : Nat) (a : Nat) (b : Nat) (c : Nat) (m : Nat) (fmt : Nat)
  /-- SSLT (R89): bench scalar signed set-less-than. -/
  | sslt (shop : Nat) (bench : Nat) (d : Nat) (a : Nat) (b : Nat) (c : Nat) (m : Nat) (fmt : Nat)
  /-- SMIN (R89): bench scalar signed minimum. -/
  | smin (shop : Nat) (bench : Nat) (d : Nat) (a : Nat) (b : Nat) (c : Nat) (m : Nat) (fmt : Nat)
  /-- SMAX (R89): bench scalar signed maximum. -/
  | smax (shop : Nat) (bench : Nat) (d : Nat) (a : Nat) (b : Nat) (c : Nat) (m : Nat) (fmt : Nat)
  /-- SADDI (R89): bench scalar add of a sign-extended immediate. -/
  | saddi (shop : Nat) (bench : Nat) (d : Nat) (a : Nat) (imm : Nat)
  /-- SLUI (R89): bench shifts D left by 16 and ORs in a zero-extended immediate. -/
  | slui (shop : Nat) (bench : Nat) (d : Nat) (a : Nat) (imm : Nat)
  /-- VBCAST (R89): bench broadcasts a scalar into every lane of a vector. -/
  | vbcast (shop : Nat) (bench : Nat) (d : Nat) (a : Nat) (b : Nat) (c : Nat) (m : Nat) (fmt : Nat)
  /-- SFADD (R89): bench scalar FP32 add. -/
  | sfadd (shop : Nat) (bench : Nat) (d : Nat) (a : Nat) (b : Nat) (c : Nat) (m : Nat) (fmt : Nat)
  /-- SFMUL (R89): bench scalar FP32 multiply. -/
  | sfmul (shop : Nat) (bench : Nat) (d : Nat) (a : Nat) (b : Nat) (c : Nat) (m : Nat) (fmt : Nat)
  /-- SFFMA (R89): bench scalar FP32 fused multiply-add. -/
  | sffma (shop : Nat) (bench : Nat) (d : Nat) (a : Nat) (b : Nat) (c : Nat) (m : Nat) (fmt : Nat)
  /-- SFLT (R89): bench scalar FP32 less-than compare. -/
  | sflt (shop : Nat) (bench : Nat) (d : Nat) (a : Nat) (b : Nat) (c : Nat) (m : Nat) (fmt : Nat)
  /-- SFCVT (R91): bench converts between int64 and FP32 under RMODE or CVT. -/
  | sfcvt (shop : Nat) (bench : Nat) (d : Nat) (a : Nat) (b : Nat) (c : Nat) (m : Nat) (fmt : Nat)
  /-- VMVS (R89): bench moves one vector lane into a scalar. -/
  | vmvs (shop : Nat) (bench : Nat) (d : Nat) (a : Nat) (b : Nat) (c : Nat) (m : Nat) (fmt : Nat)
  /-- CSRR (R85): bench reads a control and status register. -/
  | csrr (shop : Nat) (bench : Nat) (d : Nat) (a : Nat) (imm : Nat)
  /-- CSRW (R85): bench writes a control and status register. -/
  | csrw (shop : Nat) (bench : Nat) (d : Nat) (a : Nat) (imm : Nat)
  /-- BEQ (R89): bench branch if equal. -/
  | beq (shop : Nat) (bench : Nat) (a : Nat) (b : Nat) (off : Nat)
  /-- BNE (R89): bench branch if not equal. -/
  | bne (shop : Nat) (bench : Nat) (a : Nat) (b : Nat) (off : Nat)
  /-- BLT (R89): bench branch if signed less than. -/
  | blt (shop : Nat) (bench : Nat) (a : Nat) (b : Nat) (off : Nat)
  /-- BGE (R89): bench branch if signed greater or equal. -/
  | bge (shop : Nat) (bench : Nat) (a : Nat) (b : Nat) (off : Nat)
  /-- JAL (R89): bench jump and link. -/
  | jal (shop : Nat) (bench : Nat) (d : Nat) (a : Nat) (imm : Nat)
  /-- JR (R89): bench jump to a register address. -/
  | jr (shop : Nat) (bench : Nat) (d : Nat) (a : Nat) (b : Nat) (c : Nat) (m : Nat) (fmt : Nat)
  /-- LOOP (R93): bench repeats the following body a counted number of times. -/
  | loop (shop : Nat) (bench : Nat) (d : Nat) (a : Nat) (imm : Nat)
  /-- HALT (R99): bench ends its instance and takes the next undispatched instance of the launch. -/
  | halt (shop : Nat) (bench : Nat) (d : Nat) (a : Nat) (b : Nat) (c : Nat) (m : Nat) (fmt : Nat)
  /-- SLDB (R94): bench loads a sign-extended byte from local memory. -/
  | sldb (shop : Nat) (bench : Nat) (d : Nat) (a : Nat) (imm : Nat)
  /-- SLDW (R94): bench loads a sign-extended 32-bit word from local memory. -/
  | sldw (shop : Nat) (bench : Nat) (d : Nat) (a : Nat) (imm : Nat)
  /-- SLDD (R94): bench loads a 64-bit word from local memory. -/
  | sldd (shop : Nat) (bench : Nat) (d : Nat) (a : Nat) (imm : Nat)
  /-- SSTB (R94): bench stores a byte to local memory. -/
  | sstb (shop : Nat) (bench : Nat) (d : Nat) (a : Nat) (imm : Nat)
  /-- SSTW (R94): bench stores a 32-bit word to local memory. -/
  | sstw (shop : Nat) (bench : Nat) (d : Nat) (a : Nat) (imm : Nat)
  /-- SSTD (R94): bench stores a 64-bit word to local memory. -/
  | sstd (shop : Nat) (bench : Nat) (d : Nat) (a : Nat) (imm : Nat)
  /-- VLD (R94): bench loads 32 bytes of local memory into a vector register. -/
  | vld (shop : Nat) (bench : Nat) (d : Nat) (a : Nat) (imm : Nat)
  /-- VST (R94): bench stores a vector register to 32 bytes of local memory. -/
  | vst (shop : Nat) (bench : Nat) (d : Nat) (a : Nat) (imm : Nat)
  /-- VLDM (R95): bench issues a 32-byte load from a device address. -/
  | vldm (shop : Nat) (bench : Nat) (d : Nat) (a : Nat) (imm : Nat)
  /-- VSTM (R95): bench issues a 32-byte store to a device address. -/
  | vstm (shop : Nat) (bench : Nat) (d : Nat) (a : Nat) (imm : Nat)
  /-- BENCH_LOAD_RETURN (R96): data of an outstanding VLDM or SATOM returns and writes its destination, or faults on poison. -/
  | benchLoadReturn (shop : Nat) (bench : Nat) (acc : Nat) (stall : Nat)
  /-- SATOM (R384): bench performs an atomic on an 8-byte warehouse word and receives the old value. -/
  | satom (shop : Nat) (bench : Nat) (d : Nat) (a : Nat) (b : Nat) (c : Nat) (m : Nat) (fmt : Nat)
  /-- MWAIT (R89): bench waits until at most IMM device-memory accesses are outstanding. -/
  | mwait (shop : Nat) (bench : Nat) (d : Nat) (a : Nat) (imm : Nat)
  /-- FENCE (R373): bench holds later accesses until every earlier access and signal is performed. -/
  | fence (shop : Nat) (bench : Nat) (d : Nat) (a : Nat) (b : Nat) (c : Nat) (m : Nat) (fmt : Nat)
  /-- TWAIT (R378): bench waits until a tally reaches at least a value. -/
  | twait (shop : Nat) (bench : Nat) (d : Nat) (a : Nat) (b : Nat) (c : Nat) (m : Nat) (fmt : Nat)
  /-- TSIG (R374): bench signals a tally by an increment as a release, through a relay for remote tallies. -/
  | tsig (shop : Nat) (bench : Nat) (d : Nat) (a : Nat) (b : Nat) (c : Nat) (m : Nat) (fmt : Nat)
  /-- RNG (R275): bench draws 8 words from the counter-based generator. -/
  | rng (shop : Nat) (bench : Nat) (d : Nat) (a : Nat) (b : Nat) (c : Nat) (m : Nat) (fmt : Nat)
  /-- VADD (R89): bench vector add. -/
  | vadd (shop : Nat) (bench : Nat) (d : Nat) (a : Nat) (b : Nat) (c : Nat) (m : Nat) (fmt : Nat)
  /-- VSUB (R89): bench vector subtract. -/
  | vsub (shop : Nat) (bench : Nat) (d : Nat) (a : Nat) (b : Nat) (c : Nat) (m : Nat) (fmt : Nat)
  /-- VMUL (R89): bench vector multiply. -/
  | vmul (shop : Nat) (bench : Nat) (d : Nat) (a : Nat) (b : Nat) (c : Nat) (m : Nat) (fmt : Nat)
  /-- VFMA (R89): bench vector fused multiply-add. -/
  | vfma (shop : Nat) (bench : Nat) (d : Nat) (a : Nat) (b : Nat) (c : Nat) (m : Nat) (fmt : Nat)
  /-- VMAX (R89): bench vector maximum. -/
  | vmax (shop : Nat) (bench : Nat) (d : Nat) (a : Nat) (b : Nat) (c : Nat) (m : Nat) (fmt : Nat)
  /-- VMIN (R89): bench vector minimum. -/
  | vmin (shop : Nat) (bench : Nat) (d : Nat) (a : Nat) (b : Nat) (c : Nat) (m : Nat) (fmt : Nat)
  /-- VNEG (R89): bench vector negate. -/
  | vneg (shop : Nat) (bench : Nat) (d : Nat) (a : Nat) (b : Nat) (c : Nat) (m : Nat) (fmt : Nat)
  /-- VEXP (R89): bench vector exponential on FP32. -/
  | vexp (shop : Nat) (bench : Nat) (d : Nat) (a : Nat) (b : Nat) (c : Nat) (m : Nat) (fmt : Nat)
  /-- VRSQ (R89): bench vector reciprocal square root on FP32. -/
  | vrsq (shop : Nat) (bench : Nat) (d : Nat) (a : Nat) (b : Nat) (c : Nat) (m : Nat) (fmt : Nat)
  /-- VRCP (R89): bench vector reciprocal on FP32. -/
  | vrcp (shop : Nat) (bench : Nat) (d : Nat) (a : Nat) (b : Nat) (c : Nat) (m : Nat) (fmt : Nat)
  /-- VCMP (R89): bench vector compare into a mask register. -/
  | vcmp (shop : Nat) (bench : Nat) (d : Nat) (a : Nat) (b : Nat) (c : Nat) (m : Nat) (fmt : Nat)
  /-- VSEL (R89): bench selects lanes from two vectors by a mask. -/
  | vsel (shop : Nat) (bench : Nat) (d : Nat) (a : Nat) (b : Nat) (c : Nat) (m : Nat) (fmt : Nat)
  /-- VCVT (R90): bench converts elements between formats and advances BSRIDX under stochastic rounding. -/
  | vcvt (shop : Nat) (bench : Nat) (d : Nat) (a : Nat) (src : Nat) (dst : Nat) (part : Nat) (m : Nat)
  /-- VRED (R92): bench reduces a vector to a scalar by sum, max or min. -/
  | vred (shop : Nat) (bench : Nat) (d : Nat) (a : Nat) (b : Nat) (c : Nat) (m : Nat) (fmt : Nat)
  /-- VPERM (R89): bench permutes vector lanes by an index vector. -/
  | vperm (shop : Nat) (bench : Nat) (d : Nat) (a : Nat) (b : Nat) (c : Nat) (m : Nat) (fmt : Nat)
  /-- BENCH_UNCORRECTABLE_ERROR (R103): an uncorrectable bench storage error retires the bench and reruns or ends the launch. -/
  | benchUncorrectableError (shop : Nat) (bench : Nat) (place : Nat) (slot : Nat)
  /-- SHOP_BENCH_RESET (R109): A write names a bench to make ineligible and reset once it is idle. -/
  | shopBenchReset (shop : Nat) (value : Nat)
  /-- BENCH_RESET_START (R109): the bench reset starts when the named bench halts or its tile ends. -/
  | benchResetStart (shop : Nat) (bench : Nat)
  /-- BENCH_RESET_DONE (R109): after 256 cycles the reset bench is cleared and becomes eligible again. -/
  | benchResetDone (shop : Nat) (bench : Nat)
  /-- BENCH_FW_TAKE (R108): A shop takes a new bench firmware image at the first boundary with no launch running. -/
  | benchFwTake (shop : Nat)
  /-- SHEET_LOAD (R116): A dispatch entry asks the command processor to load a sheet image into a free bank. -/
  | sheetLoad (shop : Nat) (ctx : Nat) (addr : Nat)
  /-- SHEET_IMAGE_LOADED (R122): A sheet image finishes reading into its bank and is checked. -/
  | sheetImageLoaded (shop : Nat) (bank : Nat)
  /-- GO (R117): A dispatch entry asks for a loaded sheet to start. -/
  | go (shop : Nat) (ctx : Nat) (addr : Nat)
  /-- SHEET_START (R117): A sheet starts once its image passed, its waits hold and its windows are granted. -/
  | sheetStart (shop : Nat) (bank : Nat)
  /-- TICKET_LIST (R130): A dispatch entry names a ticket list for the command processor. -/
  | ticketList (shop : Nat) (ctx : Nat) (addr : Nat)
  /-- CANCEL_ENTRY (R129): A dispatch entry cancels a context on the shop without a fault. -/
  | cancelEntry (shop : Nat) (ctx : Nat)
  /-- TEMPLATE_EMIT (R123): the command processor emits the next template instance into its engine queue, holding while the queue is full. -/
  | templateEmit (shop : Nat) (bank : Nat)
  /-- COMMAND_START (R113): an idle engine starts the oldest ready command, checking it and consuming its tokens. -/
  | commandStart (shop : Nat) (engine : Nat)
  /-- COMMAND_COMPLETE (R115): an engine command completes, posts its tokens in start order and may complete its tile, sheet or ticket. -/
  | commandComplete (shop : Nat) (engine : Nat)
  /-- TICKET_ISSUE (R132): A windowed ticket whose waits hold is issued into its engine queue. -/
  | ticketIssue (shop : Nat)
  /-- PREEMPTION (R126): an LC sheet load without a free bank stops a BE sheet at its next pre-emption point. -/
  | preemption (shop : Nat)
  /-- RESUME_RECORD_WRITE (R127): after the tile in flight completes, the resume record is written and the bank freed. -/
  | resumeRecordWrite (shop : Nat) (bank : Nat)
  /-- RESUME_GO (R127): A resume GO reloads a pre-empted sheet and emits from its next tile. -/
  | resumeGo (shop : Nat) (ctx : Nat) (addr : Nat)
  /-- WATCHDOG (R128): at a boundary the watchdog ends a tile that started three bells earlier with a WATCHDOG fault. -/
  | watchdog (shop : Nat)
  /-- STACK_REQUEST (R159): A request through the vertical interface enters a channel reorder queue and is issued to its bank. -/
  | stackRequest (stack : Nat) (ch : Nat) (arriving : List StkReq) (grants : Nat) (busy : List Nat) (fullCycles : Nat) (time : Nat)
  /-- VMAP_FETCH_DONE (R172): A mixed-frame cache miss finishes fetching valid bits and the waiting access proceeds. -/
  | vmapFetchDone (stack : Nat) (frame : Nat)
  /-- FRAME_FILL_DONE (R173): A bulk frame's poison fill completes and its granule becomes usable. -/
  | frameFillDone (stack : Nat) (frame : Nat)
  /-- REFRESH (R176): A row refresh falls due and stalls its bank. -/
  | refresh (stack : Nat) (bank : Nat) (cycles : Nat)
  /-- INVOCATION_START (R193): every gang member commits to the same eligible record and all start it together. -/
  | invocationStart (seq : Nat)
  /-- INVOCATION_COMPLETE (R194): an invocation completes when every fuller has halted and every write completed, then signals. -/
  | invocationComplete (stack : Nat)
  /-- MICRO_NOP (R196): fuller micro-instruction doing nothing. -/
  | microNop (stack : Nat) (fuller : Nat)
  /-- SETP (R196): fuller sets a pointer register. -/
  | setp (stack : Nat) (fuller : Nat)
  /-- ALOAD (R196): fuller loads activation vectors into the activation stores or scratch. -/
  | aload (stack : Nat) (fuller : Nat)
  /-- STREAM (R198): fuller runs a GEMV over its rows of a plane tensor into its result list. -/
  | stream (stack : Nat) (fuller : Nat)
  /-- KVREAD (R224): fuller reads and scores the visible pages of its pair and forms partial attention records. -/
  | kvread (stack : Nat) (fuller : Nat)
  /-- VOP (R196): fuller vector operation over scratch words. -/
  | vop (stack : Nat) (fuller : Nat)
  /-- VSUM (R196): fuller sum or max of scratch words. -/
  | vsum (stack : Nat) (fuller : Nat)
  /-- COMBINE (R199): fullers of the stack or gang reduce words by a fixed tree. -/
  | combine (stack : Nat) (fuller : Nat)
  /-- RSTORE (R198): fuller writes result-list entries to a tensor, the activation stores or the token selector. -/
  | rstore (stack : Nat) (fuller : Nat)
  /-- MERGE_RESULT_WRITE (R198): the result merger writes an output once all its reduction parts have arrived. -/
  | mergeResultWrite (stack : Nat)
  /-- MSTORE (R196): fuller writes scratch words to device memory. -/
  | mstore (stack : Nat) (fuller : Nat)
  /-- APPEND (R200): fuller atomically appends one token's key and value rows to the order's page. -/
  | append (stack : Nat) (fuller : Nat)
  /-- SYNC (R199): barrier of the stack's fullers or the gang. -/
  | sync (stack : Nat) (fuller : Nat)
  /-- MICRO_LOOP (R196): fuller repeats the next instructions a counted number of times. -/
  | microLoop (stack : Nat) (fuller : Nat)
  /-- MICRO_HALT (R196): fuller ends the routine on itself. -/
  | microHalt (stack : Nat) (fuller : Nat)
  /-- INVOCATION_STOP_REQUEST (R204): A stop request makes each fuller abandon quiet segments and finish visible ones. -/
  | invocationStopRequest (stack : Nat)
  /-- INVOCATION_STOPPED (R205): an invocation has stopped on every member and its state is discarded without signals. -/
  | invocationStopped (stack : Nat)
  /-- FULLER_UNCORRECTABLE_ERROR (R201): an uncorrectable fuller storage error retires the fuller and reruns or ends the invocation. -/
  | fullerUncorrectableError (stack : Nat) (fuller : Nat)
  /-- FULLER_LIB_TAKE (R208): A stack takes an updated library at the first boundary with no invocation running. -/
  | fullerLibTake (stack : Nat)
  /-- KV_APERTURE_READ (R232): A read through the KV aperture is resolved through the slot order's page list. -/
  | kvApertureRead (shop : Nat) (ctx : Nat) (off : Nat) (len : Nat)
  /-- OPEN (R247): order command that checks and admits a new order into the lowest FREE entry. -/
  | openOrder (ring : Nat) (tag : Nat) (cpl : Bool) (lc : Bool) (noCellar : Bool) (grammarEn : Bool) (model : Nat) (grammar : Nat) (evmask : Nat) (deadline : Nat) (ttl : Nat) (cellarAfter : Nat) (params : Nat)
  /-- FEED (R249): order command that appends fed tokens as prefill steps and may ask for generation. -/
  | feed (ring : Nat) (tag : Nat) (cpl : Bool) (order : Nat) (gen : Nat) (list : Nat) (count : Nat) (maxNew : Nat) (isMatch : Bool) (scan : Nat)
  /-- STOP (R244): order command that ends generation after the running step. -/
  | stop (ring : Nat) (tag : Nat) (cpl : Bool) (order : Nat) (gen : Nat)
  /-- TRUNCATE (R220): order command that lowers the committed length and frees pages above it. -/
  | truncate (ring : Nat) (tag : Nat) (cpl : Bool) (order : Nat) (gen : Nat) (length : Nat)
  /-- CELLAR (R251): order command that makes the order a cellaring candidate. -/
  | cellar (ring : Nat) (tag : Nat) (cpl : Bool) (order : Nat) (gen : Nat)
  /-- RECALL (R256): order command that starts a recall of a cellared order. -/
  | recall (ring : Nat) (tag : Nat) (cpl : Bool) (order : Nat) (gen : Nat)
  /-- SET_TTL (R244): order command that sets the time to live and EXPIRE of a cellared order. -/
  | setTtl (ring : Nat) (tag : Nat) (cpl : Bool) (order : Nat) (gen : Nat) (seconds : Nat) (scan : Nat)
  /-- STORE_PREFIX (R260): order command that stores an order's first pages into the pattern book. -/
  | storePrefix (ring : Nat) (tag : Nat) (cpl : Bool) (order : Nat) (gen : Nat) (list : Nat) (pages : Nat)
  /-- DROP_PREFIXES (R244): order command that frees the tenant's pattern-book nodes for a model. -/
  | dropPrefixes (ring : Nat) (tag : Nat) (cpl : Bool) (model : Nat)
  /-- QUERY (R244): order command that returns the entry as a pair of STATUS records. -/
  | query (ring : Nat) (tag : Nat) (cpl : Bool) (order : Nat) (gen : Nat)
  /-- CLOSE (R263): order command that closes the order and frees everything it holds. -/
  | close (ring : Nat) (tag : Nat) (cpl : Bool) (order : Nat) (gen : Nat)
  /-- FORCE_CLOSE (R244): operator command that closes any order without the generation check. -/
  | forceClose (tag : Nat) (order : Nat)
  /-- CELLARING_COPY_DONE (R254): every unit of a cellar image has been written and acknowledged, ready to commit. -/
  | cellaringCopyDone (order : Nat)
  /-- RECALL_COPY_DONE (R256): the last frame of a recall has been decrypted, checked and written. -/
  | recallCopyDone (order : Nat)
  /-- RECALL_WAIT_EXPIRY (R257): A held recall that found no reservation for RECALL_WAIT bells is refused. -/
  | recallWaitExpiry (order : Nat)
  /-- TTL_EXPIRY (R258): A cellared order past EXPIRE with no qualifying command expires and its entry becomes FREE. -/
  | ttlExpiry (order : Nat)
  /-- CELLAR_AFTER_EXPIRY (R250): an order idle for CELLAR_AFTER bells becomes a cellaring candidate. -/
  | cellarAfterExpiry (order : Nat)
  /-- DEADLINE_MISS (R250): A step not completed DEADLINE bells after admission is counted and reported. -/
  | deadlineMiss (order : Nat)
  /-- ATTACH_COPY_DONE (R261): every matched node frame has been copied into the order and ATTACHED is written. -/
  | attachCopyDone (order : Nat)
  /-- PREFIX_STORE_COPY_DONE (R260): A prefix store's copies complete and commit, reporting PREFIX_STORED. -/
  | prefixStoreCopyDone (order : Nat)
  /-- LOGIT_DELIVERY (R268): logits arrive at a selector row by RSTORE or selector-aperture STORE, claiming a row or being held or discarded. -/
  | logitDelivery (order : Nat) (values : List (Nat × Nat)) (poison : Bool)
  /-- HELD_DELIVERY_ACCEPT (R267): A delivery held for want of a row is accepted once a row and buffer space free. -/
  | heldDeliveryAccept (selector : Nat)
  /-- SELECTION (R271): the selector runs the selection pipeline on a complete row once its mask is ready. -/
  | selection (selector : Nat) (waited : Nat)
  /-- MASK_BUILD (R284): the mask unit finishes building an order's next allowed-token mask. -/
  | maskBuild (selector : Nat)
  /-- SELECTOR_FAIL (R290): A failed selector ends its selections and is marked absent, its orders rebound. -/
  | selectorFail (selector : Nat)
  /-- MIGRATION_COPY_DONE (R299): A granule's copy and every forwarded write have completed. -/
  | migrationCopyDone (granule : Nat)
  /-- BELL_BOUNDARY (R322): A bell ends and the boundary work of planning, scanning, committing and rolling counters runs. -/
  | bellBoundary (b : BellIn)
  /-- BELL_EARLY_SCAN (R324): A write requests an early doorbell scan, held or merged under the 10 µs spacing. -/
  | bellEarlyScan (vf : Nat) (value : Nat) (time : Nat)
  /-- EARLY_SCAN (R324): A held early scan starts and reads the whole doorbell block. -/
  | earlyScan (cells : List (Nat × BitVec 8)) (fails : List (Nat × Nat)) (cmds : List CmdIn) (time : Nat)
  /-- DISPATCH_ADMIT (R331): during the bell the dispatcher admits work from the remainder when a unit frees or a candidate arrives. -/
  | dispatchAdmit (time : Nat)
  /-- HOLD_RELEASE (R331): at HOLD_RELEASE percent of the bell the unspent LC hold joins the remainder. -/
  | holdRelease (time : Nat)
  /-- GOVERNOR_SAMPLE (R338): every microsecond the governor samples energy and tests whether to clamp. -/
  | governorSample (energy : Nat) (time : Nat)
  /-- THERMAL_SAMPLE (R346): A temperature channel is sampled and the unit's warning and slow-down levels move. -/
  | thermalSample (channel : Nat) (reading : Nat) (time : Nat)
  /-- GRACE_EXPIRY (R353): the grace deadline passes and enforcement starts if the sample is still at slow-down. -/
  | graceExpiry (unit : Nat)
  /-- SHUTDOWN_TRIP (R356): A comparator held at shutdown for 20 µs trips, latching THERM_TRIP_N and cutting 12 V domains. -/
  | shutdownTrip (channel : Nat) (reading : Nat) (wire : Bool) (time : Nat)
  /-- TRIP_LATCH_CLEAR (R356): 12 V held below 2 V for 100 ms clears the trip latch. -/
  | tripLatchClear (time : Nat)
  /-- SENSOR_FAIL (R348): A channel's wiring or converter fails and it reads as overheating. -/
  | sensorFail (channel : Nat) (wire : Bool) (time : Nat)
  /-- FLASH_TEMP_SAMPLE (R358): the flash die temperature is sampled, opening or closing the write window and writing held records. -/
  | flashTempSample (reading : Nat)
  /-- TALLY_WAIT_SATISFIED (R379): A signal satisfies a held tally wait, which acquires and releases its waiter. -/
  | tallyWaitSatisfied (tally : Nat)
  /-- TALLY_READ (R378): A load through the tally aperture returns a tally's value and OVF. -/
  | tallyRead (shop : Nat) (ctx : Nat) (off : Nat) (len : Nat)
  /-- TALLY_SET (R382): A store through the tally aperture sets a tally and clears OVF. -/
  | tallySet (shop : Nat) (ctx : Nat) (off : Nat) (len : Nat) (data : Nat)
  /-- REDUCTION_WRITE (R386): A write to a reduction alias combines each element with the warehouse element. -/
  | reductionWrite (shop : Nat) (ctx : Nat) (addr : Nat) (data : List (BitVec 8))
  /-- SIGNAL_DETECT (R399): an enabled Balis port detects signal and starts training. -/
  | signalDetect (port : Nat) (time : Nat)
  /-- TRAINING_DONE (R399): port training ends with a lane map and the port ready, or down for fewer than 8 lanes. -/
  | trainingDone (port : Nat) (errs : List (Nat × Nat)) (peer : Nat) (peerPort : Nat) (latency : Nat) (time : Nat)
  /-- PORT_RETRAIN (R399): A down port retrains 10 s after a failed training. -/
  | portRetrain (port : Nat) (time : Nat)
  /-- CODEWORD_RECEIVE (R396): A port receives a Reed-Solomon codeword, acknowledging it or sending NAK. -/
  | codewordReceive (port : Nat) (correct : Bool) (fixed : Nat) (seq : Nat) (ack : Nat) (nak : Bool) (credits : List (Nat × Nat × Bool × Nat)) (sent : Nat) (taken : Nat) (stalled : Nat) (unknown : List (Nat × Nat × Nat))
  /-- LANE_FAIL (R400): A lane fails by error window, lock loss or replays and its traffic moves to the spare or the port goes down. -/
  | laneFail (port : Nat) (lane : Nat) (errors : Nat) (time : Nat)
  /-- SIGNAL_LOSS (R421): A port loses signal, stops sending and holds its replay buffer. -/
  | signalLoss (port : Nat) (time : Nat)
  /-- PORT_DOWN (R421): signal not back within 2 ms, the port declares the link down and leaves routes. -/
  | portDown (port : Nat) (time : Nat)
  /-- READ (R402): balis packet asking a target for 32 B to 1 KiB of data. -/
  | read (port : Nat) (ecrcOk : Bool) (p : Packet)
  /-- READ_DATA (R402): balis packet returning read data with its poison mask. -/
  | readData (port : Nat) (ecrcOk : Bool) (p : Packet)
  /-- WRITE (R402): balis packet writing 32 B to 1 KiB at the target. -/
  | write (port : Nat) (ecrcOk : Bool) (p : Packet)
  /-- WRITE_ACK (R402): balis packet acknowledging a performed write or collective data. -/
  | writeAck (port : Nat) (ecrcOk : Bool) (p : Packet)
  /-- ATOMIC (R411): balis packet asking the target warehouse for an atomic. -/
  | atomic (port : Nat) (ecrcOk : Bool) (p : Packet)
  /-- ATOMIC_DATA (R402): balis packet returning the old word of an atomic. -/
  | atomicData (port : Nat) (ecrcOk : Bool) (p : Packet)
  /-- BALIS_SIGNAL (R414): balis SIGNAL packet applying a relayed signal to a target tally. -/
  | balisSignal (port : Nat) (ecrcOk : Bool) (p : Packet)
  /-- SIGNAL_ACK (R402): balis packet acknowledging an applied signal. -/
  | signalAck (port : Nat) (ecrcOk : Bool) (p : Packet)
  /-- COLL_READY (R417): balis packet telling a member it may send collective data, held if the instance has not started. -/
  | collReady (port : Nat) (ecrcOk : Bool) (p : Packet)
  /-- COLL_DATA (R416): balis packet writing collective data into a staging slot. -/
  | collData (port : Nat) (ecrcOk : Bool) (p : Packet)
  /-- CTRL (R402): balis group control message such as abort or group check. -/
  | ctrl (port : Nat) (ecrcOk : Bool) (p : Packet)
  /-- CTRL_ACK (R402): balis packet acknowledging a control message. -/
  | ctrlAck (port : Nat) (ecrcOk : Bool) (p : Packet)
  /-- BUSY_RETRY (R420): balis answer that the target performed nothing and the request should be resent later. -/
  | busyRetry (port : Nat) (ecrcOk : Bool) (p : Packet) (time : Nat)
  /-- UNREACHABLE (R421): balis answer that a packet cannot be forwarded, ending the access as RESET_LOST. -/
  | unreachable (port : Nat) (ecrcOk : Bool) (p : Packet)
  /-- REFUSED (R409): balis answer that the target refused the access, faulting the issuer. -/
  | refused (port : Nat) (ecrcOk : Bool) (p : Packet)
  /-- RETRY_RESEND (R420): A request waiting after BUSY_RETRY is resent, or ends when RETRY_MAX has passed. -/
  | retryResend (request : Nat) (time : Nat)
  /-- REQUEST_TIMEOUT (R422): an unanswered request is resent once or ended as RESET_LOST after TIMEOUT. -/
  | requestTimeout (request : Nat) (time : Nat)
  /-- BELL_MARK (R418): A codeword carrying a bell mark arrives and aligns this device's boundaries. -/
  | bellMark (port : Nat) (bell : Nat) (phase : Nat) (period : Nat) (fewest : Bool) (time : Nat)
  /-- COLLECTIVE_START (R417): A member starts a collective instance and sends COLL_READY. -/
  | collectiveStart (inst : Nat)
  /-- COLLECTIVE_FOLD (R416): once all slots arrive, a member folds them in ascending member order. -/
  | collectiveFold (inst : Nat)
  /-- COLLECTIVE_COMPLETE (R415): A collective's results are written and it completes and signals. -/
  | collectiveComplete (inst : Nat)
  /-- PERST_RELEASE (R428): PERST# released lets the link come up and configuration follow after 300 ms. -/
  | perstRelease (time : Nat)
  /-- VF_FLR (R428): A VF FLR or D3hot disables and re-enables its tenant. -/
  | vfFlr (vf : Nat)
  /-- VF_ENABLE_CLEAR (R427): clearing VF Enable or lowering NumVFs disables the tenants it removes. -/
  | vfEnableClear (enable : Bool) (numVfs : Nat)
  /-- HQ_DB_BASE (R457): A write sets the doorbell block address and starts or stops scans and the operator's set. -/
  | hqDbBase (value : Nat)
  /-- MODEL_LOAD (R441): command that reads, checks, places and loads a lowered image and returns a handle. -/
  | modelLoad (ring : Nat) (tag : Nat) (image : Nat) (len : Nat) (img : ModelImg)
  /-- MODEL_UNLOAD (R441): command that frees a model's frames, routines and controls, or answers BUSY. -/
  | modelUnload (ring : Nat) (tag : Nat) (model : Nat)
  /-- GRAMMAR_LOAD (R282): command that checks and places a grammar image and assigns a grammar ID. -/
  | grammarLoad (ring : Nat) (tag : Nat) (image : Nat) (len : Nat)
  /-- GRAMMAR_UNLOAD (R282): command that makes a grammar draining. -/
  | grammarUnload (ring : Nat) (tag : Nat) (grammar : Nat)
  /-- MAP (R440): command that allocates memory behind a tenant address range and installs its translation. -/
  | map (ring : Nat) (tag : Nat) (addr : Nat) (size : Nat) (page : Nat) (wh : Bool) (quarter : Nat)
  /-- UNMAP (R440): command that removes one earlier mapping. -/
  | unmap (ring : Nat) (tag : Nat) (addr : Nat) (size : Nat)
  /-- COPY (R440): command that moves bytes between stack, warehouse and host memory and may signal a tally. -/
  | copy (ring : Nat) (tag : Nat) (lc : Bool) (src : Nat) (dst : Nat) (len : Nat) (tally : Nat) (inc : Nat) (sigEn : Bool)
  /-- SIGNAL (R440): command that signals a tally at the scan as a release. -/
  | signal (ring : Nat) (tag : Nat) (cpl : Bool) (tally : Nat) (inc : Nat)
  /-- RUN (R440): command that starts a program of a model as one job. -/
  | run (ring : Nat) (tag : Nat) (lc : Bool) (model : Nat) (program : Nat) (args : Nat)
  /-- CANCEL (R440): command that cancels the context of a named RUN. -/
  | cancel (ring : Nat) (tag : Nat) (cpl : Bool) (runTag : Nat)
  /-- TENANT_ENABLE (R442): operator command that generates keys, clears tallies and starts a tenant's ring set. -/
  | tenantEnable (ring : Nat) (tag : Nat) (tenant : Nat)
  /-- TENANT_DISABLE (R442): operator command that closes, cancels, unloads and frees everything of a tenant. -/
  | tenantDisable (ring : Nat) (tag : Nat) (tenant : Nat)
  /-- BENCH_FW (R443): operator command that updates running bench firmware of named shops. -/
  | benchFw (ring : Nat) (tag : Nat) (image : Nat) (shop : Nat) (sigOk : Bool)
  /-- FULLER_LIB (R443): operator command that updates the fuller library of named stacks. -/
  | fullerLib (ring : Nat) (tag : Nat) (image : Nat) (stack : Nat) (sigOk : Bool) (version : Nat) (crc : Nat) (lib : List RoutineImg)
  /-- RUN_COMPLETE (R440): A job's tiles have all completed or it ended, and its COMPLETION is written. -/
  | runComplete (ring : Nat) (tag : Nat)
  /-- FAR_ENUMERATE (R453): nororadra enumerates an enabled far port and waits for Media Ready. -/
  | farEnumerate (port : Nat) (supported : Bool) (width : Nat) (speed : Nat) (capacity : Nat)
  /-- FAR_PORT_DOWN (R455): A far port goes down on link loss, timeout or media loss and its cellared orders fault. -/
  | farPortDown (port : Nat) (cause : Nat)
  /-- SCRUB_READ (R469): A scrub reads a sector and corrects, poisons, skips or counts it. -/
  | scrubRead (stack : Nat) (symbols : Nat) (bit : Nat)
  /-- COLUMN_REPAIR_DONE (R473): A column copy to the spare column completes and the entry takes effect at the next boundary. -/
  | columnRepairDone (stack : Nat) (die : Nat) (bank : Nat) (column : Nat)
  /-- SRAM_ROW_REPAIRED (R476): A hard or uncorrectable SRAM row is mapped to a spare row. -/
  | sramRowRepaired (warehouse : Bool) (bank : Nat) (addr : Nat) (uncorrectable : Bool)
  /-- RAS_FAR_RETIRE (R477): A write retires a 64 KiB cellar unit at the next boundary. -/
  | rasFarRetire (port : Nat) (unit : Nat)
  /-- SHOP_SPARING (R480): A failed shop's state begins moving to the lowest free spare position of its quarter. -/
  | shopSparing (shop : Nat) (cause : Nat) (readable : Bool)
  /-- SHOP_SPARE_MOVE_DONE (R480): the shop's state has moved and the spare takes the logical number. -/
  | shopSpareMoveDone (shop : Nat)
  /-- DIE_LOST (R481): A DRAM die or stack fails and its frames read as poison and its orders fault. -/
  | dieLost (stack : Nat) (die : Nat) (cause : Nat)
  /-- HOSTMGMT_UE (R465): an uncorrectable word in host-and-management storage faults its order, tally, candidate or steward. -/
  | hostmgmtUe (kind : Nat) (index : Nat)
  /-- AUX_POWER_ON (R360): 3.3 V auxiliary comes into range and the always-on comparators start acting. -/
  | auxPowerOn (time : Nat)
  /-- SYS_RST_N_RELEASE (R496): release of SYS_RST_N with 12 V and PWR_OK starts bring-up step 1. -/
  | sysRstNRelease (okA : Bool) (okB : Bool) (time : Nat)
  /-- THERMAL_GATE (R360): every enabled channel reads below warning and the compute domains are powered and repaired. -/
  | thermalGate (time : Nat)
  /-- FIRMWARE_BROADCAST (R500): firmware images are broadcast to every bench group and stack controller. -/
  | firmwareBroadcast (fw : Nat × Nat × List Nat) (lib : Nat × Nat × List RoutineImg) (fails : List TestFail) (time : Nat)
  /-- SELF_TEST (R501): every physical unit's self-test ends and failures are spared or marked absent. -/
  | selfTest (fails : List TestFail) (time : Nat)
  /-- READY (R502): bring-up ends, numbering is fixed and READY is written to the operator. -/
  | ready (time : Nat)
  /-- SYS_RST_N_ASSERT (R515): SYS_RST_N asserted resets every 12 V domain at once without drain. -/
  | sysRstNAssert (time : Nat)
  /-- PWR_OK_FALL (R573): PWR_OK falls and the 12 V regulators are disabled as by SYS_RST_N. -/
  | pwrOkFall (high : Bool) (time : Nat)
  /-- SUPPLY_OUT_OF_RANGE (R571): 12 V outside its range for 5 µs disables the 12 V domains. -/
  | supplyOutOfRange (mv : Nat) (time : Nat)
  /-- AUX_POWER_LOSS (R573): loss of 3.3 V auxiliary disables the 12 V domains and clears retained SRAM. -/
  | auxPowerLoss (time : Nat)
  /-- SHOP_RESET (R506): GLB_RESET with scope shop requests a reset of one shop at the next boundary. -/
  | shopReset (unit : Nat) (update : Bool)
  /-- QUARTER_RESET (R506): GLB_RESET with scope quarter requests a reset of one quarter compute domain. -/
  | quarterReset (unit : Nat) (update : Bool)
  /-- STACK_RESET (R181): GLB_RESET with scope stack requests a reset of one stack keeping its memory. -/
  | stackReset (unit : Nat) (update : Bool)
  /-- COMPUTE_PART_RESET (R513): GLB_RESET with scope compute part, installer only, resets every 12 V domain but the link domain. -/
  | computePartReset (chan : Nat)
  /-- DRAIN_END (R508): every answer to the unit's outgoing requests has arrived and the drain ends. -/
  | drainEnd (scope : Nat) (unit : Nat) (time : Nat)
  /-- DRAIN_TIMEOUT (R508): the drain ends after 50 µs and DRAIN_TIMEOUT is set. -/
  | drainTimeout (scope : Nat) (unit : Nat) (time : Nat)
  /-- RESET_TEST_DONE (R507): the reset unit's tests end, passing or failing under R512. -/
  | resetTestDone (scope : Nat) (unit : Nat) (fails : List TestFail) (time : Nat)
  /-- RETRY (R509): A local request to a home in reset receives RETRY and is resent every 5 µs. -/
  | retry (tenant : Option Nat) (addr : Nat)
  /-- BELLBOARD_SOURCE (R522): A source input edge or level makes its bellboard pending bit set. -/
  | bellboardSource (source : Nat) (asserted : Bool) (gated : Bool) (time : Nat)
  /-- BBD_CLAIM (R524): A steward read of a claim register claims a pending source or returns 0x3FF. -/
  | bbdClaim (path : RegPath) (source : Nat) (time : Nat)
  /-- BBD_COMPLETE (R525): the owner writes a source number to clear its active state. -/
  | bbdComplete (path : RegPath) (source : Nat) (time : Nat)
  /-- BBD_PEND (R526): A write stores a whole pending word, keeping bits set by hardware in the same cycle. -/
  | bbdPend (path : RegPath) (word : Nat) (value : Nat) (time : Nat)
  /-- LOCK_ACQUIRE (R528): A steward acquires a device lock by LR.D and SC.D, starting its lease. -/
  | lockAcquire (steward : Nat) (lock : Nat) (epoch : Nat) (time : Nat)
  /-- LOCK_RELEASE (R528): A steward releases a lock and every staged store is performed together. -/
  | lockRelease (steward : Nat) (lock : Nat) (epoch : Nat) (mem : List (Nat × Nat)) (time : Nat)
  /-- LEASE_EXPIRY (R529): A lease lasts 10 µs and its expiry breaks the lock, discarding staged stores. -/
  | leaseExpiry (lock : Nat) (time : Nat)
  /-- STEWARD_WATCHDOG (R521): A steward that fails to refresh its watchdog for 1 ms is restarted. -/
  | stewardWatchdog (steward : Nat)
  /-- STEWARD_RESTART_DONE (R521): A restarted steward runs again and its duties return at the next boundary. -/
  | stewardRestartDone (steward : Nat)
  /-- CHALLENGE (R532): ROLE_CMD operation that issues a 48-byte challenge on a channel. -/
  | challenge (path : RegPath) (time : Nat)
  /-- RESPOND (R532): ROLE_CMD operation that checks a certificate and signed response and opens a session. -/
  | respond (path : RegPath) (ins : RoleIn) (time : Nat)
  /-- ROLE_CLOSE (R533): ROLE_CMD operation that closes the session and stores the lock policy. -/
  | roleClose (path : RegPath) (time : Nat)
  /-- UNLOCK (R534): ROLE_CMD operation that clears GLB_LOCK bits in a session with the right. -/
  | unlock (path : RegPath) (mask : Nat) (time : Nat)
  /-- IMAGE_WRITE (R536): ROLE_CMD operation that verifies and writes a firmware image to flash. -/
  | imageWrite (path : RegPath) (kind : Nat) (ins : RoleIn) (time : Nat)
  /-- SESSION_TIMEOUT (R533): A session with no write for 300 s closes. -/
  | sessionTimeout (time : Nat)
  /-- LOCKOUT_EXPIRY (R532): the 60 s lockout ends and challenges are accepted again. -/
  | lockoutExpiry (time : Nat)
  /-- GLB_LOCK (R534): A W1S write freezes the RWL fields of the locked blocks. -/
  | glbLock (path : RegPath) (value : Nat) (time : Nat)
  /-- GLB_RECOVERY_ADDR (R537): in FAILED with cause BOOT, a write names a recovery image the boot ROM writes to both slots. -/
  | glbRecoveryAddr (address : Nat) (ins : RoleIn) (time : Nat)
  /-- FUSE_PROGRAM (R538): A maker operation programs eFuses within the fuse temperature window. -/
  | fuseProgram (chan : Nat) (kind : Nat) (object : Nat) (words : List Nat) (closed : Option Nat) (time : Nat)
  /-- SAMPLE_PRELOAD (R540): JTAG SAMPLE/PRELOAD boundary-scan instruction. -/
  | samplePreload (lands : List Byte) (outputs : List Bool)
  /-- EXTEST (R540): JTAG EXTEST, accepted only while SYS_RST_N is asserted. -/
  | extest (lands : List Byte) (outputs : List Bool)
  /-- DMI (R541): JTAG debug module access, gated by the debug level. -/
  | dmi (op : DmiOp) (time : Nat)
  /-- JTAG_ROLE (R540): JTAG ROLE data register capture or update of the ROLE block. -/
  | jtagRole (words : Option (List Nat)) (ins : RoleIn) (time : Nat)
  /-- RECOVERY (R537): JTAG RECOVERY data register carrying a recovery image in FAILED with cause BOOT. -/
  | recovery (ins : RoleIn) (time : Nat)
  /-- DEBUG_APERTURE_READ (R542): an aperture read peeks side-effect fields unless EFFECT is set. -/
  | debugApertureRead (device : Bool) (address : Nat) (size : Nat) (time : Nat)
  /-- OBK_SEL (R239): A write snapshots an order entry for OBK_ENTRY0-7. -/
  | obkSel (order : Nat)
  /-- PLC_MAP_SEL (R294): A write snapshots a granule's map entry. -/
  | plcMapSel (granule : Nat)
  /-- STAT_TSEL (R549): A write snapshots one tenant's latched counters, after any close in progress. -/
  | statTsel (tenant : Nat)
  /-- STAT_BSEL (R554): A write snapshots one unit's per-bell copies with their bell number. -/
  | statBsel (value : Nat)
  /-- RAS_LOG_SEL (R493): A write snapshots a log record, reading the non-volatile log if asked. -/
  | rasLogSel (seq : Nat) (nv : Bool)
  /-- ROLE_AUDIT_SEL (R539): A write snapshots an audit entry. -/
  | roleAuditSel (seq : Nat)
  /-- POWER (R580): SMBus command returning supply, current, bell energy and envelope. -/
  | power (mv : Nat) (current : Nat)
  /-- REG_ADDR (R580): SMBus command setting the BAR0 offset for REG_DATA. -/
  | regAddr (offset : Nat)
  /-- REG_DATA_READ (R581): SMBus Block Read of the register at REG_ADDR as a peek, advancing the address. -/
  | regDataRead (time : Nat)
  /-- REG_DATA_WRITE (R581): SMBus Block Write of the register at REG_ADDR within an SMBus session. -/
  | regDataWrite (value : Nat) (ins : RoleIn) (time : Nat)
  /-- LOCKSTEP_FAILURE (R520): A mismatch between a steward's two lockstep cores fails that steward, which is restarted or made absent and its duties move. -/
  | lockstepFailure (steward : Nat) (restart : Bool)
  /-- STACK_CHANNEL_LANE_FAILURE (R479): A stack channel lane fails its link check and its traffic moves to one of the two spare lanes, or the channel runs at half rate. -/
  | stackChannelLaneFailure (stack : Nat) (channel : Nat) (lane : Nat)
  /-- LANE_RETEST_DONE (R400): the BER retest of a failed Balis lane ends and the lane becomes the spare if it passed. -/
  | laneRetestDone (port : Nat) (lane : Nat) (passed : Bool)
  /-- SIGNAL_RETURN (R421): signal returns on a Balis port within 2 ms of its loss, and the port resumes from its replay buffer without declaring the link down. -/
  | signalReturn (port : Nat) (time : Nat)
  /-- BALIS_REFERENCE_FAILURE (R395): A Balis reference input fails and every port that it serves goes down. -/
  | balisReferenceFailure (ref : Nat) (time : Nat)
  /-- LINK_DEGRADED (R426): the host port link trains, or retrains, below x16 at 64 GT/s and LINK_DEGRADED is written. -/
  | linkDegraded (width : Nat) (speed : Nat)
  /-- FAR_MEDIA_READY (R453): an enumerated far device reports Media Ready and its port becomes ready. -/
  | farMediaReady (port : Nat)
  /-- FAR_DEVICE_EVENT (R453): A far device signals, and Nororadra reads its event logs and reports the entries as RAS events. -/
  | farDeviceEvent (port : Nat) (types : List Nat)
  /-- FAR_PRSNT_N (R575): the FAR_PRSNT_N input of a far port changes, showing a device attached or removed. -/
  | farPrsntN (port : Nat) (high : Bool)
  /-- THERMAL_GATE_TIMEOUT (R360): the 10 s wait for every enabled channel to read below warning ends and bring-up fails with cause THERMAL. -/
  | thermalGateTimeout (time : Nat)
  /-- MODEL_LOAD_DONE (R441): the BE copies of a model load finish and its COMPLETION is written with the handle or a failure. -/
  | modelLoadDone (ring : Nat) (tag : Nat) (hostError : Bool)
  /-- COPY_DONE (R440): every write of a COPY command has been performed, its tally is signalled and its COMPLETION is written. -/
  | copyDone (ring : Nat) (tag : Nat)
  /-- WRITE_COMPLETION (R373): the completion of a bench VSTM returns from its home, lowering the outstanding count that FENCE and MWAIT wait on. -/
  | writeCompletion (shop : Nat) (bench : Nat) (acc : Nat)
  /-- CELLAR_UNIT_READ (R257): A cellar unit read during a recall returns with a failed frame CRC or as poison, and the recall stops at once. -/
  | cellarUnitRead (order : Nat) (unit : Nat) (failure : Nat)
  /-- CELLAR_WRITE_ERROR (R255): A far device answers a cellaring write with an error, and the cellaring aborts. -/
  | cellarWriteError (order : Nat)
  -- The rows without operands.
  /-- XLATE_MISS_FETCH (R367): A translation-cache miss is served from stack metadata and the access proceeds. -/
  | xlateMissFetch
  /-- LEDGER_CLOSE (R547): at the end of a ledger period every live counter is latched and restarted. -/
  | ledgerClose
  /-- BELL_SOURCE_LOST (R418): no mark for 16 bells makes the device count on and write BELL_SOURCE_LOST. -/
  | bellSourceLost
  /-- PERST_ASSERT (R428): PERST# asserted resets the endpoint with the effects of a PF FLR. -/
  | perstAssert
  /-- PF_FLR (R428): A PF FLR or D3hot disables all tenants, cancels operator runs and resets HQ. -/
  | pfFlr
  /-- SCRUB_GO (R468): A GO write starts a scrub over a granule range at the next boundary. -/
  | scrubGo
  /-- SCRUB_ABORT (R470): an ABORT write ends the running scrub at a sector boundary. -/
  | scrubAbort
  /-- SCRUB_DONE (R470): every stack finished, the scrub writes its summary and SCRUB_DONE. -/
  | scrubDone
  /-- BYPASS (R540): JTAG BYPASS instruction. -/
  | bypass
  /-- IDCODE (R540): JTAG IDCODE instruction returning the device identity. -/
  | idcode
  /-- DTMCS (R540): JTAG access to the RISC-V debug transport control register. -/
  | dtmcs
  /-- TRST_N (R533): TRST_N resets the JTAG port and closes a JTAG session. -/
  | trstN
  /-- NV_LOG_READ_DONE (R495): A non-volatile log read completes and PENDING clears. -/
  | nvLogReadDone
  /-- IDENT (R580): SMBus command returning identity and device serial. -/
  | ident
  /-- STATE (R580): SMBus command returning the device state and boot status. -/
  | state
  /-- ALERT (R580): SMBus command returning the causes of ALERT_N. -/
  | alert
  /-- TRIP (R580): SMBus command returning the trip record. -/
  | trip
  /-- QUARTERS (R580): SMBus command returning quarter temperatures. -/
  | quarters
  /-- STACKS (R580): SMBus command returning stack temperatures. -/
  | stackTemps
  /-- CHANNELS (R580): SMBus command returning all channel readings. -/
  | channels
  /-- LINKS (R580): SMBus command returning host, Balis and far link states. -/
  | links
deriving DecidableEq, Repr

end Sys2Proof
end

