-- ==== Sys2Proof/Decode.lean ====
section
/-! DEFINITION. The command that a word of the opcode table spells. No row of spec/opcode_table.json gives bits: commands reach
the KW800 as register accesses, packets and events, so no word spells one. -/

namespace Sys2Proof

/-- The command spelled by a table word: none, since the table gives no row any bits. -/
def decodeTableWord (_nbits _w : Nat) : Option Instr := none

end Sys2Proof
end

