-- ==== Sys2Proof/Config.lean ====
section
/-! DEFINITION. What one implementation fixes and what the spec leaves open. A constant declared opaque has no value a
proof can see: a statement about it holds whatever it is. -/

namespace Sys2Proof.Config

/-- FREE VALUES. A fresh 64-bit value, read at the counter State.freeCtr (log entry 2, DESIGN CHOICE): keys and challenges of the
random source, results the spec does not state. -/
opaque freeValue : Nat → BitVec 64

/-- The distance, in units in the last place, of a special function from the correctly rounded result (R58). Arguments:
the function (0 exp, 1 reciprocal square root, 2 reciprocal), the place (0 bench, 1 fuller) and the operand's bits.
The model clamps it to the bound of Table 2.11 (log entry 3, DESIGN CHOICE). A function of the operands, so R59 holds. -/
opaque freeUlp : Nat → Nat → Nat → Int

/-- The hash that spreads a route's traffic over its ports (R406 names no function; log entry 4, DESIGN CHOICE). -/
opaque routeHash : Nat → Nat → Nat

/-- Results the spec states no value for, as a function of a tag and the operands (log entry 5, DESIGN CHOICE). -/
opaque openResult : Nat → Nat → Nat → Nat

/-- The power floor fuse in watts (Table 13: P_FLOOR is given per part and has no figure; log entry 6, DESIGN CHOICE). -/
opaque pFloorW : Nat

/-- The device serial fused by the maker (ROLE_DEVICE_SERIAL; log entry 9, DESIGN CHOICE). -/
opaque deviceSerial : Nat

/-- Mirxida's JEDEC manufacturer code, bits [11:1] of IDCODE (R540; log entry 9, DESIGN CHOICE). -/
opaque jedecCode : Nat

end Sys2Proof.Config
end

