-- ==== Sys2Proof/Machine/Tbl.lean ====
section
/-! DEFINITION. Sparse tables with a default value, in one canonical form: keys strictly rising and no entry equal to
the default. Every numbered collection of State is such a table, so equal contents are equal data. -/

namespace Sys2Proof.Machine

variable {α : Type}

/-- The value at key `k`; the default `d` where the table lists nothing. -/
def tget (d : α) : Tbl α → Nat → α
  | [], _ => d
  | p :: t, k => if p.1 = k then p.2 else tget d t k

/-- Insert an entry before the first greater key. -/
def tins : Tbl α → Nat → α → Tbl α
  | [], k, v => [(k, v)]
  | p :: t, k, v => if k < p.1 then (k, v) :: p :: t else p :: tins t k v

/-- Remove every entry at key `k`. -/
def tdel (t : Tbl α) (k : Nat) : Tbl α := t.filter (fun p => decide (p.1 ≠ k))

/-- Set the value at key `k`; writing the default removes the entry, which keeps the canonical form. -/
def tset [DecidableEq α] (d : α) (t : Tbl α) (k : Nat) (v : α) : Tbl α :=
  if v = d then tdel t k else tins (tdel t k) k v

/-- Change the value at key `k` by a function. -/
def tmod [DecidableEq α] (d : α) (t : Tbl α) (k : Nat) (f : α → α) : Tbl α :=
  tset d t k (f (tget d t k))

/-- Is the table's key list strictly rising? -/
def tsorted : Tbl α → Bool
  | [] => true
  | [_] => true
  | p :: q :: t => decide (p.1 < q.1) && tsorted (q :: t)

/-- The canonical form of a table with default `d`. -/
def twf [DecidableEq α] (d : α) (t : Tbl α) : Bool :=
  tsorted t && t.all (fun p => decide (p.2 ≠ d))

/-- The keys the table lists. -/
def tkeys (t : Tbl α) : List Nat := t.map Prod.fst

/-- Apply a function to every listed value, dropping those that become the default. -/
def tmap [DecidableEq α] (d : α) (t : Tbl α) (f : Nat → α → α) : Tbl α :=
  (t.map (fun p => (p.1, f p.1 p.2))).filter (fun p => decide (p.2 ≠ d))

/-- The lowest key below `n` whose value satisfies `p`. -/
def tfind (d : α) (t : Tbl α) (p : α → Bool) (n : Nat) : Option Nat :=
  (List.range n).find? (fun k => p (tget d t k))

/-- Update position `k` of a list; out of range changes nothing. -/
def lset (l : List α) (k : Nat) (v : α) : List α := l.set k v

end Sys2Proof.Machine
end

