-- ==== Sys2Proof/Machine/Bits.lean ====
section
/-! DEFINITION. Bit fields, little-endian byte lists, sign extension, the CRC-32 of R585 and the counter-based generator
of R275. -/

namespace Sys2Proof.Machine

/-- Bits `hi` down to `lo` of a number, as a number. -/
def bitsOf (x hi lo : Nat) : Nat := x / 2 ^ lo % 2 ^ (hi + 1 - lo)

/-- One bit of a number. -/
def bitOf (x i : Nat) : Bool := x / 2 ^ i % 2 == 1

/-- A Bool as a bit. -/
def b2n (b : Bool) : Nat := if b then 1 else 0

/-- `x` with bits `hi` down to `lo` replaced by `v`. -/
def setBits (x hi lo v : Nat) : Nat :=
  x - bitsOf x hi lo * 2 ^ lo + (v % 2 ^ (hi + 1 - lo)) * 2 ^ lo

/-- Set one bit of a number. -/
def setBit (x i : Nat) : Nat := if bitOf x i then x else x + 2 ^ i

/-- Clear one bit of a number. -/
def clrBit (x i : Nat) : Nat := if bitOf x i then x - 2 ^ i else x

/-- The bit numbers below `n` that are set in `x`, rising. -/
def bitList (x n : Nat) : List Nat := (List.range n).filter (bitOf x)

/-- How many of the low `n` bits of `x` are set. -/
def popCount (x n : Nat) : Nat := (bitList x n).length

/-- A mask with the given bits set. -/
def maskOf (l : List Nat) : Nat := l.foldl setBit 0

/-- A `w`-bit code read as two's complement. -/
def signedOf (w x : Nat) : Int :=
  let y := x % 2 ^ w
  if y < 2 ^ (w - 1) then (y : Int) else (y : Int) - (2 ^ w : Nat)

/-- An integer's `w`-bit two's-complement code. -/
def codeOf (w : Nat) (i : Int) : Nat := (i % ((2 ^ w : Nat) : Int)).toNat

/-- A number's `n` bytes, least significant first (R4). -/
def leBytes : Nat → Nat → List Byte
  | 0, _ => []
  | n + 1, x => BitVec.ofNat 8 x :: leBytes n (x / 256)

/-- The number that a list of bytes spells, least significant first (R4). -/
def ofLeBytes : List Byte → Nat
  | [] => 0
  | b :: t => b.toNat + 256 * ofLeBytes t

/-- The little-endian number of `n` bytes at offset `off` of a list; bytes beyond the end read as zero. -/
def leAt (l : List Byte) (off n : Nat) : Nat := ofLeBytes ((l.drop off).take n)

/-- Replace the bytes at offset `off`, within the list's length. -/
def spliceBytes (l : List Byte) (off : Nat) (new : List Byte) : List Byte :=
  l.take off ++ (new ++ l.drop (off + new.length)).take (l.length - off)

/-- One bit step of the reflected CRC-32 (R585: reflected form 0xEDB8_8320). -/
def crcBit (c : BitVec 32) : BitVec 32 :=
  if c.getLsbD 0 then (c >>> 1) ^^^ 0xEDB88320#32 else c >>> 1

/-- One byte step of the CRC-32. -/
def crcByte (c : BitVec 32) (b : Byte) : BitVec 32 :=
  let c0 := c ^^^ (b.setWidth 32)
  crcBit (crcBit (crcBit (crcBit (crcBit (crcBit (crcBit (crcBit c0)))))))

/-- The CRC-32 of R585 over bytes in ascending address order. -/
def crc32 (l : List Byte) : BitVec 32 :=
  (l.foldl crcByte 0xFFFFFFFF#32) ^^^ 0xFFFFFFFF#32

/-- One round of Philox-4×32 (R275; the published constants, log entry 7, PRESUMED). -/
def philoxRound (k0 k1 : BitVec 32) (c : BitVec 32 × BitVec 32 × BitVec 32 × BitVec 32) :
    BitVec 32 × BitVec 32 × BitVec 32 × BitVec 32 :=
  let p0 := 0xD2511F53 * c.1.toNat
  let p1 := 0xCD9E8D57 * c.2.2.1.toNat
  (BitVec.ofNat 32 (p1 / 2 ^ 32) ^^^ c.2.1 ^^^ k0, BitVec.ofNat 32 p1,
   BitVec.ofNat 32 (p0 / 2 ^ 32) ^^^ c.2.2.2 ^^^ k1, BitVec.ofNat 32 p0)

/-- Rounds of Philox with the Weyl key schedule. -/
def philoxRounds : Nat → BitVec 32 → BitVec 32 → BitVec 32 × BitVec 32 × BitVec 32 × BitVec 32 →
    BitVec 32 × BitVec 32 × BitVec 32 × BitVec 32
  | 0, _, _, c => c
  | n + 1, k0, k1, c => philoxRounds n (k0 + 0x9E3779B9#32) (k1 + 0xBB67AE85#32) (philoxRound k0 k1 c)

/-- The counter-based generator (R275): word x0 for a 64-bit key and counter words c0 to c3. -/
def philoxX0 (key c0 c1 c2 c3 : Nat) : Nat :=
  (philoxRounds 10 (BitVec.ofNat 32 key) (BitVec.ofNat 32 (key / 2 ^ 32))
    (BitVec.ofNat 32 c0, BitVec.ofNat 32 c1, BitVec.ofNat 32 c2, BitVec.ofNat 32 c3)).1.toNat

/-- The 16-bit random integer of stochastic rounding (R39, Table 11.2). -/
def srRandom (seed n : Nat) : Nat := philoxX0 (seed % 2 ^ 32) n (n / 2 ^ 32) 0 0 % 65536

end Sys2Proof.Machine
end

