-- ==== Sys2Proof/Machine/Num.lean ====
section
/-! DEFINITION. Number formats and arithmetic (chapter 2): the element formats of Table 2.1, exact values, rounding under
the conversion control of Table 2.3, and the arithmetic the arrays, benches and fullers are built on. -/

namespace Sys2Proof.Machine

/-- The element formats (Table 2.1, R34). -/
inductive Fmt where
  | fp4 | e2m3 | e3m2 | e4m3 | e5m2 | bf16 | fp16 | fp32
  | int8 | int4 | int32
deriving DecidableEq, Repr

/-- Is the format floating? -/
def fmtFloat : Fmt → Bool
  | .int8 | .int4 | .int32 => false
  | _ => true

/-- Exponent bits (Table 2.1). -/
def fmtE : Fmt → Nat
  | .fp4 => 2 | .e2m3 => 2 | .e3m2 => 3 | .e4m3 => 4 | .e5m2 => 5 | .bf16 => 8 | .fp16 => 5 | .fp32 => 8
  | _ => 0

/-- Mantissa bits M (Table 2.1). -/
def fmtM : Fmt → Nat
  | .fp4 => 1 | .e2m3 => 3 | .e3m2 => 2 | .e4m3 => 3 | .e5m2 => 2 | .bf16 => 7 | .fp16 => 10 | .fp32 => 23
  | _ => 0

/-- Exponent bias (Table 2.1). -/
def fmtBias : Fmt → Nat
  | .fp4 => 1 | .e2m3 => 1 | .e3m2 => 3 | .e4m3 => 7 | .e5m2 => 15 | .bf16 => 127 | .fp16 => 15 | .fp32 => 127
  | _ => 0

/-- Does the format have infinities (Table 2.1)? -/
def fmtInf : Fmt → Bool
  | .e5m2 | .bf16 | .fp16 | .fp32 => true
  | _ => false

/-- Width of one element in bits. -/
def fmtBits : Fmt → Nat
  | .int8 => 8 | .int4 => 4 | .int32 => 32
  | f => 1 + fmtE f + fmtM f

/-- An exact value: a NaN, an infinity, or (−1)^neg × m × 2^e. Zero keeps its sign. -/
inductive FVal where
  | nan
  | inf (neg : Bool)
  | fin (neg : Bool) (m : Nat) (e : Int)
deriving DecidableEq, Repr

/-- The value of a floating code (R33). -/
def decodeFloat (f : Fmt) (c : Nat) : FVal :=
  let M := fmtM f
  let E := fmtE f
  let s := bitOf c (E + M)
  let e := bitsOf c (E + M - 1) M
  let m := c % 2 ^ M
  if fmtInf f && e == 2 ^ E - 1 then (if m = 0 then .inf s else .nan)
  else if f = .e4m3 && e == 15 && m == 7 then .nan
  else if e = 0 then .fin s m (1 - (fmtBias f : Int) - M)
  else .fin s (2 ^ M + m) ((e : Int) - fmtBias f - M)

/-- The value of any element code: integers exactly (R34). -/
def decodeElem (f : Fmt) (c : Nat) : FVal :=
  match f with
  | .int8 => let i := signedOf 8 c; .fin (decide (i < 0)) i.natAbs 0
  | .int4 => let i := signedOf 4 c; .fin (decide (i < 0)) i.natAbs 0
  | .int32 => let i := signedOf 32 c; .fin (decide (i < 0)) i.natAbs 0
  | f => decodeFloat f c

/-- The value of an E8M0 scale (R34). -/
def decodeE8M0 (E : Nat) : FVal := if E % 256 = 255 then .nan else .fin false 1 ((E % 256 : Nat) - 127 : Int)

/-- Rounding of a magnitude (Tables 2.3 and 4.3): nearest even, toward zero, away from zero, stochastic with its 16-bit random
integer. -/
inductive Rnd where
  | rne
  | rtz
  | away
  | sr (r : Nat)
deriving DecidableEq, Repr

/-- Round `m × 2^e` to a multiple of 2^q: the integer mantissa at exponent q. SR adds the random integer to the 16 most
significant of the discarded bits and truncates (R39). -/
def roundAt (r : Rnd) (m : Nat) (e q : Int) : Nat :=
  if q ≤ e then m * 2 ^ (e - q).toNat
  else
    let s := (q - e).toNat
    let kept := m / 2 ^ s
    let rem := m % 2 ^ s
    match r with
    | .rtz => kept
    | .away => if rem = 0 then kept else kept + 1
    | .rne => if 2 * rem > 2 ^ s ∨ (2 * rem = 2 ^ s ∧ kept % 2 = 1) then kept + 1 else kept
    | .sr v =>
      let top := if 16 ≤ s then rem / 2 ^ (s - 16) else rem * 2 ^ (16 - s)
      if top + v % 65536 ≥ 65536 then kept + 1 else kept

/-- Floor of the base-2 logarithm of m × 2^e, for m nonzero. -/
def floorLog (m : Nat) (e : Int) : Int := (Nat.log2 m : Int) + e

/-- m × 2^e compared with n × 2^d: is the first less? -/
def dyLt (m : Nat) (e : Int) (n : Nat) (d : Int) : Bool :=
  if e ≤ d then decide (m < n * 2 ^ (d - e).toNat) else decide (m * 2 ^ (e - d).toNat < n)

/-- The largest finite code of a format, sign bit clear (Table 2.1). -/
def maxCode (f : Fmt) : Nat :=
  match f with
  | .e4m3 => 0x7E
  | f => if fmtInf f then (2 ^ fmtE f - 1) * 2 ^ fmtM f - 1 else 2 ^ (fmtE f + fmtM f) - 1

/-- The infinity code of a format that has one. -/
def infCode (f : Fmt) : Nat := (2 ^ fmtE f - 1) * 2 ^ fmtM f

/-- The canonical NaN (R41); formats without one give zero. -/
def nanCode : Fmt → Nat
  | .e4m3 => 0x7F | .e5m2 => 0x7E | .bf16 => 0x7FC0 | .fp16 => 0x7E00 | .fp32 => 0x7FC00000
  | _ => 0

/-- The sign bit of a format as a number. -/
def signCode (f : Fmt) (neg : Bool) : Nat := if neg then 2 ^ (fmtE f + fmtM f) else 0

/-- The code of a non-negative value already on the format's grid: m × 2^q with q no lower than the grid of
subnormals. The result lies above the format's largest code exactly when the value does. -/
def gridCode (f : Fmt) (m : Nat) (q : Int) : Nat :=
  let M := fmtM f
  let emin : Int := 1 - (fmtBias f : Int)
  if m < 2 ^ M then m
  else
    let l := Nat.log2 m
    let expn := ((l : Int) + q - emin + 1).toNat
    expn * 2 ^ M + (if M ≤ l then m / 2 ^ (l - M) else m * 2 ^ (M - l)) - 2 ^ M

/-- The conversion control (Table 2.3). -/
structure CvtCtl where
  /-- RMODE [1:0]. -/
  rmode : Nat
  /-- OVF [2]: IEEE overflow to infinity. -/
  ovf : Bool
  /-- FTZ [3]: flush subnormal results. -/
  ftz : Bool
deriving DecidableEq, Repr

/-- The conversion control's reset value 0x0 (R37). -/
def CvtCtl.reset : CvtCtl := ⟨0, false, false⟩

/-- The 4-bit conversion control's fields. -/
def cvtOfBits (c : Nat) : CvtCtl := ⟨c % 4, bitOf c 2, bitOf c 3⟩

/-- The rounding of a control: RMODE 0b11 converts as RNE (R38); SR takes the element's random integer. -/
def cvtRnd (c : CvtCtl) (random : Nat) : Rnd :=
  if c.rmode = 1 then .rtz else if c.rmode = 2 then .sr random else .rne

/-- Round a finite value into a floating format. OVF and FTZ as Table 2.3 and R586 say: the flush is decided on the value
rounded with an unbounded exponent range. -/
def encodeFin (f : Fmt) (r : Rnd) (ovf ftz neg : Bool) (m : Nat) (e : Int) : Nat :=
  let s := signCode f neg
  if m = 0 then s
  else
    let M := fmtM f
    let emin : Int := 1 - (fmtBias f : Int)
    let qn := floorLog m e - (M : Int)
    let q := if ftz then qn else max qn (emin - M)
    let m1 := roundAt r m e q
    if ftz && dyLt m1 q 1 emin then s
    else
      let c := if q < emin - M then 2 ^ M else gridCode f m1 q
      if c > maxCode f then
        (if ovf && fmtInf f then s + infCode f else s + maxCode f)
      else s + c

/-- Encode any value in a floating format (Table 2.4). -/
def encodeFloat (f : Fmt) (r : Rnd) (ovf ftz : Bool) (v : FVal) : Nat :=
  match v with
  | .nan => nanCode f
  | .inf n => if fmtInf f then signCode f n + infCode f else signCode f n + maxCode f
  | .fin n m e => encodeFin f r ovf ftz n m e

/-- Round a finite value to an integer by the rounding mode. -/
def roundInt (r : Rnd) (neg : Bool) (m : Nat) (e : Int) : Int :=
  let k : Int := roundAt r m e 0
  if neg then -k else k

/-- Clamp an integer to a range. -/
def clampInt (lo hi x : Int) : Int := max lo (min hi x)

/-- Encode a value as a w-bit integer: rounded by RMODE, then saturated; NaN gives 0 (Table 2.4). -/
def encodeInt (w : Nat) (r : Rnd) (v : FVal) : Nat :=
  let hi : Int := 2 ^ (w - 1) - 1
  let lo : Int := -2 ^ (w - 1)
  match v with
  | .nan => 0
  | .inf n => codeOf w (if n then lo else hi)
  | .fin n m e => codeOf w (clampInt lo hi (roundInt r n m e))

/-- Convert a value to a destination format under a conversion control and the element's random integer. -/
def convertTo (f : Fmt) (c : CvtCtl) (random : Nat) (v : FVal) : Nat :=
  match f with
  | .int8 => encodeInt 8 (cvtRnd c random) v
  | .int4 => encodeInt 4 (cvtRnd c random) v
  | .int32 => encodeInt 32 (cvtRnd c random) v
  | f => encodeFloat f (cvtRnd c random) c.ovf c.ftz v

/-- Does this conversion increment the format-fault counter (R38, Table 2.4)? -/
def convertCounts (f : Fmt) (c : CvtCtl) (v : FVal) : Bool :=
  decide (c.rmode = 3) ||
    (decide (v = .nan) && (match f with | .fp4 | .e2m3 | .e3m2 | .int8 | .int4 => true | _ => false))

/-- The signed integer mantissa of a finite value at exponent `q` no higher than its own. -/
def mantAt (neg : Bool) (m : Nat) (e q : Int) : Int :=
  let k : Int := (m * 2 ^ (e - q).toNat : Nat)
  if neg then -k else k

/-- A finite value from a signed mantissa; an exact zero is +0. -/
def finOf (k : Int) (e : Int) : FVal := .fin (decide (k < 0)) k.natAbs e

/-- Exact sum, infinities and NaN as IEEE 754. The sum of two zeros of one sign keeps it; an exact cancellation is +0. -/
def addV (a b : FVal) : FVal :=
  match a, b with
  | .nan, _ => .nan
  | _, .nan => .nan
  | .inf n, .inf k => if n = k then .inf n else .nan
  | .inf n, .fin _ _ _ => .inf n
  | .fin _ _ _, .inf n => .inf n
  | .fin n m e, .fin k p d =>
    if m = 0 ∧ p = 0 then .fin (n && k) 0 0
    else
      let q := min e d
      finOf (mantAt n m e q + mantAt k p d q) q

/-- Exact product; infinity × zero is NaN (R54). -/
def mulV (a b : FVal) : FVal :=
  match a, b with
  | .nan, _ => .nan
  | _, .nan => .nan
  | .inf n, .inf k => .inf (n != k)
  | .inf n, .fin k p _ => if p = 0 then .nan else .inf (n != k)
  | .fin n m _, .inf k => if m = 0 then .nan else .inf (n != k)
  | .fin n m e, .fin k p d => .fin (n != k) (m * p) (e + d)

/-- Negation. -/
def negV : FVal → FVal
  | .nan => .nan
  | .inf n => .inf (!n)
  | .fin n m e => .fin (!n) m e

/-- Is the value a NaN? -/
def isNanV (v : FVal) : Bool := decide (v = .nan)

/-- Is the first value less than the second? A NaN compares false; zeros of both signs are equal. -/
def ltV (a b : FVal) : Bool :=
  match a, b with
  | .nan, _ => false
  | _, .nan => false
  | .inf n, .inf k => n && !k
  | .inf n, .fin _ _ _ => n
  | .fin _ _ _, .inf k => !k
  | .fin n m e, .fin k p d =>
    let q := min e d
    decide (mantAt n m e q < mantAt k p d q)

/-- Are the two values equal? A NaN equals nothing. -/
def eqV (a b : FVal) : Bool := !isNanV a && !isNanV b && !ltV a b && !ltV b a

/-- IEEE 754 maximum: a NaN operand gives NaN, and max(−0, +0) is +0 (R57). -/
def maxV (a b : FVal) : FVal :=
  if isNanV a || isNanV b then .nan
  else if ltV a b then b
  else if ltV b a then a
  else match a with
    | .fin true 0 _ => b
    | _ => a

/-- IEEE 754 minimum: a NaN operand gives NaN, and min(−0, +0) is −0. -/
def minV (a b : FVal) : FVal := negV (maxV (negV a) (negV b))

/-- Round an exact value to FP32 as the arrays and fullers do: RNE, overflow to infinity, subnormal results flushed
(R51, R57). -/
def toF32Flush (v : FVal) : Nat := encodeFloat .fp32 .rne true true v

/-- The value of an FP32 code. -/
def ofF32 (c : Nat) : FVal := decodeFloat .fp32 c

/-- FP32 addition of the arrays and fullers on values held as FP32 codes (R51). -/
def accAdd (acc : Nat) (v : FVal) : Nat := toF32Flush (addV (ofF32 acc) v)

/-- Flush a subnormal FP32 input to zero of its sign (R57). -/
def flushIn (c : Nat) : Nat := if bitsOf c 30 23 = 0 then (if bitOf c 31 then 2 ^ 31 else 0) else c

/-- Sum of a group of at most 16 values by the fixed pairwise tree: neighbours are added level by level, an odd last
one passing up unchanged (R57; log entry 8, DEDUCED). The fuel is the number of levels. -/
def pairTree (add : Nat → Nat → Nat) : Nat → List Nat → List Nat
  | 0, l => l
  | k + 1, l => pairTree add k (level l)
where
  level : List Nat → List Nat
    | a :: b :: t => add a b :: level t
    | l => l

/-- Split a list into groups of `n` (fuel: the list's length). -/
def groupsOf {α : Type} (n : Nat) : Nat → List α → List (List α)
  | 0, _ => []
  | k + 1, l => if l.isEmpty then [] else l.take n :: groupsOf n k (l.drop n)

/-- A fuller vector sum: each 16-element group by the pairwise tree, then the group sums in ascending order (R57). -/
def fullerSum (l : List Nat) : Nat :=
  let add := fun a b => toF32Flush (addV (ofF32 a) (ofF32 b))
  let sums := (groupsOf 16 l.length (l.map flushIn)).map (fun g => (pairTree add 4 g).headD 0)
  match sums with
  | [] => 0
  | s :: t => t.foldl add s

/-- Integer square root with remainder flag, by bisection on bits (fuel: bits). -/
def isqrtAux : Nat → Nat → Nat → Nat
  | 0, _, r => r
  | k + 1, n, r => let c := r + 2 ^ k; isqrtAux k n (if c * c ≤ n then c else r)

/-- Floor of the square root. -/
def isqrt (n : Nat) : Nat := isqrtAux (Nat.log2 n / 2 + 1) n 0

/-- Move an FP32 code by `k` units in the last place, staying finite, nonnegative in magnitude and of its sign. -/
def moveUlp (c : Nat) (k : Int) : Nat :=
  let s := c / 2 ^ 31 % 2
  let m : Int := (c % 2 ^ 31 : Nat)
  s * 2 ^ 31 + (clampInt 0 0x7F7FFFFF (m + k)).toNat

/-- The deviation a place is allowed: the open distance clamped to the bound of Table 2.11. -/
def ulpDev (fn place operand : Nat) (bound : Int) : Int :=
  clampInt (-bound) bound (Config.freeUlp fn place operand)

/-- The correctly rounded FP32 reciprocal of a nonzero finite value: the quotient is kept to 60 bits with a sticky
bit, then rounded RNE. -/
def recipF32 (neg : Bool) (m : Nat) (e : Int) : Nat :=
  let sh := Nat.log2 m + 60
  let q := 2 ^ sh / m
  let st := if 2 ^ sh % m = 0 then 0 else 1
  encodeFloat .fp32 .rne true false (.fin neg (2 * q + st) (-e - sh - 1))

/-- The correctly rounded FP32 reciprocal square root of a positive finite value. -/
def rsqrtF32 (m : Nat) (e : Int) : Nat :=
  let (m1, e1) := if e % 2 = 0 then (m, e) else (2 * m, e - 1)
  -- 1/sqrt(m1) scaled by 2^k with k such that at least 40 bits remain
  let k := Nat.log2 m1 + 60
  let q := isqrt (2 ^ (2 * k) / m1)
  encodeFloat .fp32 .rne true false (.fin false (2 * q + 1) (-(e1 / 2) - k - 1))

/-- exp of x = k × 2^−64 as a fixed-point number with 80 fraction bits and a binary exponent: (mantissa, exponent). The
reduction by ln 2 and a Taylor series of 16 terms keep the relative error far below one unit of FP32. -/
def expFixed (x : Int) : Nat × Int :=
  let ln2 : Int := 12786308645202655660   -- ln 2 × 2^64, rounded
  let k := x / ln2
  let r := x - k * ln2                     -- 0 ≤ r < ln 2, 64 fraction bits
  let one : Int := 2 ^ 80
  let go := (List.range 24).foldl
    (fun (p : Int × Int) (i : Nat) => let t := p.1 * r / 2 ^ 64 / ((i : Int) + 1); (t, p.2 + t)) (one, one)
  (go.2.toNat, k)

/-- The special functions on an FP32 code, with the edge values and accuracies of Table 2.11 (R58). `place` is 0 for a
bench and 1 for a fuller; `ovf` is OVF of the governing control. -/
def expOp (place : Nat) (ovf : Bool) (c : Nat) : Nat :=
  match ofF32 c with
  | .nan => nanCode .fp32
  | .inf true => 0
  | .inf false => if ovf then infCode .fp32 else maxCode .fp32
  | .fin n m e =>
    let x := ofF32 c
    -- −87.3 and 88.7 as exact values in tenths
    if ltV (mulV x (.fin false 10 0)) (.fin true 873 0) then 0
    else if ltV (.fin false 887 0) (mulV x (.fin false 10 0)) then (if ovf then infCode .fp32 else maxCode .fp32)
    else
      let xf : Int := let k : Int := roundAt .rtz m e (-64); if n then -k else k
      let (mm, k) := expFixed xf
      let r := encodeFloat .fp32 .rne true false (.fin false mm (k - 80))
      moveUlp r (ulpDev 0 place c (if place = 0 then 1 else 2))

/-- Reciprocal square root (Table 2.11): ±0 gives ±infinity, a negative input gives NaN. -/
def rsqOp (place : Nat) (c : Nat) : Nat :=
  match ofF32 c with
  | .nan => nanCode .fp32
  | .inf true => nanCode .fp32
  | .inf false => 0
  | .fin n m e =>
    if m = 0 then signCode .fp32 n + infCode .fp32
    else if n then nanCode .fp32
    else moveUlp (rsqrtF32 m e) (ulpDev 1 place c 1)

/-- Reciprocal (Table 2.11): ±0 gives ±infinity. -/
def rcpOp (place : Nat) (c : Nat) : Nat :=
  match ofF32 c with
  | .nan => nanCode .fp32
  | .inf n => signCode .fp32 n
  | .fin n m e =>
    if m = 0 then signCode .fp32 n + infCode .fp32
    else
      let r := recipF32 n m e
      if r % 2 ^ 31 = infCode .fp32 then r
      else moveUlp r (ulpDev 2 place c (if place = 0 then 1 else 3))

/-- The element at linear index `n` of a byte-addressed tensor whose bytes are given (R35). -/
def elemCode (f : Fmt) (bytes : List Byte) (n : Nat) : Nat :=
  match fmtBits f with
  | 4 => let b := leAt bytes (n / 2) 1; if n % 2 = 0 then b % 16 else b / 16
  | 6 => bitsOf (leAt bytes (n / 4 * 3) 3) (6 * (n % 4) + 5) (6 * (n % 4))
  | w => leAt bytes (n * (w / 8)) (w / 8)

/-- Bytes that `n` elements of a format take, padded to a whole byte or group (R35). -/
def elemBytes (f : Fmt) (n : Nat) : Nat :=
  match fmtBits f with
  | 4 => (n + 1) / 2
  | 6 => (n + 3) / 4 * 3
  | w => n * (w / 8)

/-- Pack element codes into bytes; the last byte or group is padded with zero bits (R35). -/
def packElems (f : Fmt) (l : List Nat) : List Byte :=
  match fmtBits f with
  | 4 => (groupsOf 2 l.length l).flatMap (fun g => leBytes 1 (g.headD 0 % 16 + 16 * ((g.drop 1).headD 0 % 16)))
  | 6 => (groupsOf 4 l.length l).flatMap (fun g =>
      leBytes 3 (g.headD 0 % 64 + 64 * ((g.drop 1).headD 0 % 64) + 4096 * ((g.drop 2).headD 0 % 64)
        + 262144 * ((g.drop 3).headD 0 % 64)))
  | w => l.flatMap (leBytes (w / 8))

/-- The MX scale chosen for a block (Table 2.6): floor(log2 of the largest magnitude) minus the element format's
largest exponent; 0x7F for an all-zero block; 0xFF where a value is infinite or NaN. -/
def mxScale (f : Fmt) (l : List FVal) : Nat :=
  if l.any (fun v => match v with | .fin _ _ _ => false | _ => true) then 255
  else
    let emax : Int := match f with
      | .fp4 => 2 | .e2m3 => 2 | .e3m2 => 4 | .e4m3 => 8 | .e5m2 => 15 | _ => 0
    let big := l.foldl (fun (a : Option Int) v => match v with
      | .fin _ m e => if m = 0 then a else some (match a with | none => floorLog m e | some b => max b (floorLog m e))
      | _ => a) none
    match big with
    | none => 127
    | some b => (clampInt 0 254 (b - emax + 127)).toNat

/-- A plane block's element kinds (Table 2.8). -/
def planeWidthOk (kind w : Nat) : Bool :=
  match kind with
  | 0 => decide (2 ≤ w ∧ w ≤ 8)
  | 1 => decide (1 ≤ w ∧ w ≤ 8)
  | 2 => w == 4
  | 3 | 4 => w == 6
  | 5 | 6 | 7 => w == 8
  | _ => false

/-- Is a 128-bit plane block header valid (R48)? -/
def planeHeaderOk (h : Nat) : Bool :=
  let w := h % 8 + 1
  let smode := bitOf h 7
  planeWidthOk (bitsOf h 6 3) w && bitsOf h 15 8 == 0 && bitsOf h 63 32 == 0 &&
    (if smode then bitsOf h 31 16 == 0 else bitsOf h 127 64 == 0)

/-- The decoded value of code `c` of a kind and width (Table 2.8). -/
def planeCode (kind w c : Nat) : FVal :=
  match kind with
  | 0 => let i := signedOf w c; .fin (decide (i < 0)) i.natAbs 0
  | 1 => finOf (2 * (c : Int) - ((2 ^ w : Nat) - 1 : Int)) (-1)
  | 2 => decodeFloat .fp4 c
  | 3 => decodeFloat .e2m3 c
  | 4 => decodeFloat .e3m2 c
  | 5 => decodeFloat .e4m3 c
  | 6 => decodeFloat .e5m2 c
  | 7 => let i := signedOf 8 c; .fin (decide (i < 0)) i.natAbs (-6)
  | _ => .nan

/-- The code of element `i` from the block's planes: plane p holds bit p (R45). -/
def planeElem (planes : List (List Byte)) (i : Nat) : Nat :=
  (planes.zipIdx.map (fun p => b2n (bitOf (leAt p.1 (i / 8) 1) (i % 8)) * 2 ^ p.2)).sum

/-- The scale that covers element `i` of a block with header `h` (R46). -/
def planeScale (h i : Nat) : FVal :=
  if bitOf h 7 then decodeE8M0 (bitsOf h (8 * (i / 32) + 71) (8 * (i / 32) + 64))
  else decodeFloat .bf16 (bitsOf h 31 16)

/-- The narrowest array format of a plane kind (Table 2.9). -/
def planeFormat (kind w : Nat) : Fmt :=
  match kind with
  | 2 => .fp4 | 3 => .e2m3 | 4 => .e3m2 | 5 => .e4m3 | 6 => .e5m2 | 7 => .int8
  | 0 => if w ≤ 5 then .e4m3 else .bf16
  | _ => if w ≤ 4 then .e4m3 else .bf16

/-- A fuller's sum for one plane block and one activation slice (R56): alignment to the largest exponent in a window of
24 significant bits with truncation, the exact sum, scaling, one rounding to FP32. -/
def fullerBlock (h : Nat) (planes : List (List Byte)) (acts : List FVal) : FVal :=
  if !planeHeaderOk h then .nan
  else
    let w := h % 8 + 1
    let kind := bitsOf h 6 3
    let top := acts.foldl (fun (a : Option Int) v => match v with
      | .fin _ m e => if m = 0 then a else some (match a with | none => floorLog m e | some b => max b (floorLog m e))
      | _ => a) none
    let trunc := fun (v : FVal) => match v, top with
      | .fin n m e, some t => if e < t - 23 then FVal.fin n (m / 2 ^ (t - 23 - e).toNat) (t - 23) else .fin n m e
      | v, _ => v
    let term := fun (p : FVal × Nat) =>
      let c := mulV (planeCode kind w (planeElem planes p.2)) (trunc p.1)
      if bitOf h 7 then mulV (planeScale h p.2) c else c
    let sum := (acts.zipIdx.map term).foldl addV (.fin false 0 0)
    ofF32 (encodeFloat .fp32 .rne true false (if bitOf h 7 then sum else mulV sum (planeScale h 0)))

end Sys2Proof.Machine
end

