-- ==== Sys2Proof/Machine/RegMap.lean ====
section
/-! DEFINITION. The register map (chapter 22): blocks and windows of BAR0, and every register's fields with access type and
reset value, transcribed from the field tables of the owning chapters. Reserved fields read as zero and ignore writes
(R6), so they are not listed. -/

namespace Sys2Proof.Machine

/-- Access types (Table 0.4). -/
inductive Acc where
  | rw | ro | w1c | w1s | wo | rc | rwl | wot
deriving DecidableEq, Repr

/-- A register field: bits [hi:lo], access type, reset value, and whether only the installer path writes it. -/
structure FieldDef where
  hi : Nat
  lo : Nat
  acc : Acc
  reset : Nat
  installer : Bool
deriving DecidableEq, Repr

/-- `count` like registers from offset `off` of a block or window, 8 bytes apart. -/
structure RegDef where
  off : Nat
  count : Nat
  name : String
  fields : List FieldDef
deriving DecidableEq, Repr

/-- Registers of GLB (Table 22.5). -/
def regsGlb : List RegDef :=
  [
  ⟨0x0, 1, "GLB_IDENT", [⟨15, 0, .ro, 2048, false⟩, ⟨23, 16, .ro, 161, false⟩, ⟨31, 24, .ro, 76, false⟩, ⟨47, 32, .ro, 0, false⟩]⟩,
  ⟨0x8, 1, "GLB_CAPS", [⟨8, 0, .ro, 0, false⟩, ⟨12, 9, .ro, 0, false⟩, ⟨15, 13, .ro, 0, false⟩, ⟨19, 16, .ro, 0, false⟩, ⟨22, 20, .ro, 0, false⟩, ⟨27, 23, .ro, 0, false⟩]⟩,
  ⟨0x200, 1, "GLB_RESET", [⟨1, 0, .wo, 0, false⟩, ⟨10, 2, .wo, 0, false⟩, ⟨11, 11, .wo, 0, false⟩]⟩,
  ⟨0x208, 1, "GLB_RESET_STATUS", [⟨2, 0, .ro, 0, false⟩, ⟨4, 3, .ro, 0, false⟩, ⟨13, 5, .ro, 0, false⟩, ⟨14, 14, .w1c, 0, false⟩, ⟨15, 15, .w1c, 0, false⟩, ⟨16, 16, .w1c, 0, false⟩, ⟨20, 17, .ro, 0, false⟩, ⟨32, 21, .ro, 0, false⟩, ⟨41, 33, .ro, 0, false⟩]⟩,
  ⟨0x210, 1, "GLB_BOOT_STATUS", [⟨3, 0, .ro, 1, false⟩, ⟨7, 4, .ro, 0, false⟩, ⟨8, 8, .ro, 0, false⟩, ⟨9, 9, .ro, 0, false⟩, ⟨11, 10, .ro, 0, false⟩, ⟨63, 32, .ro, 0, false⟩]⟩,
  ⟨0x300, 1, "GLB_LOCK", [⟨15, 0, .w1s, 0, false⟩]⟩,
  ⟨0x308, 1, "GLB_RECOVERY_ADDR", [⟨63, 0, .wo, 0, false⟩]⟩,
  ⟨0x400, 1, "GLB_TALLY_SEL", [⟨11, 0, .rw, 0, false⟩]⟩,
  ⟨0x408, 1, "GLB_TALLY_RANGE", [⟨9, 0, .rw, 0, false⟩, ⟨20, 10, .rw, 0, false⟩]⟩,
  ⟨0x410, 1, "GLB_TALLY_PEEK", [⟨15, 0, .rw, 0, false⟩]⟩,
  ⟨0x418, 1, "GLB_TALLY_VALUE", [⟨31, 0, .ro, 0, false⟩, ⟨32, 32, .ro, 0, false⟩, ⟨44, 33, .ro, 0, false⟩, ⟨45, 45, .ro, 0, false⟩, ⟨46, 46, .ro, 0, false⟩, ⟨47, 47, .ro, 0, false⟩]⟩,
  ⟨0x480, 1, "GLB_TALLY_SIGNALS", [⟨63, 0, .ro, 0, false⟩]⟩,
  ⟨0x488, 1, "GLB_TALLY_OVF", [⟨63, 0, .ro, 0, false⟩]⟩,
  ⟨0x490, 1, "GLB_ATOMICS", [⟨63, 0, .ro, 0, false⟩]⟩,
  ⟨0x498, 1, "GLB_REDUCE_ELEMS", [⟨63, 0, .ro, 0, false⟩]⟩,
  ⟨0x4A0, 1, "GLB_XLAT_MISS", [⟨63, 0, .ro, 0, false⟩]⟩,
  ⟨0x4A8, 1, "GLB_RESETS", [⟨63, 0, .ro, 0, false⟩]⟩,
  ⟨0x4B0, 1, "GLB_RESET_RETRIES", [⟨63, 0, .ro, 0, false⟩]⟩,
  ⟨0x4B8, 1, "GLB_DRAIN_TIMEOUTS", [⟨63, 0, .ro, 0, false⟩]⟩]

/-- Registers of BELL and SCHED (Table 22.6). -/
def regsBell : List RegDef :=
  [
  ⟨0x0, 1, "BELL_CONFIG", [⟨6, 0, .rw, 20, false⟩, ⟨14, 8, .rwl, 5, true⟩, ⟨22, 16, .rwl, 100, true⟩, ⟨39, 24, .rw, 5000, false⟩]⟩,
  ⟨0x8, 1, "BELL_STATUS", [⟨6, 0, .ro, 20, false⟩, ⟨22, 7, .ro, 5000, false⟩, ⟨23, 23, .ro, 0, false⟩]⟩,
  ⟨0x10, 1, "BELL_COUNT", [⟨63, 0, .ro, 0, false⟩]⟩,
  ⟨0x18, 1, "BELL_EARLY_SCAN", [⟨0, 0, .wo, 0, false⟩]⟩,
  ⟨0x20, 1, "SCHED_CONFIG", [⟨6, 0, .rw, 60, false⟩, ⟨13, 8, .rw, 5, false⟩, ⟨22, 16, .rw, 50, false⟩]⟩,
  ⟨0x28, 1, "SCHED_TSEL", [⟨11, 0, .rw, 0, false⟩]⟩,
  ⟨0x30, 1, "SCHED_TWEIGHT", [⟨7, 0, .rw, 16, false⟩]⟩,
  ⟨0x38, 1, "SCHED_STATUS", [⟨15, 0, .ro, 0, false⟩, ⟨31, 16, .ro, 0, false⟩, ⟨32, 32, .ro, 0, false⟩]⟩,
  ⟨0x100, 1, "SCHED_LC_TILES", [⟨63, 0, .ro, 0, false⟩]⟩,
  ⟨0x108, 1, "SCHED_BE_TILES", [⟨63, 0, .ro, 0, false⟩]⟩,
  ⟨0x110, 1, "SCHED_LC_DEFERRED", [⟨63, 0, .ro, 0, false⟩]⟩,
  ⟨0x118, 1, "SCHED_SHORT_BELLS", [⟨63, 0, .ro, 0, false⟩]⟩,
  ⟨0x120, 1, "SCHED_THERMAL_DENY", [⟨63, 0, .ro, 0, false⟩]⟩,
  ⟨0x128, 1, "SCHED_FIT_DENY", [⟨63, 0, .ro, 0, false⟩]⟩,
  ⟨0x130, 1, "SCHED_HOLD_USED", [⟨63, 0, .ro, 0, false⟩]⟩,
  ⟨0x138, 1, "SCHED_EARLY_SCANS", [⟨63, 0, .ro, 0, false⟩]⟩,
  ⟨0x140, 1, "SCHED_EARLY_MERGED", [⟨63, 0, .ro, 0, false⟩]⟩,
  ⟨0x148, 1, "SCHED_SHEET_HELD", [⟨63, 0, .ro, 0, false⟩]⟩,
  ⟨0x150, 1, "SCHED_PLAN_LATE", [⟨63, 0, .ro, 0, false⟩]⟩]

/-- Registers of HQ (Table 22.7). -/
def regsHq : List RegDef :=
  [
  ⟨0x0, 1, "HQ_DB_BASE", [⟨0, 0, .rw, 0, false⟩, ⟨63, 12, .rw, 0, false⟩]⟩,
  ⟨0x8, 1, "HQ_STATUS", [⟨12, 0, .ro, 0, false⟩, ⟨25, 13, .ro, 0, false⟩, ⟨26, 26, .ro, 0, false⟩, ⟨31, 27, .ro, 0, false⟩, ⟨34, 32, .ro, 0, false⟩]⟩,
  ⟨0x10, 1, "HQ_TSEL", [⟨12, 0, .rw, 0, false⟩]⟩,
  ⟨0x18, 1, "HQ_SQ", [⟨4, 0, .rw, 0, false⟩, ⟨63, 12, .rw, 0, false⟩]⟩,
  ⟨0x20, 1, "HQ_EQ", [⟨4, 0, .rw, 0, false⟩, ⟨63, 12, .rw, 0, false⟩]⟩,
  ⟨0x28, 1, "HQ_TCTL", [⟨19, 0, .rw, 0, false⟩, ⟨20, 20, .rw, 0, false⟩, ⟨21, 21, .ro, 0, false⟩, ⟨22, 22, .ro, 0, false⟩]⟩,
  ⟨0x30, 1, "HQ_TMEM", [⟨31, 0, .rw, 0, false⟩, ⟨63, 32, .ro, 0, false⟩]⟩,
  ⟨0x38, 1, "HQ_TCOUNT", [⟨31, 0, .ro, 0, false⟩, ⟨63, 32, .ro, 0, false⟩]⟩,
  ⟨0x100, 1, "HQ_SCANS", [⟨63, 0, .ro, 0, false⟩]⟩,
  ⟨0x108, 1, "HQ_SCAN_LATE", [⟨63, 0, .ro, 0, false⟩]⟩,
  ⟨0x110, 1, "HQ_ENTRIES", [⟨63, 0, .ro, 0, false⟩]⟩,
  ⟨0x118, 1, "HQ_EVENTS", [⟨63, 0, .ro, 0, false⟩]⟩,
  ⟨0x120, 1, "HQ_EV_STORED", [⟨63, 0, .ro, 0, false⟩]⟩,
  ⟨0x128, 1, "HQ_EV_MERGED", [⟨63, 0, .ro, 0, false⟩]⟩,
  ⟨0x130, 1, "HQ_EV_LOST", [⟨63, 0, .ro, 0, false⟩]⟩,
  ⟨0x138, 1, "HQ_MSIX", [⟨63, 0, .ro, 0, false⟩]⟩,
  ⟨0x140, 1, "HQ_RING_ERRORS", [⟨63, 0, .ro, 0, false⟩]⟩,
  ⟨0x148, 1, "HQ_HOST_ERRORS", [⟨63, 0, .ro, 0, false⟩]⟩,
  ⟨0x150, 1, "HQ_COPY_BYTES", [⟨63, 0, .ro, 0, false⟩]⟩]

/-- Registers of PWR (Table 22.8). -/
def regsPwr : List RegDef :=
  [
  ⟨0x0, 1, "PWR_ENVELOPE", [⟨6, 0, .rwl, 80, true⟩]⟩,
  ⟨0x8, 1, "PWR_GOV", [⟨4, 0, .rwl, 3, true⟩]⟩,
  ⟨0x10, 4, "PWR_CLK", [⟨5, 0, .rw, 12, false⟩, ⟨13, 8, .rw, 40, false⟩, ⟨21, 16, .ro, 40, false⟩, ⟨29, 24, .ro, 44, false⟩, ⟨37, 32, .ro, 12, false⟩, ⟨38, 38, .ro, 0, false⟩]⟩,
  ⟨0x30, 1, "PWR_STATUS", [⟨15, 0, .ro, 8000, false⟩, ⟨31, 16, .ro, 0, false⟩, ⟨47, 32, .ro, 0, false⟩, ⟨55, 48, .ro, 128, false⟩]⟩,
  ⟨0x38, 1, "PWR_BELL_ENERGY", [⟨31, 0, .ro, 0, false⟩, ⟨63, 32, .ro, 0, false⟩]⟩,
  ⟨0x100, 1, "PWR_ENERGY", [⟨63, 0, .ro, 0, false⟩]⟩,
  ⟨0x108, 1, "PWR_CHARGED", [⟨63, 0, .ro, 0, false⟩]⟩,
  ⟨0x110, 1, "PWR_CLAMP_BELLS", [⟨63, 0, .ro, 0, false⟩]⟩,
  ⟨0x118, 1, "PWR_OVER_BELLS", [⟨63, 0, .ro, 0, false⟩]⟩]

/-- Registers of THM (Table 22.9). -/
def regsThm : List RegDef :=
  [
  ⟨0x0, 1, "THM_CONFIG", [⟨7, 0, .rwl, 20, true⟩, ⟨31, 16, .rwl, 0, true⟩, ⟨47, 32, .rwl, 0, true⟩]⟩,
  ⟨0x8, 1, "THM_EXT_LIMIT_LO", [⟨7, 0, .rwl, 85, true⟩, ⟨15, 8, .rwl, 85, true⟩, ⟨23, 16, .rwl, 85, true⟩, ⟨31, 24, .rwl, 85, true⟩, ⟨39, 32, .rwl, 85, true⟩, ⟨47, 40, .rwl, 85, true⟩, ⟨55, 48, .rwl, 85, true⟩, ⟨63, 56, .rwl, 85, true⟩]⟩,
  ⟨0x10, 1, "THM_EXT_LIMIT_HI", [⟨7, 0, .rwl, 85, true⟩, ⟨15, 8, .rwl, 85, true⟩, ⟨23, 16, .rwl, 85, true⟩, ⟨31, 24, .rwl, 85, true⟩, ⟨39, 32, .rwl, 85, true⟩, ⟨47, 40, .rwl, 85, true⟩, ⟨55, 48, .rwl, 85, true⟩, ⟨63, 56, .rwl, 85, true⟩]⟩,
  ⟨0x18, 1, "THM_SEL", [⟨5, 0, .rw, 0, false⟩]⟩,
  ⟨0x20, 1, "THM_CHAN", [⟨15, 0, .ro, 0, false⟩, ⟨17, 16, .ro, 0, false⟩, ⟨19, 18, .ro, 0, false⟩, ⟨22, 20, .ro, 0, false⟩, ⟨39, 24, .rc, 32768, false⟩]⟩,
  ⟨0x28, 1, "THM_UNIT_STATUS", [⟨11, 0, .ro, 0, false⟩, ⟨23, 12, .ro, 0, false⟩, ⟨35, 24, .ro, 0, false⟩, ⟨39, 36, .ro, 0, false⟩, ⟨43, 40, .ro, 0, false⟩, ⟨47, 44, .ro, 0, false⟩]⟩,
  ⟨0x30, 1, "THM_EXT_STATUS", [⟨15, 0, .ro, 0, false⟩, ⟨31, 16, .ro, 0, false⟩, ⟨47, 32, .ro, 0, false⟩, ⟨63, 48, .ro, 0, false⟩]⟩,
  ⟨0x38, 1, "THM_FAIL", [⟨39, 0, .ro, 0, false⟩]⟩,
  ⟨0x40, 1, "THM_SHADOW_SEL", [⟨3, 0, .rw, 0, false⟩]⟩,
  ⟨0x48, 5, "THM_SHADOW", [⟨63, 0, .ro, 0, false⟩]⟩,
  ⟨0x70, 1, "THM_ALLOW", [⟨19, 0, .ro, 0, false⟩, ⟨39, 20, .ro, 0, false⟩, ⟨63, 40, .ro, 0, false⟩]⟩,
  ⟨0x78, 1, "THM_GATE", [⟨15, 0, .ro, 0, false⟩, ⟨16, 16, .ro, 0, false⟩, ⟨20, 17, .ro, 0, false⟩, ⟨27, 21, .ro, 0, false⟩]⟩,
  ⟨0x80, 1, "THM_TRIP", [⟨1, 0, .ro, 0, false⟩, ⟨7, 2, .ro, 0, false⟩, ⟨23, 8, .ro, 0, false⟩, ⟨24, 24, .ro, 0, false⟩, ⟨63, 32, .ro, 0, false⟩]⟩,
  ⟨0x100, 1, "THM_WARNINGS", [⟨63, 0, .ro, 0, false⟩]⟩,
  ⟨0x108, 1, "THM_SLOWDOWNS", [⟨63, 0, .ro, 0, false⟩]⟩,
  ⟨0x110, 1, "THM_ENF_BELLS", [⟨63, 0, .ro, 0, false⟩]⟩,
  ⟨0x118, 1, "THM_SENSOR_FAULTS", [⟨63, 0, .ro, 0, false⟩]⟩,
  ⟨0x120, 1, "THM_FLASH_DEFERRED", [⟨63, 0, .ro, 0, false⟩]⟩,
  ⟨0x128, 1, "THM_HELD_LOST", [⟨63, 0, .ro, 0, false⟩]⟩]

/-- Registers of PLC (Table 22.10). -/
def regsPlc : List RegDef :=
  [
  ⟨0x0, 1, "PLC_CONFIG", [⟨0, 0, .rw, 1, false⟩, ⟨1, 1, .rw, 1, false⟩, ⟨2, 2, .rw, 0, false⟩, ⟨12, 4, .rw, 40, false⟩, ⟨23, 16, .rw, 20, false⟩, ⟨31, 24, .rw, 100, false⟩, ⟨39, 32, .rw, 25, false⟩, ⟨42, 40, .rw, 3, false⟩, ⟨47, 43, .rw, 2, false⟩, ⟨63, 48, .rw, 500, false⟩]⟩,
  ⟨0x8, 1, "PLC_STATUS", [⟨16, 0, .ro, 0, false⟩, ⟨31, 20, .ro, 0, false⟩, ⟨43, 32, .ro, 0, false⟩, ⟨55, 44, .ro, 0, false⟩]⟩,
  ⟨0x10, 1, "PLC_MAP_SEL", [⟨23, 0, .rw, 0, false⟩]⟩,
  ⟨0x18, 1, "PLC_MAP_ENTRY", [⟨63, 0, .ro, 0, false⟩]⟩,
  ⟨0x20, 1, "PLC_STACK_SEL", [⟨3, 0, .rw, 0, false⟩]⟩,
  ⟨0x28, 1, "PLC_STACK_INFO", [⟨20, 0, .ro, 0, false⟩, ⟨41, 21, .ro, 0, false⟩, ⟨49, 42, .ro, 0, false⟩, ⟨52, 50, .ro, 0, false⟩]⟩,
  ⟨0x30, 1, "PLC_MODEL_SEL", [⟨11, 0, .rw, 0, false⟩]⟩,
  ⟨0x38, 1, "PLC_MODEL_CTL", [⟨0, 0, .rw, 0, false⟩, ⟨1, 1, .rw, 0, false⟩, ⟨2, 2, .rw, 0, false⟩]⟩,
  ⟨0x100, 1, "PLC_MIG_STARTED", [⟨63, 0, .ro, 0, false⟩]⟩,
  ⟨0x108, 1, "PLC_MIG_COMMITTED", [⟨63, 0, .ro, 0, false⟩]⟩,
  ⟨0x110, 1, "PLC_MIG_ABORTED", [⟨63, 0, .ro, 0, false⟩]⟩,
  ⟨0x118, 1, "PLC_MIG_BYTES", [⟨63, 0, .ro, 0, false⟩]⟩,
  ⟨0x120, 1, "PLC_SPLIT_CHANGES", [⟨63, 0, .ro, 0, false⟩]⟩,
  ⟨0x128, 1, "PLC_EARLY_CELLAR", [⟨63, 0, .ro, 0, false⟩]⟩,
  ⟨0x130, 1, "PLC_AHEAD_RECALL", [⟨63, 0, .ro, 0, false⟩]⟩,
  ⟨0x138, 1, "PLC_PIN_HOT_BELLS", [⟨63, 0, .ro, 0, false⟩]⟩,
  ⟨0x140, 1, "PLC_HINT_OVERRIDE", [⟨63, 0, .ro, 0, false⟩]⟩]

/-- Registers of OBK (Table 22.11). -/
def regsObk : List RegDef :=
  [
  ⟨0x0, 1, "OBK_CONFIG", [⟨16, 0, .rw, 3600, false⟩, ⟨31, 20, .rw, 1000, false⟩, ⟨32, 32, .rw, 1, false⟩]⟩,
  ⟨0x8, 1, "OBK_STATUS", [⟨16, 0, .ro, 65536, false⟩, ⟨33, 17, .ro, 0, false⟩, ⟨54, 34, .ro, 0, false⟩, ⟨55, 55, .ro, 0, false⟩]⟩,
  ⟨0x10, 1, "OBK_SEL", [⟨15, 0, .rw, 0, false⟩]⟩,
  ⟨0x18, 8, "OBK_ENTRY", [⟨63, 0, .ro, 0, false⟩]⟩,
  ⟨0x58, 1, "OBK_TQ_SEL", [⟨11, 0, .rw, 0, false⟩]⟩,
  ⟨0x60, 1, "OBK_TQ_ORDERS", [⟨16, 0, .rw, 0, false⟩, ⟨48, 32, .ro, 0, false⟩, ⟨63, 63, .rw, 0, false⟩]⟩,
  ⟨0x68, 1, "OBK_TQ_FRAMES", [⟨31, 0, .rw, 0, false⟩, ⟨63, 32, .ro, 0, false⟩]⟩,
  ⟨0x70, 1, "OBK_TQ_CELLAR", [⟨31, 0, .rw, 0, false⟩, ⟨63, 32, .ro, 0, false⟩]⟩,
  ⟨0x78, 1, "OBK_TQ_NODES", [⟨20, 0, .rw, 0, false⟩, ⟨52, 32, .ro, 0, false⟩]⟩,
  ⟨0x80, 1, "OBK_TIME", [⟨47, 0, .ro, 0, false⟩]⟩,
  ⟨0x100, 1, "OBK_OPENS", [⟨63, 0, .ro, 0, false⟩]⟩,
  ⟨0x108, 1, "OBK_REFUSED", [⟨63, 0, .ro, 0, false⟩]⟩,
  ⟨0x110, 1, "OBK_CELLARINGS", [⟨63, 0, .ro, 0, false⟩]⟩,
  ⟨0x118, 1, "OBK_RECALLS", [⟨63, 0, .ro, 0, false⟩]⟩,
  ⟨0x120, 1, "OBK_EXPIRED", [⟨63, 0, .ro, 0, false⟩]⟩,
  ⟨0x128, 1, "OBK_FAULTED", [⟨63, 0, .ro, 0, false⟩]⟩,
  ⟨0x130, 1, "OBK_CELLAR_OUT", [⟨63, 0, .ro, 0, false⟩]⟩,
  ⟨0x138, 1, "OBK_CELLAR_IN", [⟨63, 0, .ro, 0, false⟩]⟩,
  ⟨0x140, 1, "OBK_ATTACH_FRAMES", [⟨63, 0, .ro, 0, false⟩]⟩,
  ⟨0x148, 1, "OBK_NODES_RELEASED", [⟨63, 0, .ro, 0, false⟩]⟩,
  ⟨0x150, 1, "OBK_DEADLINE_MISS", [⟨63, 0, .ro, 0, false⟩]⟩,
  ⟨0x158, 1, "OBK_STALE", [⟨63, 0, .ro, 0, false⟩]⟩]

/-- Registers of TSL (Table 22.12). -/
def regsTsl : List RegDef :=
  [
  ⟨0x0, 1, "TSL_CONFIG", [⟨0, 0, .rw, 1, false⟩]⟩,
  ⟨0x8, 1, "TSL_STATUS", [⟨4, 0, .ro, 0, false⟩, ⟨20, 16, .ro, 0, false⟩, ⟨36, 32, .ro, 0, false⟩, ⟨52, 48, .ro, 0, false⟩, ⟨9, 5, .ro, 0, false⟩, ⟨25, 21, .ro, 0, false⟩, ⟨41, 37, .ro, 0, false⟩, ⟨57, 53, .ro, 0, false⟩, ⟨10, 10, .ro, 0, false⟩, ⟨26, 26, .ro, 0, false⟩, ⟨42, 42, .ro, 0, false⟩, ⟨58, 58, .ro, 0, false⟩]⟩,
  ⟨0x10, 1, "TSL_GRAMMARS", [⟨10, 0, .ro, 0, false⟩, ⟨32, 16, .ro, 0, false⟩]⟩,
  ⟨0x18, 1, "TSL_GSEL", [⟨9, 0, .rw, 0, false⟩]⟩,
  ⟨0x20, 1, "TSL_GINFO", [⟨11, 0, .ro, 0, false⟩, ⟨14, 12, .ro, 0, false⟩, ⟨32, 16, .ro, 0, false⟩, ⟨52, 33, .ro, 0, false⟩]⟩,
  ⟨0x100, 1, "TSL_SELECTIONS", [⟨63, 0, .ro, 0, false⟩]⟩,
  ⟨0x108, 1, "TSL_MASK_LATE", [⟨63, 0, .ro, 0, false⟩]⟩,
  ⟨0x110, 1, "TSL_MASK_LATE_SEL", [⟨63, 0, .ro, 0, false⟩]⟩,
  ⟨0x118, 1, "TSL_DEAD_END", [⟨63, 0, .ro, 0, false⟩]⟩,
  ⟨0x120, 1, "TSL_LOGIT_INVALID", [⟨63, 0, .ro, 0, false⟩]⟩,
  ⟨0x128, 1, "TSL_LIST_BAD", [⟨63, 0, .ro, 0, false⟩]⟩,
  ⟨0x130, 1, "TSL_TOPP_CLIP", [⟨63, 0, .ro, 0, false⟩]⟩,
  ⟨0x138, 1, "TSL_DEPTH_LIMIT", [⟨63, 0, .ro, 0, false⟩]⟩,
  ⟨0x140, 1, "TSL_DUP", [⟨63, 0, .ro, 0, false⟩]⟩,
  ⟨0x148, 1, "TSL_UNEXPECTED", [⟨63, 0, .ro, 0, false⟩]⟩]

/-- Registers of an STK window (Table 22.13). -/
def regsStk : List RegDef :=
  [
  ⟨0x0, 1, "STK_IDENT", [⟨3, 0, .ro, 0, false⟩, ⟨5, 4, .ro, 0, false⟩, ⟨7, 6, .ro, 2, false⟩, ⟨12, 8, .ro, 0, false⟩, ⟨22, 13, .ro, 0, false⟩]⟩,
  ⟨0x8, 1, "STK_CONFIG", [⟨5, 0, .rwl, 16, false⟩, ⟨15, 8, .rwl, 20, false⟩, ⟨21, 16, .rwl, 48, false⟩, ⟨27, 22, .rwl, 16, false⟩, ⟨28, 28, .rwl, 1, false⟩]⟩,
  ⟨0x10, 1, "STK_STATUS", [⟨2, 0, .ro, 0, false⟩, ⟨5, 4, .ro, 0, false⟩, ⟨15, 8, .ro, 0, false⟩, ⟨16, 16, .ro, 0, false⟩, ⟨31, 17, .ro, 0, false⟩]⟩,
  ⟨0x18, 1, "STK_FRAMES", [⟨20, 0, .ro, 0, false⟩, ⟨41, 21, .ro, 0, false⟩, ⟨62, 42, .ro, 0, false⟩]⟩,
  ⟨0x20, 1, "STK_INVOKE", [⟨7, 0, .ro, 0, false⟩, ⟨8, 8, .ro, 0, false⟩, ⟨9, 9, .ro, 0, false⟩, ⟨25, 10, .ro, 0, false⟩, ⟨37, 26, .ro, 0, false⟩, ⟨38, 38, .ro, 0, false⟩, ⟨44, 39, .ro, 0, false⟩]⟩,
  ⟨0x28, 1, "STK_WORK_FAULT", [⟨7, 0, .rc, 0, false⟩, ⟨11, 8, .rc, 0, false⟩, ⟨31, 16, .rc, 0, false⟩, ⟨39, 32, .rc, 0, false⟩, ⟨48, 40, .rc, 0, false⟩, ⟨49, 49, .rc, 0, false⟩, ⟨50, 50, .rc, 0, false⟩]⟩,
  ⟨0x30, 1, "STK_FULLER_FW", [⟨15, 0, .ro, 0, false⟩, ⟨47, 16, .ro, 0, false⟩, ⟨48, 48, .ro, 0, false⟩]⟩,
  ⟨0x1D0, 1, "STK_FMT_EVENTS", [⟨63, 0, .ro, 0, false⟩]⟩,
  ⟨0x100, 1, "STK_RD_SECTORS", [⟨63, 0, .ro, 0, false⟩]⟩,
  ⟨0x108, 1, "STK_WR_SECTORS", [⟨63, 0, .ro, 0, false⟩]⟩,
  ⟨0x110, 1, "STK_FULLER_SECTORS", [⟨63, 0, .ro, 0, false⟩]⟩,
  ⟨0x118, 1, "STK_ACTIVATES", [⟨63, 0, .ro, 0, false⟩]⟩,
  ⟨0x120, 1, "STK_RMW", [⟨63, 0, .ro, 0, false⟩]⟩,
  ⟨0x128, 1, "STK_COMBINED", [⟨63, 0, .ro, 0, false⟩]⟩,
  ⟨0x130, 1, "STK_ZERO_READS", [⟨63, 0, .ro, 0, false⟩]⟩,
  ⟨0x138, 1, "STK_VMAP_MISS", [⟨63, 0, .ro, 0, false⟩]⟩,
  ⟨0x140, 1, "STK_LC_READS", [⟨63, 0, .ro, 0, false⟩]⟩,
  ⟨0x148, 1, "STK_AGE_PROMOTE", [⟨63, 0, .ro, 0, false⟩]⟩,
  ⟨0x150, 1, "STK_QUEUE_FULL", [⟨63, 0, .ro, 0, false⟩]⟩,
  ⟨0x158, 1, "STK_REFRESH", [⟨63, 0, .ro, 0, false⟩]⟩,
  ⟨0x160, 1, "STK_THROTTLE_BELLS", [⟨63, 0, .ro, 0, false⟩]⟩,
  ⟨0x168, 1, "STK_POISON_UNWRITTEN", [⟨63, 0, .ro, 0, false⟩]⟩,
  ⟨0x170, 1, "STK_INVOKES", [⟨63, 0, .ro, 0, false⟩]⟩,
  ⟨0x178, 1, "STK_STOPS", [⟨63, 0, .ro, 0, false⟩]⟩]  ++
  [
  ⟨0x180, 1, "STK_FULLER_BUSY", [⟨63, 0, .ro, 0, false⟩]⟩,
  ⟨0x188, 1, "STK_HDR_WAIT", [⟨63, 0, .ro, 0, false⟩]⟩,
  ⟨0x190, 1, "STK_RELAY_SECTORS", [⟨63, 0, .ro, 0, false⟩]⟩,
  ⟨0x198, 1, "STK_APPENDS", [⟨63, 0, .ro, 0, false⟩]⟩,
  ⟨0x1A0, 1, "STK_FULLER_ECC", [⟨63, 0, .ro, 0, false⟩]⟩,
  ⟨0x1A8, 1, "STK_KV_ROWS", [⟨63, 0, .ro, 0, false⟩]⟩,
  ⟨0x1B0, 1, "STK_KV_READ_ROWS", [⟨63, 0, .ro, 0, false⟩]⟩,
  ⟨0x1B8, 1, "STK_KV_ALLOC", [⟨63, 0, .ro, 0, false⟩]⟩,
  ⟨0x1C0, 1, "STK_KV_FREED", [⟨63, 0, .ro, 0, false⟩]⟩,
  ⟨0x1C8, 1, "STK_KV_REFUSED", [⟨63, 0, .ro, 0, false⟩]⟩]

/-- Registers of a BLS window (Table 22.14). -/
def regsBls : List RegDef :=
  [
  ⟨0x0, 1, "BLS_PORT_CFG", [⟨0, 0, .rwl, 1, true⟩, ⟨1, 1, .rwl, 1, true⟩]⟩,
  ⟨0x8, 1, "BLS_PORT_STATUS", [⟨2, 0, .ro, 0, false⟩, ⟨11, 3, .ro, 0, false⟩, ⟨15, 12, .ro, 15, false⟩, ⟨27, 16, .ro, 0, false⟩, ⟨31, 28, .ro, 0, false⟩, ⟨47, 32, .ro, 0, false⟩]⟩,
  ⟨0x10, 1, "BLS_LANE_SEL", [⟨3, 0, .rw, 0, false⟩]⟩,
  ⟨0x18, 1, "BLS_LANE_STATUS", [⟨0, 0, .ro, 0, false⟩, ⟨1, 1, .ro, 0, false⟩, ⟨2, 2, .ro, 0, false⟩, ⟨3, 3, .ro, 0, false⟩, ⟨63, 32, .ro, 0, false⟩]⟩,
  ⟨0x20, 1, "BLS_ERR", [⟨4, 0, .rc, 0, false⟩, ⟨7, 5, .rc, 0, false⟩, ⟨19, 8, .rc, 0, false⟩, ⟨31, 20, .rc, 0, false⟩, ⟨32, 32, .rc, 0, false⟩, ⟨33, 33, .rc, 0, false⟩]⟩,
  ⟨0x8000, 1, "BLS_DEVID", [⟨11, 0, .rwl, 0, true⟩, ⟨27, 16, .ro, 0, false⟩]⟩,
  ⟨0x8008, 1, "BLS_CONFIG", [⟨11, 0, .rwl, 0, true⟩, ⟨31, 16, .rw, 1000, false⟩, ⟨39, 32, .rw, 10, false⟩]⟩,
  ⟨0x8010, 1, "BLS_ROUTE_SEL", [⟨11, 0, .rw, 0, false⟩]⟩,
  ⟨0x8018, 1, "BLS_ROUTE", [⟨15, 0, .rwl, 0, true⟩, ⟨19, 16, .rwl, 0, true⟩, ⟨47, 32, .ro, 0, false⟩]⟩,
  ⟨0x8020, 1, "BLS_GROUP_SEL", [⟨11, 0, .rw, 0, false⟩]⟩,
  ⟨0x8028, 1, "BLS_GROUP", [⟨11, 0, .rwl, 0, true⟩, ⟨27, 12, .rwl, 0, true⟩, ⟨39, 28, .ro, 0, false⟩, ⟨40, 40, .ro, 0, false⟩, ⟨41, 41, .rwl, 0, true⟩]⟩,
  ⟨0x8030, 1, "BLS_MEMBER_SEL", [⟨15, 0, .rw, 0, false⟩]⟩,
  ⟨0x8038, 1, "BLS_MEMBER", [⟨11, 0, .rwl, 0, true⟩]⟩,
  ⟨0x8040, 1, "BLS_BELL", [⟨47, 0, .ro, 0, false⟩, ⟨48, 48, .ro, 0, false⟩]⟩,
  ⟨0x100, 1, "BLS_TX_BEATS", [⟨63, 0, .ro, 0, false⟩]⟩,
  ⟨0x108, 1, "BLS_RX_BEATS", [⟨63, 0, .ro, 0, false⟩]⟩,
  ⟨0x110, 1, "BLS_TRANSIT_BEATS", [⟨63, 0, .ro, 0, false⟩]⟩,
  ⟨0x118, 1, "BLS_FEC_CORRECTED", [⟨63, 0, .ro, 0, false⟩]⟩,
  ⟨0x120, 1, "BLS_FEC_UNCORR", [⟨63, 0, .ro, 0, false⟩]⟩,
  ⟨0x128, 1, "BLS_REPLAYS", [⟨63, 0, .ro, 0, false⟩]⟩,
  ⟨0x130, 1, "BLS_LANE_SPARES", [⟨63, 0, .ro, 0, false⟩]⟩,
  ⟨0x138, 1, "BLS_ECRC_DROPS", [⟨63, 0, .ro, 0, false⟩]⟩,
  ⟨0x140, 1, "BLS_CREDIT_STALL", [⟨63, 0, .ro, 0, false⟩]⟩,
  ⟨0x148, 1, "BLS_BUSY_RX", [⟨63, 0, .ro, 0, false⟩]⟩]  ++
  [
  ⟨0x8100, 1, "BLS_REMOTE_READS", [⟨63, 0, .ro, 0, false⟩]⟩,
  ⟨0x8108, 1, "BLS_REMOTE_WRITES", [⟨63, 0, .ro, 0, false⟩]⟩,
  ⟨0x8110, 1, "BLS_REMOTE_ATOMICS", [⟨63, 0, .ro, 0, false⟩]⟩,
  ⟨0x8118, 1, "BLS_SIGNALS_RELAYED", [⟨63, 0, .ro, 0, false⟩]⟩,
  ⟨0x8120, 1, "BLS_COLLECTIVES", [⟨63, 0, .ro, 0, false⟩]⟩,
  ⟨0x8128, 1, "BLS_BUSY_SENT", [⟨63, 0, .ro, 0, false⟩]⟩,
  ⟨0x8130, 1, "BLS_LOST", [⟨63, 0, .ro, 0, false⟩]⟩]

/-- Registers of FAR (Table 22.15). -/
def regsFar : List RegDef :=
  [
  ⟨0x0, 4, "FAR_CFG", [⟨0, 0, .rwl, 0, true⟩]⟩,
  ⟨0x20, 4, "FAR_STATUS", [⟨2, 0, .ro, 0, false⟩, ⟨7, 3, .ro, 0, false⟩, ⟨10, 8, .ro, 0, false⟩, ⟨38, 12, .ro, 0, false⟩]⟩,
  ⟨0x40, 4, "FAR_POOL", [⟨1, 0, .rwl, 0, true⟩, ⟨2, 2, .rwl, 0, true⟩, ⟨29, 3, .rwl, 0, true⟩, ⟨56, 30, .rwl, 0, true⟩]⟩,
  ⟨0x60, 1, "FAR_POOL_STATUS", [⟨2, 0, .ro, 0, false⟩, ⟨3, 3, .ro, 0, false⟩, ⟨32, 4, .ro, 0, false⟩]⟩,
  ⟨0x100, 1, "FAR_RD_BYTES0", [⟨63, 0, .ro, 0, false⟩]⟩,
  ⟨0x120, 1, "FAR_RD_BYTES1", [⟨63, 0, .ro, 0, false⟩]⟩,
  ⟨0x140, 1, "FAR_RD_BYTES2", [⟨63, 0, .ro, 0, false⟩]⟩,
  ⟨0x160, 1, "FAR_RD_BYTES3", [⟨63, 0, .ro, 0, false⟩]⟩,
  ⟨0x108, 1, "FAR_WR_BYTES0", [⟨63, 0, .ro, 0, false⟩]⟩,
  ⟨0x128, 1, "FAR_WR_BYTES1", [⟨63, 0, .ro, 0, false⟩]⟩,
  ⟨0x148, 1, "FAR_WR_BYTES2", [⟨63, 0, .ro, 0, false⟩]⟩,
  ⟨0x168, 1, "FAR_WR_BYTES3", [⟨63, 0, .ro, 0, false⟩]⟩,
  ⟨0x110, 1, "FAR_POISON0", [⟨63, 0, .ro, 0, false⟩]⟩,
  ⟨0x130, 1, "FAR_POISON1", [⟨63, 0, .ro, 0, false⟩]⟩,
  ⟨0x150, 1, "FAR_POISON2", [⟨63, 0, .ro, 0, false⟩]⟩,
  ⟨0x170, 1, "FAR_POISON3", [⟨63, 0, .ro, 0, false⟩]⟩,
  ⟨0x118, 1, "FAR_LINK_EVENTS0", [⟨63, 0, .ro, 0, false⟩]⟩,
  ⟨0x138, 1, "FAR_LINK_EVENTS1", [⟨63, 0, .ro, 0, false⟩]⟩,
  ⟨0x158, 1, "FAR_LINK_EVENTS2", [⟨63, 0, .ro, 0, false⟩]⟩,
  ⟨0x178, 1, "FAR_LINK_EVENTS3", [⟨63, 0, .ro, 0, false⟩]⟩]

/-- Registers of RAS (Table 22.16). -/
def regsRas : List RegDef :=
  [
  ⟨0x0, 1, "RAS_CONFIG", [⟨7, 0, .rw, 8, false⟩, ⟨15, 8, .rw, 10, false⟩, ⟨16, 16, .rw, 1, false⟩, ⟨17, 17, .rw, 1, false⟩]⟩,
  ⟨0x8, 1, "RAS_SCRUB_START", [⟨23, 0, .rw, 0, false⟩]⟩,
  ⟨0x10, 1, "RAS_SCRUB_COUNT", [⟨24, 0, .rw, 0, false⟩]⟩,
  ⟨0x18, 1, "RAS_SCRUB_CTL", [⟨0, 0, .wo, 0, false⟩, ⟨1, 1, .wo, 0, false⟩, ⟨2, 2, .ro, 0, false⟩, ⟨39, 8, .ro, 0, false⟩]⟩,
  ⟨0x20, 1, "RAS_SCRUB_SUM0", [⟨39, 0, .ro, 0, false⟩, ⟨63, 40, .ro, 0, false⟩]⟩,
  ⟨0x28, 1, "RAS_SCRUB_SUM1", [⟨39, 0, .ro, 0, false⟩, ⟨63, 40, .ro, 0, false⟩]⟩,
  ⟨0x30, 1, "RAS_SCRUB_SUM2", [⟨31, 0, .ro, 0, false⟩, ⟨55, 32, .ro, 0, false⟩, ⟨63, 56, .ro, 0, false⟩]⟩,
  ⟨0x38, 1, "RAS_SCRUB_SUM3", [⟨15, 0, .ro, 0, false⟩, ⟨31, 16, .ro, 0, false⟩, ⟨47, 32, .ro, 0, false⟩, ⟨63, 48, .ro, 0, false⟩]⟩,
  ⟨0x40, 1, "RAS_SCRUB_SUM4", [⟨47, 0, .ro, 0, false⟩, ⟨49, 48, .ro, 0, false⟩]⟩,
  ⟨0x48, 1, "RAS_REMAP_SEL", [⟨3, 0, .rw, 0, false⟩, ⟨7, 4, .rw, 0, false⟩, ⟨13, 8, .rw, 0, false⟩]⟩,
  ⟨0x50, 1, "RAS_REMAP", [⟨3, 0, .ro, 0, false⟩, ⟨7, 4, .ro, 0, false⟩, ⟨11, 8, .ro, 0, false⟩, ⟨15, 12, .ro, 0, false⟩, ⟨27, 16, .ro, 0, false⟩]⟩,
  ⟨0x58, 1, "RAS_FAR_RETIRE", [⟨1, 0, .wo, 0, false⟩, ⟨28, 2, .wo, 0, false⟩]⟩,
  ⟨0x60, 1, "RAS_FAR_RETIRED", [⟨12, 0, .ro, 0, false⟩, ⟨25, 13, .ro, 0, false⟩, ⟨38, 26, .ro, 0, false⟩, ⟨51, 39, .ro, 0, false⟩]⟩,
  ⟨0x68, 1, "RAS_LOG_STATUS", [⟨31, 0, .ro, 0, false⟩, ⟨44, 32, .ro, 0, false⟩, ⟨45, 45, .ro, 0, false⟩, ⟨62, 46, .ro, 0, false⟩, ⟨63, 63, .ro, 0, false⟩]⟩,
  ⟨0x70, 1, "RAS_LOG_SEL", [⟨31, 0, .rw, 0, false⟩, ⟨32, 32, .rw, 0, false⟩]⟩,
  ⟨0x78, 8, "RAS_LOG", [⟨63, 0, .ro, 0, false⟩]⟩,
  ⟨0x100, 1, "RAS_CE_STACK", [⟨63, 0, .ro, 0, false⟩]⟩,
  ⟨0x108, 1, "RAS_UE_STACK", [⟨63, 0, .ro, 0, false⟩]⟩,
  ⟨0x110, 1, "RAS_CE_SRAM", [⟨63, 0, .ro, 0, false⟩]⟩,
  ⟨0x118, 1, "RAS_UE_SRAM", [⟨63, 0, .ro, 0, false⟩]⟩,
  ⟨0x120, 1, "RAS_POISON_READS", [⟨63, 0, .ro, 0, false⟩]⟩,
  ⟨0x128, 1, "RAS_REMAPS", [⟨63, 0, .ro, 0, false⟩]⟩,
  ⟨0x130, 1, "RAS_LINE_SIGS", [⟨63, 0, .ro, 0, false⟩]⟩,
  ⟨0x138, 1, "RAS_FRAMES_RETIRED", [⟨63, 0, .ro, 0, false⟩]⟩]  ++
  [
  ⟨0x140, 1, "RAS_UNITS_SPARED", [⟨63, 0, .ro, 0, false⟩]⟩,
  ⟨0x148, 1, "RAS_UNITS_ABSENT", [⟨63, 0, .ro, 0, false⟩]⟩,
  ⟨0x150, 1, "RAS_DISAGREE", [⟨63, 0, .ro, 0, false⟩]⟩,
  ⟨0x158, 1, "RAS_META_CORRECTED", [⟨63, 0, .ro, 0, false⟩]⟩,
  ⟨0x160, 1, "RAS_LOG_LOST", [⟨63, 0, .ro, 0, false⟩]⟩]

/-- Registers of STW and BBD (Table 22.17). -/
def regsStw : List RegDef :=
  [
  ⟨0x0, 1, "STW_STATUS", [⟨7, 0, .ro, 0, false⟩, ⟨15, 8, .ro, 0, false⟩, ⟨23, 16, .ro, 0, false⟩, ⟨26, 24, .ro, 0, false⟩]⟩,
  ⟨0x8, 1, "STW_LOCK_SEL", [⟨7, 0, .rw, 0, false⟩]⟩,
  ⟨0x10, 1, "STW_LOCK_STATUS", [⟨31, 0, .ro, 0, false⟩, ⟨38, 32, .ro, 0, false⟩, ⟨42, 39, .ro, 15, false⟩]⟩,
  ⟨0x18, 1, "DBG_CTL", [⟨0, 0, .rw, 0, false⟩, ⟨3, 1, .rw, 0, false⟩]⟩,
  ⟨0x1000, 16, "BBD_PEND", [⟨63, 0, .rw, 0, false⟩]⟩,
  ⟨0x1080, 16, "BBD_ACTIVE", [⟨63, 0, .ro, 0, false⟩]⟩,
  ⟨0x1100, 128, "BBD_ENABLE", [⟨63, 0, .rw, 0, false⟩]⟩,
  ⟨0x1800, 128, "BBD_TARGET", [⟨7, 0, .rw, 0, false⟩, ⟨15, 8, .rw, 0, false⟩, ⟨23, 16, .rw, 0, false⟩, ⟨31, 24, .rw, 0, false⟩, ⟨39, 32, .rw, 0, false⟩, ⟨47, 40, .rw, 0, false⟩, ⟨55, 48, .rw, 0, false⟩, ⟨63, 56, .rw, 0, false⟩]⟩,
  ⟨0x2000, 1024, "BBD_CLAIM", [⟨9, 0, .rc, 1023, false⟩]⟩,
  ⟨0x4000, 1, "BBD_COMPLETE", [⟨9, 0, .wo, 0, false⟩]⟩,
  ⟨0x100, 1, "STW_LOCK_BROKEN", [⟨63, 0, .ro, 0, false⟩]⟩,
  ⟨0x108, 1, "STW_RESTARTS", [⟨63, 0, .ro, 0, false⟩]⟩,
  ⟨0x110, 1, "BBD_COMPLETE_IGNORED", [⟨63, 0, .ro, 0, false⟩]⟩,
  ⟨0x118, 1, "BBD_SPURIOUS", [⟨63, 0, .ro, 0, false⟩]⟩,
  ⟨0x120, 1, "BBD_WAKES", [⟨63, 0, .ro, 0, false⟩]⟩]

/-- Registers of ROLE (Table 22.18). -/
def regsRole : List RegDef :=
  [
  ⟨0x0, 1, "ROLE_SESSION", [⟨1, 0, .ro, 0, false⟩, ⟨3, 2, .ro, 0, false⟩, ⟨5, 4, .ro, 0, false⟩, ⟨15, 8, .ro, 0, false⟩, ⟨47, 16, .ro, 0, false⟩]⟩,
  ⟨0x8, 1, "ROLE_CMD", [⟨3, 0, .wo, 0, false⟩, ⟨19, 4, .wo, 0, false⟩, ⟨22, 20, .wo, 0, false⟩]⟩,
  ⟨0x10, 1, "ROLE_ARG", [⟨63, 0, .rw, 0, false⟩]⟩,
  ⟨0x18, 6, "ROLE_CHALLENGE", [⟨63, 0, .ro, 0, false⟩]⟩,
  ⟨0x48, 1, "ROLE_RESULT", [⟨3, 0, .ro, 0, false⟩, ⟨4, 4, .ro, 0, false⟩]⟩,
  ⟨0x50, 1, "ROLE_CERT_FLOOR", [⟨31, 0, .rwl, 0, true⟩]⟩,
  ⟨0x58, 1, "ROLE_DEVICE_SERIAL", [⟨63, 0, .ro, 0, false⟩]⟩,
  ⟨0x60, 1, "ROLE_SITE", [⟨31, 0, .wot, 0, true⟩]⟩,
  ⟨0x68, 1, "ROLE_AUDIT_STATUS", [⟨31, 0, .ro, 0, false⟩, ⟨46, 32, .ro, 0, false⟩, ⟨53, 47, .ro, 0, false⟩]⟩,
  ⟨0x70, 1, "ROLE_AUDIT_SEL", [⟨31, 0, .rw, 0, false⟩]⟩,
  ⟨0x78, 8, "ROLE_AUDIT", [⟨63, 0, .ro, 0, false⟩]⟩,
  ⟨0x400, 128, "ROLE_BUF", [⟨63, 0, .rw, 0, false⟩]⟩,
  ⟨0x100, 1, "ROLE_SESSIONS", [⟨63, 0, .ro, 0, false⟩]⟩,
  ⟨0x108, 1, "ROLE_AUTH_FAIL", [⟨63, 0, .ro, 0, false⟩]⟩,
  ⟨0x110, 1, "ROLE_AUDIT_LOST", [⟨63, 0, .ro, 0, false⟩]⟩]

/-- Registers of STAT (Table 22.19). -/
def regsStat : List RegDef :=
  [
  ⟨0x0, 1, "STAT_CTL", [⟨0, 0, .rw, 1, false⟩, ⟨1, 1, .rw, 0, false⟩, ⟨15, 8, .rw, 1, false⟩]⟩,
  ⟨0x8, 1, "STAT_LEDGER", [⟨31, 0, .ro, 0, false⟩, ⟨32, 32, .ro, 0, false⟩, ⟨48, 33, .ro, 0, false⟩, ⟨55, 49, .ro, 0, false⟩, ⟨56, 56, .ro, 0, false⟩]⟩,
  ⟨0x10, 1, "STAT_LEDGER_TIME", [⟨47, 0, .ro, 0, false⟩]⟩,
  ⟨0x18, 5, "STAT_PARTIAL_SHOP", [⟨63, 0, .ro, 0, false⟩]⟩,
  ⟨0x40, 1, "STAT_PARTIAL", [⟨11, 0, .ro, 0, false⟩, ⟨15, 12, .ro, 0, false⟩, ⟨19, 16, .ro, 0, false⟩]⟩,
  ⟨0x48, 1, "STAT_TSEL", [⟨11, 0, .rw, 0, false⟩]⟩,
  ⟨0x50, 10, "STAT_TVAL", [⟨63, 0, .ro, 0, false⟩]⟩,
  ⟨0xA0, 1, "STAT_BSEL", [⟨3, 0, .rw, 0, false⟩, ⟨12, 4, .rw, 0, false⟩]⟩,
  ⟨0xA8, 1, "STAT_BELL_SEQ", [⟨63, 0, .ro, 0, false⟩]⟩,
  ⟨0xB0, 4, "STAT_BVAL", [⟨63, 0, .ro, 0, false⟩]⟩,
  ⟨0x100, 1, "STAT_DEV_RECORDS", [⟨63, 0, .ro, 0, false⟩]⟩,
  ⟨0x108, 1, "STAT_TEN_RECORDS", [⟨63, 0, .ro, 0, false⟩]⟩,
  ⟨0x110, 1, "STAT_SNAPSHOTS", [⟨63, 0, .ro, 0, false⟩]⟩]

/-- Registers of a SHOP window (Table 22.20). -/
def regsShop : List RegDef :=
  [
  ⟨0x0, 1, "SHOP_IDENT", [⟨8, 0, .ro, 0, false⟩, ⟨17, 9, .ro, 0, false⟩, ⟨19, 18, .ro, 0, false⟩, ⟨23, 20, .ro, 0, false⟩, ⟨25, 24, .ro, 2, false⟩]⟩,
  ⟨0x8, 1, "SHOP_ARRAY_MAP", [⟨2, 0, .ro, 0, false⟩, ⟨6, 4, .ro, 0, false⟩, ⟨10, 8, .ro, 0, false⟩, ⟨14, 12, .ro, 0, false⟩, ⟨23, 16, .ro, 255, false⟩, ⟨31, 24, .ro, 255, false⟩]⟩,
  ⟨0x10, 1, "SHOP_CHECK_STATUS", [⟨15, 0, .rc, 0, false⟩, ⟨23, 16, .rc, 0, false⟩, ⟨31, 24, .rc, 0, false⟩, ⟨32, 32, .ro, 0, false⟩]⟩,
  ⟨0x18, 1, "SHOP_BENCH_MAP", [⟨4, 0, .ro, 0, false⟩, ⟨13, 5, .ro, 0, false⟩, ⟨22, 14, .ro, 511, false⟩]⟩,
  ⟨0x20, 1, "SHOP_BENCH_FAULT", [⟨3, 0, .rc, 0, false⟩, ⟨11, 4, .rc, 0, false⟩, ⟨23, 12, .rc, 0, false⟩, ⟨39, 24, .rc, 0, false⟩, ⟨40, 40, .rc, 0, false⟩, ⟨41, 41, .rc, 0, false⟩]⟩,
  ⟨0x28, 1, "SHOP_BENCH_FW", [⟨15, 0, .ro, 0, false⟩, ⟨47, 16, .ro, 0, false⟩, ⟨48, 48, .ro, 0, false⟩]⟩,
  ⟨0x30, 1, "SHOP_BENCH_RESET", [⟨8, 0, .wo, 0, false⟩]⟩,
  ⟨0x38, 1, "SHOP_SHEET_STATUS", [⟨1, 0, .ro, 0, false⟩, ⟨3, 2, .ro, 0, false⟩, ⟨19, 4, .ro, 0, false⟩, ⟨35, 20, .ro, 0, false⟩, ⟨40, 36, .ro, 0, false⟩, ⟨45, 41, .ro, 0, false⟩, ⟨47, 46, .ro, 0, false⟩]⟩,
  ⟨0x40, 1, "SHOP_WORK_FAULT", [⟨7, 0, .rc, 0, false⟩, ⟨11, 8, .rc, 0, false⟩, ⟨14, 12, .rc, 0, false⟩, ⟨31, 16, .rc, 0, false⟩, ⟨36, 32, .rc, 0, false⟩, ⟨52, 37, .rc, 0, false⟩, ⟨53, 53, .rc, 0, false⟩, ⟨54, 54, .rc, 0, false⟩]⟩,
  ⟨0x48, 1, "SHOP_QUEUE_DEPTH", [⟨9, 0, .ro, 0, false⟩, ⟨19, 10, .ro, 0, false⟩, ⟨29, 20, .ro, 0, false⟩, ⟨39, 30, .ro, 0, false⟩, ⟨49, 40, .ro, 0, false⟩]⟩,
  ⟨0x198, 1, "SHOP_FMT_EVENTS", [⟨63, 0, .ro, 0, false⟩]⟩,
  ⟨0x1A0, 1, "SHOP_INT_SAT", [⟨63, 0, .ro, 0, false⟩]⟩,
  ⟨0x100, 1, "SHOP_ARRAY_SLOTS", [⟨63, 0, .ro, 0, false⟩]⟩,
  ⟨0x108, 1, "SHOP_FREEZE_FEED", [⟨63, 0, .ro, 0, false⟩]⟩,
  ⟨0x110, 1, "SHOP_FREEZE_DRAIN", [⟨63, 0, .ro, 0, false⟩]⟩,
  ⟨0x118, 1, "SHOP_FREEZE_LONG", [⟨63, 0, .ro, 0, false⟩]⟩,
  ⟨0x120, 1, "SHOP_RELOAD_STALL", [⟨63, 0, .ro, 0, false⟩]⟩,
  ⟨0x128, 1, "SHOP_PASSES", [⟨63, 0, .ro, 0, false⟩]⟩,
  ⟨0x130, 1, "SHOP_REPLAYS", [⟨63, 0, .ro, 0, false⟩]⟩,
  ⟨0x138, 1, "SHOP_BENCH_ISSUE", [⟨63, 0, .ro, 0, false⟩]⟩,
  ⟨0x140, 1, "SHOP_BENCH_STALL_MEM", [⟨63, 0, .ro, 0, false⟩]⟩,
  ⟨0x148, 1, "SHOP_BENCH_FAULTS", [⟨63, 0, .ro, 0, false⟩]⟩,
  ⟨0x150, 1, "SHOP_BENCH_ECC", [⟨63, 0, .ro, 0, false⟩]⟩,
  ⟨0x158, 1, "SHOP_TILES", [⟨63, 0, .ro, 0, false⟩]⟩]  ++
  [
  ⟨0x160, 1, "SHOP_PREEMPT", [⟨63, 0, .ro, 0, false⟩]⟩,
  ⟨0x168, 1, "SHOP_TICKETS", [⟨63, 0, .ro, 0, false⟩]⟩,
  ⟨0x170, 1, "SHOP_WORK_FAULTS", [⟨63, 0, .ro, 0, false⟩]⟩,
  ⟨0x178, 1, "SHOP_EMIT_STALL", [⟨63, 0, .ro, 0, false⟩]⟩,
  ⟨0x180, 1, "SHOP_WATCHDOG", [⟨63, 0, .ro, 0, false⟩]⟩,
  ⟨0x188, 1, "SHOP_XFORM_OOB", [⟨63, 0, .ro, 0, false⟩]⟩,
  ⟨0x190, 1, "SHOP_XFORM_BUSY", [⟨63, 0, .ro, 0, false⟩]⟩]

/-- Registers of a VF BAR0 (Table 22.21). -/
def regsVf : List RegDef :=
  [
  ⟨0x0, 1, "HQ_VF_STATUS", [⟨11, 0, .ro, 0, false⟩, ⟨12, 12, .ro, 0, false⟩, ⟨13, 13, .ro, 0, false⟩, ⟨14, 14, .ro, 0, false⟩, ⟨15, 15, .ro, 0, false⟩, ⟨16, 16, .w1c, 0, false⟩, ⟨17, 17, .w1c, 0, false⟩]⟩,
  ⟨0x8, 1, "HQ_VF_RINGS", [⟨31, 0, .ro, 0, false⟩, ⟨63, 32, .ro, 0, false⟩]⟩,
  ⟨0x10, 1, "HQ_VF_EVLOST", [⟨31, 0, .rc, 0, false⟩]⟩,
  ⟨0x18, 1, "VF_BELL_EARLY_SCAN", [⟨63, 0, .wo, 0, false⟩]⟩]

/-- The register list of a block, by its GLB_LOCK bit (Table 22.1); 16 is a virtual function's BAR0. -/
def blockRegs : Nat → List RegDef
  | 0 => regsGlb | 1 => regsBell | 2 => regsHq | 3 => regsPwr | 4 => regsThm | 5 => regsPlc | 6 => regsObk
  | 7 => regsTsl | 8 => regsStk | 9 => regsBls | 10 => regsFar | 11 => regsRas | 12 => regsStw | 13 => regsRole
  | 14 => regsStat | 15 => regsShop | 16 => regsVf | _ => []

/-- Where an offset of the physical function's BAR0 lies: its block (lock bit), its window, and the offset within the
block or window; none in the unused ranges (R557, Table 22.1). -/
def locate (off : Nat) : Option (Nat × Nat × Nat) :=
  if off < 0x800000 then some (off / 0x100000, 0, off % 0x100000)
  else if off < 0x8C0000 then some (8, (off - 0x800000) / 0x10000, off % 0x10000)
  else if off < 0x1000000 then none
  else if off < 0x1100000 then some (9, (off - 0x1000000) / 0x10000, off % 0x10000)
  else if off < 0x1200000 then none
  else if off < 0x1400000 then some (10, 0, off - 0x1200000)
  else if off < 0x1600000 then some (11, 0, off - 0x1400000)
  else if off < 0x1800000 then some (12, 0, off - 0x1600000)
  else if off < 0x1A00000 then some (13, 0, off - 0x1800000)
  else if off < 0x2000000 then some (14, 0, off - 0x1A00000)
  else if off < 0x3400000 then some (15, (off - 0x2000000) / 0x10000, off % 0x10000)
  else none

/-- The base of a block's window in BAR0. -/
def blockBase (blk win : Nat) : Nat :=
  match blk with
  | 8 => 0x800000 + win * 0x10000
  | 9 => 0x1000000 + win * 0x10000
  | 10 => 0x1200000
  | 11 => 0x1400000
  | 12 => 0x1600000
  | 13 => 0x1800000
  | 14 => 0x1A00000
  | 15 => 0x2000000 + win * 0x10000
  | b => b * 0x100000

/-- The register that holds an offset of a block (aligned down to 8 bytes). The device-wide BLS registers exist only in
the window of B0 (R558). -/
def findReg (blk win o : Nat) : Option RegDef :=
  if blk = 9 ∧ win ≠ 0 ∧ o ≥ 0x8000 then none
  else (blockRegs blk).find? (fun r => decide (r.off ≤ o / 8 * 8 ∧ o / 8 * 8 < r.off + 8 * r.count))

/-- A register's fields as a word of reset values. -/
def fieldsReset (l : List FieldDef) : Nat := (l.map (fun f => f.reset % 2 ^ (f.hi + 1 - f.lo) * 2 ^ f.lo)).sum

/-- The reset value of the register at a PF BAR0 offset; zero where none lies (R560). -/
def resetAt (off : Nat) : Nat :=
  match locate off with
  | none => 0
  | some (b, w, o) => match findReg b w o with
    | none => 0
    | some r => fieldsReset r.fields

end Sys2Proof.Machine
end

