-- ==== Sys2Proof/Machine/State.lean ====
section
/-! DEFINITION. The state of the KW800, the reasons a step can stop, and the state after reset. -/

namespace Sys2Proof.Machine

/-- Reasons for a fault: none. Every row has an effect in the spec in every state, and a condition that the spec does not meet leaves the state as it is
(log entry 10, DESIGN CHOICE), so no meaning faults. -/
inductive Fault where
deriving DecidableEq, Repr

/-- Reasons for a refusal. -/
inductive Refusal where
  /-- Raised by the dispatcher for a row without a meaning; safe. No row of this model is left without one. -/
  | notModelled (mnemonic : String)
deriving DecidableEq, Repr

/-- Everything the spec gives the KW800, as plain data, and the queue of waiting commands. -/
structure State where
  /-- Time since power was applied, ns: the latest time that a command has carried. -/
  now : Nat
  /-- BELL_COUNT of the running bell (R318). -/
  bell : Nat
  /-- READY (R502). -/
  ready : Bool
  /-- The model's own: how many free values have been taken (log entry 2, DESIGN CHOICE). -/
  freeCtr : Nat
  /-- Registers, live and latched counters, and what the last read returned. -/
  regs : RegSt
  /-- Device memory, its status, the placement map and the translations. -/
  mem : MemSt
  /-- The twelve active stacks (chapter 7). -/
  stks : Tbl StackSt
  /-- The host port and the ring sets (chapter 17). -/
  host : HostSt
  /-- Tallies (chapter 15). -/
  tal : TallySt
  /-- Error logs, repair, scrub (chapter 18). -/
  ras : RasSt
  /-- Statistics (chapter 21). -/
  stat : StatSt
  /-- The 320 logical shops (chapters 3 and 5). -/
  shops : Tbl ShopSt
  /-- Bench cores, keyed shop × 256 + bench (chapter 4). -/
  benches : Tbl BenchSt
  /-- Bells, scheduler and power governor (chapter 13). -/
  sched : SchedSt
  /-- The order book, models, cellar (chapter 10). -/
  book : BookSt
  /-- The four token selectors (chapter 11). -/
  selectors : Tbl SelSt
  /-- Grammars (chapter 11). -/
  grammars : Tbl (Option GrammarRec)
  /-- Fuller side of the stack controllers (chapter 8). -/
  fulStacks : Tbl FulStackSt
  /-- Logical fullers, keyed stack × 512 + fuller (chapter 8). -/
  fullers : Tbl FullerSt
  /-- Balis ports, routes, collectives (chapter 16). -/
  bal : BalisSt
  /-- Temperatures, trip and flash window (chapter 14). -/
  therm : ThermSt
  /-- Host commands that run over several bells (chapter 17). -/
  jobs : JobSt
  /-- Bring-up, resets, stewards, bellboard, locks, roles, JTAG, sideband (chapters 19, 20 and 23). -/
  sys : SysSt
  /-- Commands waiting, first in first out. -/
  pending : List Instr
deriving DecidableEq, Repr

/-- The KW800 right after a whole-device reset with power present and SYS_RST_N still asserted (R515, R571): registers at their reset values, memory with
nothing listed, no work, no commands. -/
def State.reset : State where
  now := 0
  bell := 0
  ready := false
  freeCtr := 0
  regs := RegSt.reset
  mem := MemSt.reset
  stks := []
  host := HostSt.reset
  tal := TallySt.reset
  ras := RasSt.reset
  stat := StatSt.reset
  shops := []
  benches := []
  sched := SchedSt.reset
  book := BookSt.reset
  selectors := []
  grammars := []
  fulStacks := []
  fullers := []
  bal := BalisSt.reset
  therm := ThermSt.reset
  jobs := JobSt.reset
  sys := SysSt.reset
  pending := []

end Sys2Proof.Machine
end

