-- ==== Sys2Proof/Machine/Ops.lean ====
section
/-! DEFINITION. The named operations every family shares: counters, stored register values, free values, event records,
the error log, memory and its frames, and tallies. -/

namespace Sys2Proof.Machine

/-! ### Counters, register storage, free values -/

/-- Add to a live counter, saturating at 2^64 − 1 (R551). Its key is the BAR0 offset of its latched copy. -/
def bump (off n : Nat) (s : State) : State :=
  let v := tget 0 s.regs.live off + n
  if v < 2 ^ 64 then { s with regs := { s.regs with live := tset 0 s.regs.live off v } }
  else { s with regs := { s.regs with live := tset 0 s.regs.live off (2 ^ 64 - 1), sat := true } }

/-- Add to a tenant's live counter of Table 21.1; work of no tenant is charged to none (R553). -/
def bumpTenant (t : Option Nat) (idx n : Nat) (s : State) : State :=
  match t with
  | none => s
  | some t => { s with regs := { s.regs with tlive := tset 0 s.regs.tlive (t * 16 + idx)
                                                (min (2 ^ 64 - 1) (tget 0 s.regs.tlive (t * 16 + idx) + n)) } }

/-- Add to a per-bell figure of Table 21.2. -/
def bumpBell (kind unit idx n : Nat) (s : State) : State :=
  let k := (kind * 512 + unit) * 4 + idx
  { s with regs := { s.regs with bcount := tset 0 s.regs.bcount k (tget 0 s.regs.bcount k + n) } }

/-- A register's stored value by key (BAR0 offset, plus bank × 2^32 behind a selector); its reset value when never
written. -/
def rget (s : State) (key : Nat) : Nat :=
  match tget none s.regs.vals key with
  | some v => v.toNat
  | none => resetAt (key % 2 ^ 32)

/-- Store a register's value. -/
def rset (key v : Nat) (s : State) : State :=
  { s with regs := { s.regs with vals := tset none s.regs.vals key (some (BitVec.ofNat 64 v)) } }

/-- A field of a stored register. -/
def rfield (s : State) (key hi lo : Nat) : Nat := bitsOf (rget s key) hi lo

/-- The value in force of a register whose writes wait for a boundary. -/
def inForce (s : State) (key : Nat) : Nat :=
  match tget none s.regs.old key with
  | some v => v.toNat
  | none => rget s key

/-- A field in force. -/
def forceField (s : State) (key hi lo : Nat) : Nat := bitsOf (inForce s key) hi lo

/-- Count an access fault in a block's or window's pair (R8, R558, R559); saturates at 2^32 − 1. -/
def accessFault (base : Nat) (s : State) : State :=
  rset (base + 0xF0) (min 0xFFFFFFFF (rget s (base + 0xF0) + 1)) s

/-- Count a refused write in a block's or window's pair (R7, R535). -/
def writeFault (base : Nat) (s : State) : State :=
  rset (base + 0xF8) (min 0xFFFFFFFF (rget s (base + 0xF8) + 1)) s

/-- A fresh free value of 64 bits and the state with the counter advanced. -/
def takeFree (s : State) : BitVec 64 × State := (Config.freeValue s.freeCtr, { s with freeCtr := s.freeCtr + 1 })

/-- `n` fresh free values. -/
def takeFrees : Nat → State → List (BitVec 64) × State
  | 0, s => ([], s)
  | n + 1, s =>
    let (v, s1) := takeFree s
    let (l, s2) := takeFrees n s1
    (v :: l, s2)

/-- Device time in nanoseconds. -/
def devNs (s : State) : Nat := s.now - s.sys.readyAt

/-- Device time in milliseconds. -/
def nowMs (s : State) : Nat := devNs s / 1000000

/-- Device time moves forward only. -/
def atTime (t : Nat) (s : State) : State := { s with now := max s.now t }

/-- Return a value to the reader. -/
def answer (v : Nat) (s : State) : State := { s with regs := { s.regs with last := BitVec.ofNat 64 v } }

/-- Return bytes to the reader. -/
def answerBytes (l : List Byte) (s : State) : State := { s with regs := { s.regs with lastBytes := l } }

/-! ### Units -/

/-- The quarter of a shop, stack and Balis port (Table 1.1). -/
def shopQuarter (n : Nat) : Nat := n / 80
def stackQuarter (n : Nat) : Nat := n / 3
def portQuarter (n : Nat) : Nat := n / 4

/-- A stack's state record. -/
def stackOf (s : State) (n : Nat) : StackSt := tget StackSt.reset s.stks n

/-- Change a stack's state record. -/
def modStack (n : Nat) (f : StackSt → StackSt) (s : State) : State :=
  { s with stks := tmod StackSt.reset s.stks n f }

/-- Is the stack present? -/
def stackPresent (s : State) (n : Nat) : Bool := decide (n < 12) && (stackOf s n).state == 0

/-- The BAR0 offset of a stack's counter. -/
def stkC (n o : Nat) : Nat := 0x800000 + n * 0x10000 + o

/-- The BAR0 offset of a shop's counter. -/
def shopC (n o : Nat) : Nat := 0x2000000 + n * 0x10000 + o

/-! ### Event records (R445 to R451) -/

/-- The number of the operator's ring set. -/
def opRing : Nat := 4096

def ringOf (s : State) (r : Nat) : RingSet := tget RingSet.reset s.host.rings r

def modRing (r : Nat) (f : RingSet → RingSet) (s : State) : State :=
  { s with host := { s.host with rings := tmod RingSet.reset s.host.rings r f } }

/-- Write bytes into host memory. -/
def hostWrite (a : Nat) (l : List Byte) (s : State) : State :=
  { s with host := { s.host with
      mem := l.zipIdx.foldl (fun m p => tset (0 : Byte) m (a + p.2) p.1) s.host.mem } }

/-- Read bytes of host memory; none where the read fails (Table 17.2). -/
def hostRead (s : State) (a n : Nat) : Option (List Byte) :=
  if s.host.fails.any (fun p => decide (p.1 < a + n ∧ a < p.2)) then none
  else some ((List.range n).map (fun i => tget (0 : Byte) s.host.mem (a + i)))

/-- Records produced and not consumed. -/
def ringLoad (r : RingSet) : Nat := (r.produced + 2 ^ 32 - r.head) % 2 ^ 32

/-- Free slots of an event ring (R449). -/
def ringSpace (r : RingSet) : Nat := 2 ^ r.eqLog - ringLoad r

/-- The 64 bytes of a record in its slot (Table 17.8, R448). -/
def recordBytes (e : EvRec) (phase ovf : Bool) : List Byte :=
  let q0 := e.family % 256 + e.kind % 256 * 2 ^ 8 + b2n phase * 2 ^ 16 + b2n ovf * 2 ^ 17 + b2n e.merged * 2 ^ 18
    + b2n e.order.isNone * 2 ^ 19 + e.code % 256 * 2 ^ 24 + e.bell % 2 ^ 32 * 2 ^ 32
  let q1 := e.aux % 2 ^ 32 + (match e.order with
    | some (o, g) => o % 2 ^ 16 * 2 ^ 32 + g % 2 ^ 16 * 2 ^ 48
    | none => 0)
  leBytes 8 q0 ++ leBytes 8 q1 ++ (List.range 6).flatMap (fun i => leBytes 8 (e.payload.getD i 0))

/-- Write one record into the ring's next slot. -/
def writeSlot (ring : Nat) (e : EvRec) (s : State) : State :=
  let r := ringOf s ring
  let n := 2 ^ r.eqLog
  let phase := r.produced / n % 2 == 0
  let s1 := hostWrite (r.eqBase + r.produced % n * 64) (recordBytes e phase r.ovfNext) s
  bump 0x200118 1 (modRing ring (fun r => { r with produced := (r.produced + 1) % 2 ^ 32, ovfNext := false }) s1)

/-- Send the function's MSI-X message, or set its pending bit while the vector is masked (R451). -/
def sendMsix (ring : Nat) (s : State) : State :=
  let r := ringOf s ring
  let s1 := if r.msixMask then modRing ring (fun r => { r with msixPend := true }) s
    else bump 0x200138 1 (hostWrite r.msixAddr (leBytes 4 r.msixData) s)
  modRing ring (fun r => { r with armed := false, lastMsg := some r.head }) s1

/-- An armed function with records beyond HEAD sends its message. -/
def msixCheck (ring : Nat) (s : State) : State :=
  let r := ringOf s ring
  if r.armed && decide (ringLoad r ≠ 0) then sendMsix ring s else s

/-- A record of the running bell. -/
def mkRec (s : State) (family kind code aux : Nat) (order : Option (Nat × Nat)) (payload : List Nat) : EvRec :=
  ⟨family, kind, code, s.bell % 2 ^ 32, aux, order, false, payload⟩

/-- Count a dropped record (R449). -/
def dropRecord (ring n : Nat) (s : State) : State :=
  bump 0x200130 n (modRing ring (fun r => { r with
    lost := min 0xFFFFFFFF (r.lost + n), lostNew := r.lostNew + n, eqLost := true, ovfNext := true }) s)

/-- Records in the whole overflow store. -/
def storeCount (s : State) : Nat := (s.host.rings.map (fun p => p.2.store.length)).sum

/-- The overflow store's share of a ring (R449). -/
def storeShare (ring : Nat) : Nat := if ring = opRing then 2048 else 256

/-- Put a record into the overflow store: a STAT record replaces its like, and a full share evicts the ring's oldest
STAT record or drops the newcomer (R449). -/
def storeRecord (ring : Nat) (e : EvRec) (s : State) : State :=
  let r := ringOf s ring
  let isStat := fun (x : EvRec) => x.family == 0x0A
  if isStat e && r.store.any (fun x => isStat x && x.kind == e.kind) then
    bump 0x200128 1 (modRing ring (fun r => { r with
      store := r.store.map (fun x => if isStat x && x.kind == e.kind then { e with merged := true } else x) }) s)
  else if decide (r.store.length < storeShare ring) && decide (storeCount s < 4096) then
    bump 0x200120 1 (modRing ring (fun r => { r with
      store := r.store ++ [e], eqOverflow := r.eqOverflow || !r.fresh, ovfNext := r.ovfNext || !r.fresh }) s)
  else if isStat e then dropRecord ring 1 s
  else match r.store.findIdx? isStat with
    | some i =>
      bump 0x200120 1 (modRing ring (fun r => { r with store := r.store.eraseIdx i ++ [e], eqOverflow := true })
        (dropRecord ring 1 s))
    | none => dropRecord ring 1 s

/-- EVENTS_LOST with the count goes ahead of the ring's next record (R449). -/
def writeLost (ring : Nat) (s : State) : State :=
  let r := ringOf s ring
  if r.lostNew > 0 ∧ ringSpace r > 0 then
    modRing ring (fun r => { r with lostNew := 0 }) (writeSlot ring (mkRec s 0x0B 0x05 0 0 none [r.lostNew]) s)
  else s

/-- Make one event record for a ring set (R446, R448, R449): nothing for a set that is not started. -/
def emit (ring : Nat) (e : EvRec) (s : State) : State :=
  let r := ringOf s ring
  if !r.started then s
  else if r.fresh || !r.store.isEmpty || decide (ringSpace r = 0) then storeRecord ring e s
  else
    let s1 := writeLost ring s
    if ringSpace (ringOf s1 ring) = 0 then storeRecord ring e s1
    else msixCheck ring (writeSlot ring e s1)

/-- The two STATUS records of an order are written, stored or dropped as one pair (Table 17.11). -/
def emitPair (ring : Nat) (e f : EvRec) (s : State) : State :=
  let r := ringOf s ring
  if !r.started then s
  else
    let s1 := if r.fresh || !r.store.isEmpty then s else writeLost ring s
    let r1 := ringOf s1 ring
    if !r1.fresh && r1.store.isEmpty && decide (ringSpace r1 ≥ 2) then
      msixCheck ring (writeSlot ring f (writeSlot ring e s1))
    else if 2 ≤ min (storeShare ring - r1.store.length) (4096 - storeCount s1) + (r1.store.filter (fun x => x.family == 0x0A)).length then
      storeRecord ring f (storeRecord ring e s1)
    else dropRecord ring 2 s1

/-- Is a record the first of the two STATUS records of an order? -/
def pairHead (e : EvRec) : Bool := e.family == 0x01 && e.kind == 0x0E && e.code == 0

/-- Drain the overflow store into a ring with space, ahead of newer records (R449); a STATUS pair waits for two slots (Table 17.11). -/
def drainStore : Nat → Nat → State → State
  | 0, _, s => s
  | k + 1, ring, s =>
    let r := ringOf s ring
    match r.store with
    | [] => s
    | e :: t =>
      if ringSpace r = 0 then s
      else
        let s1 := writeLost ring s
        if ringSpace (ringOf s1 ring) < (if pairHead e then 2 else 1) then s1
        else drainStore k ring (writeSlot ring e (modRing ring (fun r => { r with store := t }) s1))

/-- A record to the operator. -/
def emitOp (family kind code : Nat) (payload : List Nat) (s : State) : State :=
  emit opRing (mkRec s family kind code 0 none payload) s

/-- A COMPLETION record that concerns an order, or none (R439, Table 17.8): opcode, status, TAG. -/
def orderCompletion (ring op status tag : Nat) (order : Option (Nat × Nat)) (s : State) : State :=
  emit ring (mkRec s 0x03 op status tag order [0, 0]) s

/-- A COMPLETION record of a command that concerns no order (R439): opcode, status, TAG, RESULT, detail and index. -/
def completion (ring op status tag result detail index : Nat) (s : State) : State :=
  emit ring (mkRec s 0x03 op status tag none [result, detail % 256 + index * 256]) s

/-- A unit has taken, or refused, the image that BENCH_FW or FULLER_LIB sent it: the command completes with its last unit (R443). -/
def fwTaken (fuller : Bool) (unit status : Nat) (s : State) : State :=
  let ws := s.host.fwWaits.map (fun w => if w.fuller = fuller ∧ w.units.contains unit = true then
    { w with units := w.units.filter (fun u => decide (u ≠ unit)), status := if w.status = 0 then status else w.status } else w)
  (ws.filter (fun w => w.units.isEmpty)).foldl
    (fun s w => completion opRing (if w.fuller then 0x33 else 0x32) w.status w.tag 0 0 0 s)
    { s with host := { s.host with fwWaits := ws.filter (fun w => !w.units.isEmpty) } }

/-! ### The error log (R489 to R493) -/

/-- Is a record type also written to the non-volatile log (Table 18.7)? -/
def rasNv (typ : Nat) : Bool := !(([0x07, 0x08, 0x12, 0x15, 0x16] : List Nat).contains typ)

/-- The words q0 to q6 of a log record (Table 18.6). -/
def rasWords (r : RasRec) : List Nat :=
  [r.typ % 256 + r.sev % 8 * 2 ^ 8 + b2n r.nv * 2 ^ 11 + min r.count 0xFFFF * 2 ^ 16 + r.bell % 2 ^ 32 * 2 ^ 32,
   r.unit, r.addr, r.pos, r.owner, r.detail, r.time % 2 ^ 48]

/-- The eight words with the sequence number and CRC. -/
def rasShown (r : RasRec) : List Nat :=
  let w := rasWords r
  w ++ [r.seq % 2 ^ 32 + (crc32 (w.flatMap (leBytes 8))).toNat * 2 ^ 32]

/-- A device-owned owner word q4: DEV and NOORD set. -/
def ownerDev : Nat := 2 ^ 44 + 2 ^ 45

/-- The owner word of a context's tenant and order. -/
def ownerWord (tenant order : Option Nat) (ctx : Nat) : Nat :=
  (match tenant with | some t => t | none => 2 ^ 44) + (match order with | some o => o * 2 ^ 12 | none => 2 ^ 45) + ctx % 2 ^ 16 * 2 ^ 28

/-- Perform a flash write: an error-log record, an audit record, the trip record, or a shop's soft repair record. -/
def flashCommit (h : HeldRec) (s : State) : State :=
  match h.kind with
  | 0 => { s with ras := { s.ras with nvLog := (h.ras.toList ++ s.ras.nvLog).take 65536 } }
  | 1 =>
    let lost := s.therm.audit.length ≥ 16384 && !s.sys.auditRead.contains ((((s.therm.audit.getLast?).getD [])[7]?).getD 0 % 2 ^ 32)
    let s1 := { s with therm := { s.therm with audit := (h.words :: s.therm.audit).take 16384 } }
    if lost then bump 0x1800110 1 s1 else s1
  | 2 => s
  | _ => { s with shops := tmod ShopSt.reset s.shops (h.words.headD 0) (fun sh => { sh with array := { sh.array with
      flashRows := sh.array.softRows, flashCols := sh.array.softCols, softPending := false } }) }

/-- Write a record to flash, or hold it while the window is closed (R358): 64 records, then it is dropped; a trip record replaces
the oldest. -/
def flashWrite (h : HeldRec) (s : State) : State :=
  if s.therm.flashOpen then flashCommit h s
  else
    let s1 := bump 0x400120 1 s
    if s.therm.held.length < 64 then { s1 with therm := { s1.therm with held := s1.therm.held ++ [h] } }
    else if h.kind = 2 then { s1 with therm := { s1.therm with held := s1.therm.held.drop 1 ++ [h] } }
    else bump 0x400128 1 s1

/-- Log an error record: a like record of the same bell is merged by COUNT (R492); otherwise it takes the next sequence
number, may overwrite the oldest, goes to the non-volatile log when Table 18.7 says so, and to the operator's ring. -/
def rasLogN (count typ sev unit addr pos owner detail : Nat) (s : State) : State :=
  let same := fun (r : RasRec) => r.typ == typ && r.unit == unit && r.pos == pos && r.addr == addr
    && r.bell == s.bell % 2 ^ 32 && typ != 0x16 && typ != 0x13
  if s.ras.log.any same then
    { s with ras := { s.ras with log := s.ras.log.map (fun r => if same r then { r with count := min 0xFFFF (r.count + count) } else r) } }
  else
    let r : RasRec := ⟨typ, sev, rasNv typ, count, s.bell % 2 ^ 32, unit, addr, pos, owner, detail, nowMs s, (s.ras.seq + 1) % 2 ^ 32⟩
    let s1 := if s.ras.log.length ≥ 4096 then bump 0x1400160 1 s else s
    let s2 := { s1 with ras := { s1.ras with
      log := (r :: s1.ras.log).take 4096
      seq := r.seq } }
    emitOp 0x09 typ sev ((rasWords r).drop 1) (if r.nv then flashWrite ⟨0, some r, []⟩ s2 else s2)

/-- Log an error record of one finding. -/
def rasLog (typ sev unit addr pos owner detail : Nat) (s : State) : State := rasLogN 1 typ sev unit addr pos owner detail s

/-- A unit is marked absent (R482): counted, logged with its cause (1 no spare, 2 self-check, 3 interface), and routed about from the next
boundary (R314). -/
def unitAbsent (unit cause : Nat) (s : State) : State :=
  let s1 := bump 0x1400148 1 (rasLog 0x0D 4 unit 0 0 ownerDev cause s)
  { s1 with sched := { s1.sched with plc := { s1.sched.plc with absent := s1.sched.plc.absent ++ [unit] } } }

/-! ### Roles and the audit log (R530, R533, R535, R539) -/

/-- Does a channel hold a session with a right (0 PF, 1 SMBus, 2 JTAG)? A steward's own path, channel 3, holds the installer's. -/
def hasRight (s : State) (chan bit : Nat) : Bool :=
  decide (chan = 3) || (decide (s.sys.role.state = 2 ∧ s.sys.role.channel = chan) && bitOf s.sys.role.rights bit)

/-- The role that acts on a channel: 0 operator, 1 installer, 2 maker, 3 the device. -/
def roleOn (s : State) (chan : Nat) : Nat :=
  if chan = 3 then 3 else if s.sys.role.state = 2 ∧ s.sys.role.channel = chan then s.sys.role.role else 0

/-- The certificate serial of the session on a channel. -/
def certOn (s : State) (chan : Nat) : Nat := if s.sys.role.state = 2 ∧ s.sys.role.channel = chan then s.sys.role.serial else 0

/-- Write an audit entry (Table 20.9): KIND, ROLE, CHANNEL, COUNT, TIME, OBJECT, CERT, OLD, NEW, DETAIL, chained to the entry before it. -/
def auditEntry (kind role chan count time object cert old new detail : Nat) (s : State) : State :=
  let seq := (s.sys.auditSeq + 1) % 2 ^ 32
  let chain := if s.sys.auditLast.isEmpty then 0 else leAt (sha384 (s.sys.auditLast.flatMap (leBytes 8))) 0 8
  let w := [kind % 256 + role % 8 * 2 ^ 8 + chan % 4 * 2 ^ 11 + min count 0xFFFF * 2 ^ 16 + s.bell % 2 ^ 32 * 2 ^ 32, time % 2 ^ 48,
    object % 2 ^ 32 + cert % 2 ^ 32 * 2 ^ 32, old % 2 ^ 64, new % 2 ^ 64, detail % 2 ^ 64, chain]
  let w8 := w ++ [seq + (crc32 (w.flatMap (leBytes 8))).toNat * 2 ^ 32]
  flashWrite ⟨1, none, w8⟩ { s with sys := { s.sys with auditSeq := seq, auditLast := w8 } }

/-- An audit entry for an act of a channel now. -/
def audit (kind chan object old new detail : Nat) (s : State) : State :=
  auditEntry kind (roleOn s chan) chan 1 (nowMs s) object (certOn s chan) old new detail s

/-- A refused write (R7, R535): counted in the block's write-fault counter; one WRITE_FAULT record for the register in the bell; its audit entry
follows with the bell's count. -/
def refusedWrite (base off chan old new : Nat) (s : State) : State :=
  let s1 := writeFault base s
  if s1.sys.refused.any (fun r => decide (r.off = off)) then
    { s1 with sys := { s1.sys with refused := s1.sys.refused.map (fun r => if r.off = off then { r with count := r.count + 1 } else r) } }
  else
    emitOp 0x0B 0x04 0 [off, new] { s1 with sys := { s1.sys with
      refused := s1.sys.refused ++ [⟨off, 1, old, new, roleOn s chan, chan, certOn s chan, nowMs s⟩] } }

/-- The audit entries of the bell's refused writes are written. -/
def flushRefused (s : State) : State :=
  s.sys.refused.foldl (fun s r => auditEntry 0x02 r.role r.channel r.count r.time r.off r.cert r.old r.new 0 s)
    { s with sys := { s.sys with refused := [] } }

/-- Set the debug level (R541), with its audit entry; level 0 resumes every halted steward. -/
def setLevel (lvl : Nat) (s : State) : State :=
  let old := s.sys.role.level
  let s1 := if old = lvl then s else audit 0x0B 2 0 old lvl 0 s
  { s1 with sys := { s1.sys with
    role := { s1.sys.role with level := lvl }
    stewards := if lvl = 0 then tmap Steward.reset s1.sys.stewards (fun _ x => { x with halted := none }) else s1.sys.stewards } }

/-- The open session closes (R533): the debug level falls to 0, halted stewards resume, GLB_LOCK becomes the stored lock policy. -/
def closeSession (s : State) : State :=
  if s.sys.role.state ≠ 2 then s
  else
    let s1 := audit 0x04 s.sys.role.channel 0 0 0 0 (setLevel 0 s)
    { s1 with sys := { s1.sys with
      lockPolicy := s1.sys.lockBits, role := { s1.sys.role with state := 0, role := 0, rights := 0, serial := 0, channel := 0 } } }

/-- The session of one channel, or a challenge on it, ends. -/
def closeChannel (chan : Nat) (s : State) : State :=
  if s.sys.role.channel ≠ chan then s
  else if s.sys.role.state = 2 then closeSession s
  else if s.sys.role.state = 1 then { s with sys := { s.sys with role := { s.sys.role with state := 0, challenge := [] } } }
  else s

/-! ### Local addresses (R363 to R368) -/

/-- Where a local address leads. -/
inductive Home where
  /-- A byte of stack memory: (stack × 2^20 + frame) × 2^16 + offset. -/
  | stack (key : Nat)
  | warehouse (addr : Nat)
  /-- A reduction alias: 1 FP32 add, 2 INT32 add, 3 FP32 max; with the warehouse address. -/
  | reduce (kind addr : Nat)
  | stockroom (addr : Nat)
  | kv (off : Nat)
  | selector (off : Nat)
  | tally (off : Nat)
  | host (addr : Nat)
  | remote (dev addr : Nat)
  | none
deriving DecidableEq, Repr

/-- The device's own Balis ID in force (BLS_DEVID.ACTIVE, R405). -/
def ownDevice (s : State) : Nat := s.bal.active

/-- A tenant address of the stack or warehouse region through the tenant's translations; the operator's addresses are
device local already (R366). -/
def translate (s : State) (ten : Option Nat) (a : Nat) : Option Nat :=
  match ten with
  | Option.none => some a
  | some t =>
    match (tget [] s.mem.xlat t).find? (fun x => decide (x.va ≤ a ∧ a < x.va + x.size)) with
    | some x => some (x.la + (a - x.va))
    | Option.none => Option.none

/-- The stack byte that a device local address of the stack region names, through the placement map (R157). -/
def stackByte (s : State) (a : Nat) : Option Nat :=
  match tget Option.none s.mem.map (a / 65536) with
  | some e => some ((e.stack * 2 ^ 20 + e.frame) * 2 ^ 16 + a % 65536)
  | Option.none => Option.none

/-- Resolve an address of an issuer (Table 15.1, R363 to R368). -/
def resolve (s : State) (ten : Option Nat) (A : Nat) : Home :=
  if A ≥ 2 ^ 60 then .none
  else
    let dev := A / 2 ^ 48
    let a := A % 2 ^ 48
    if dev ≠ 0 ∧ dev ≠ ownDevice s then .remote dev a
    else if a < 0x00C000000000 then
      match translate s ten a with
      | some l => match (if l < 0x00C000000000 then stackByte s l else Option.none) with
        | some k => .stack k
        | Option.none => .none
      | Option.none => .none
    else if 0x010000000000 ≤ a ∧ a < 0x010010000000 then
      match translate s ten a with
      | some l => .warehouse l
      | Option.none => .none
    else if 0x010100000000 ≤ a ∧ a < 0x010400000000 ∧ a % 2 ^ 32 < 0x10000000 then
      match translate s ten (a % 2 ^ 32 + 0x010000000000) with
      | some l => .reduce (a / 2 ^ 32 - 0x100) l
      | Option.none => .none
    else if 0x020000000000 ≤ a ∧ a < 0x020028000000 then
      (if a % 0x200000 < 0x180000 then .stockroom a else .none)
    else if 0x080000000000 ≤ a ∧ a < 0x0C0000000000 then .kv (a - 0x080000000000)
    else if 0x0C0000000000 ≤ a ∧ a < 0x0C0010000000 then .selector (a - 0x0C0000000000)
    else if 0x0D0000000000 ≤ a ∧ a < 0x0D0000080000 then .tally (a - 0x0D0000000000)
    else if 0x100000000000 ≤ a ∧ a < 0x200000000000 then .host (a - 0x100000000000)
    else .none

/-- The key under which a home's byte is held, for homes that hold bytes. -/
def homeKey : Home → Option Nat
  | .stack k => some k
  | .warehouse a => some a
  | .stockroom a => some a
  | _ => Option.none

/-! ### Frames, sectors and poison (R170 to R174, R463) -/

/-- The die of a frame (Table 7.2). -/
def frameDie (k : Nat) : Nat := k % 512 / 32

/-- A frame; every frame of a lost die is lost (R481). -/
def frameOf (s : State) (k : Nat) : Frame :=
  let f := tget Frame.reset s.mem.frames k
  if (stackOf s (k / 2 ^ 20)).diesLost.contains (frameDie k) then { f with lost := true } else f

def modFrame (k : Nat) (f : Frame → Frame) (s : State) : State :=
  { s with mem := { s.mem with frames := tmod Frame.reset s.mem.frames k f } }

/-- Is a frame of the state class? Its summary is nonzero (Table 7.6). -/
def frameState (f : Frame) : Bool := f.summary != 0

/-- What a read of a stack sector finds: 0 data, 1 poison "unwritten", 2 poison "corrupt". -/
def sectorPoison (s : State) (sk : Nat) : Nat :=
  let f := frameOf s (sk / 1024)
  if f.lost || (stackOf s (sk / 2 ^ 30)).state == 1 then 2
  else match tget 0 s.mem.sector sk with
    | 2 => 2
    | 1 => 0
    | _ => if frameState f then 0 else 1

/-- The poison that an unlisted line has (R507). -/
def lineBase (s : State) (ln : Nat) : Bool :=
  decide (0x010000000000 / 64 ≤ ln ∧ ln < 0x010010000000 / 64) && s.mem.whBad.contains ((ln - 0x010000000000 / 64) / 0x100000)

/-- Is a warehouse or stockroom line poisoned? -/
def linePoison (s : State) (ln : Nat) : Bool := tget false s.mem.line ln != lineBase s ln

/-- Set or clear a line's poison. -/
def setLine (ln : Nat) (bad : Bool) (s : State) : State :=
  { s with mem := { s.mem with line := tset false s.mem.line ln (bad != lineBase s ln) } }

/-- What a read of the byte at a key finds. -/
def keyPoison (s : State) (k : Nat) : Nat :=
  if k < 0xC000000000 then sectorPoison s (k / 64)
  else if linePoison s (k / 64) then 2 else 0

/-- A byte by key; a state-class sector never written holds zeros (R171). -/
def keyByte (s : State) (k : Nat) : Byte := tget (0 : Byte) s.mem.bytes k

/-- Set a frame's summary after its sector statuses changed (R171). -/
def summarise (fk : Nat) (s : State) : State :=
  if frameState (frameOf s fk) then
    let n := (s.mem.sector.filter (fun p => decide (p.1 / 1024 = fk))).length
    modFrame fk (fun f => { f with summary := if n = 0 then 1 else if n ≥ 1024 then 2 else 3 }) s
  else s

/-- An access that uses a frame's valid bits touches the mixed-frame cache of its stack: most recent first, 16,384 entries; a
frame that was mixed before and is not held is a miss; a frame that is no longer mixed needs no entry (R172). -/
def touchMixed (fk was : Nat) (s : State) : State :=
  let n := fk / 2 ^ 20
  let s1 := if was = 3 ∧ (stackOf s n).mixed.contains fk = false then bump (stkC n 0x138) 1 s else s
  let mixedNow := decide ((frameOf s fk).summary = 3)
  if was = 3 ∨ mixedNow = true then
    modStack n (fun st =>
      let rest := st.mixed.filter (fun x => decide (x ≠ fk))
      { st with mixed := if mixedNow then (fk :: rest).take 16384 else rest }) s1
  else s1

/-- Count one sector for HEAT (R295). -/
def countHeat (fk : Nat) (s : State) : State :=
  { s with mem := { s.mem with heat := tset 0 s.mem.heat fk (tget 0 s.mem.heat fk + 1) } }

/-- The device local address of a stack key, for the error log; the key itself where the frame is unbound. -/
def keyAddr (s : State) (k : Nat) : Nat :=
  match (frameOf s (k / 65536)).granule with
  | some g => g * 65536 + k % 65536
  | Option.none => k

/-- Log and count the delivery of a poisoned sector (R173, R467): once per frame and ledger period in the log. -/
def notePoison (sk p : Nat) (s : State) : State :=
  let fk := sk / 1024
  let n := sk / 2 ^ 30
  let s1 := bump 0x1400120 1 (if p = 1 then bump (stkC n 0x168) 1 s else s)
  if s1.ras.poisonLogged.contains fk then s1
  else
    let s2 := { s1 with ras := { s1.ras with poisonLogged := fk :: s1.ras.poisonLogged } }
    rasLog (if p = 1 then 0x08 else 0x07) 6 (unitWord 4 n 0) (keyAddr s (sk * 64)) 0 ownerDev 1 s2

/-- The effects of reading one stack sector through the vertical interface on counters and logs. -/
def touchRead (sk : Nat) (s : State) : State :=
  let n := sk / 2 ^ 30
  let fk := sk / 1024
  let p := sectorPoison s sk
  let s1 := touchMixed fk (frameOf s fk).summary (countHeat fk s)
  let s2 := if p = 0 && tget 0 s.mem.sector sk == 0 then bump (stkC n 0x130) 1 s1
    else bump (stkC n 0x100) 1 s1
  if p = 0 then s2 else notePoison sk p s2

/-- The result of reading device memory. -/
structure RdRes where
  data : List Byte
  /-- 0 clean, 1 a sector poisoned "unwritten", 2 "corrupt". -/
  poison : Nat
  /-- Every byte resolved to a home that can be read. -/
  ok : Bool
deriving DecidableEq, Repr

/-- One byte of an issuer's address: value and poison; none where it faults. Host memory that fails to answer reads as
poison (Table 17.2). -/
def byteAt (s : State) (ten : Option Nat) (A : Nat) : Option (Byte × Nat) :=
  match resolve s ten A with
  | .stack k => some (if keyPoison s k = 0 then keyByte s k else 0, keyPoison s k)
  | .warehouse k => some (keyByte s k, keyPoison s k)
  | .stockroom k => some (keyByte s k, keyPoison s k)
  | .host h => match hostRead s h 1 with
    | some l => some (l.headD 0, 0)
    | Option.none => some (0, 2)
  | _ => Option.none

/-! ### Homes in reset (R509) -/

/-- Is a unit reset of a scope applied to a unit? -/
def unitInReset (s : State) (scope unit : Nat) : Bool :=
  s.sys.resets.any (fun r => decide (r.scope = scope ∧ r.unit = unit ∧ r.phase ≠ 0))

/-- Is a unit asked for in a reset, or in one? It takes no part in a plan (R321, R507). -/
def resetAsked (s : State) (scope unit : Nat) : Bool := s.sys.resets.any (fun r => decide (r.scope = scope ∧ r.unit = unit))

/-- Is the home of a byte in reset: its stack, the quarter that carries the stack, or the warehouse's quarter? -/
def homeInReset (s : State) (h : Home) : Bool :=
  match h with
  | .stack k => (stackOf s (k / 2 ^ 36)).state == 2 || unitInReset s 2 (k / 2 ^ 36) || unitInReset s 1 (stackQuarter (k / 2 ^ 36))
  | .warehouse a | .reduce _ a => unitInReset s 1 ((a - 0x010000000000) / 0x4000000)
  | _ => false

/-- A local request that finds its home in reset: RETRY, and it is sent again. -/
def retried (s : State) : State := bump 0x4B0 1 s

/-! ### Reading and writing -/

/-- The distinct sectors that a range of an issuer's addresses touches in stack memory. -/
def sectorsOf (s : State) (ten : Option Nat) (A n : Nat) : List Nat :=
  ((List.range n).filterMap (fun i => match resolve s ten (A + i) with
    | .stack k => some (k / 64)
    | _ => Option.none)).eraseDups

/-- Read `n` bytes at an issuer's address, without the effects on counters. -/
def peekDev (s : State) (ten : Option Nat) (A n : Nat) : RdRes :=
  let l := (List.range n).map (fun i => byteAt s ten (A + i))
  { data := l.map (fun o => (o.getD (0, 0)).1)
    poison := l.foldl (fun p o => max p (o.getD (0, 0)).2) 0
    ok := l.all Option.isSome }

/-- Does the host fail to answer a byte of a range (Table 17.2)? -/
def hostMiss (s : State) (ten : Option Nat) (A n : Nat) : Bool :=
  (List.range n).any (fun i => match resolve s ten (A + i) with
    | .host h => (hostRead s h 1).isNone
    | _ => false)

/-- The effects of reading a range: those on its stack sectors, and HQ_HOST_ERRORS for a failed host read. -/
def readFx (ten : Option Nat) (A n : Nat) (s : State) : State :=
  let s1 := (sectorsOf s ten A n).foldl (fun s sk => touchRead sk s) s
  if hostMiss s ten A n then bump 0x200148 1 s1 else s1

/-- Read `n` bytes at an issuer's address. -/
def readDev (ten : Option Nat) (A n : Nat) (s : State) : RdRes × State := (peekDev s ten A n, readFx ten A n s)

/-- The effects on a stack sector's status of writing `count` of its bytes (R166, R169, R171, R173, R481). -/
def sectorWritten (sk count : Nat) (s : State) : State :=
  let n := sk / 2 ^ 30
  let fk := sk / 1024
  let f := frameOf s fk
  let s0 := bump (stkC n 0x108) 1 (countHeat fk s)
  if f.lost || (stackOf s n).state == 1 then bump 0x1400108 1 s
  else if count ≥ 64 then
    touchMixed fk f.summary (summarise fk { s0 with mem := { s0.mem with sector := tset 0 s0.mem.sector sk 1 } })
  else match tget 0 s.mem.sector sk with
    | 0 =>
      if frameState f then
        touchMixed fk f.summary (summarise fk { s0 with mem := { s0.mem with sector := tset 0 s0.mem.sector sk 1 } })
      else bump (stkC n 0x120) 1 (bump (stkC n 0x168) 1 s0)
    | _ => bump (stkC n 0x120) 1 s0

/-- The effects on a warehouse or stockroom line of writing `count` of its bytes: only a whole line clears poison (R463), and
never that of a failed line without a spare row (R476). -/
def lineWritten (ln count : Nat) (s : State) : State :=
  if count ≥ 64 ∧ s.mem.lineDead.contains ln = false then setLine ln false s else s

/-- Store bytes by key. -/
def storeKeys (l : List (Nat × Byte)) (s : State) : State :=
  { s with mem := { s.mem with bytes := l.foldl (fun m p => tset (0 : Byte) m p.1 p.2) s.mem.bytes } }

/-- Write keyed bytes with the effects on their sectors and lines. Bytes of a lost frame are dropped (R481). -/
def writeKeys (l : List (Nat × Byte)) (s : State) : State :=
  let keep := l.filter (fun p => !(decide (p.1 < 0xC000000000) && (frameOf s (p.1 / 65536)).lost))
  let units := (l.map (fun p => p.1 / 64)).eraseDups
  units.foldl (fun s u =>
    let c := (l.filter (fun p => decide (p.1 / 64 = u))).length
    if u < 0xC000000000 / 64 then sectorWritten u c s else lineWritten u c s) (storeKeys keep s)

/-- One element of a reduction alias combined with the warehouse element (R386). -/
def reduceElem (kind old new : Nat) : Nat :=
  match kind with
  | 1 => toF32Flush (addV (ofF32 old) (ofF32 new))
  | 2 => (old + new) % 2 ^ 32
  | _ => encodeFloat .fp32 .rne true true (maxV (ofF32 (flushIn old)) (ofF32 (flushIn new)))

/-- Four little-endian bytes at a key. -/
def keyWord (s : State) (k n : Nat) : Nat := ofLeBytes ((List.range n).map (fun i => keyByte s (k + i)))

/-- Write through a reduction alias: whole aligned 4-byte elements (R386). -/
def reduceWrite (kind addr : Nat) (data : List Byte) (s : State) : State :=
  let elems := groupsOf 4 data.length data
  let s1 := elems.zipIdx.foldl (fun s p =>
    let a := addr + 4 * p.2
    storeKeys ((leBytes 4 (reduceElem kind (keyWord s a 4) (ofLeBytes p.1))).zipIdx.map (fun q => (a + q.2, q.1))) s) s
  bump 0x498 elems.length s1

/-- Write bytes at an issuer's address: the state and whether every byte resolved to a home that can be written. A
range that does not resolve writes nothing. -/
def writeDev (ten : Option Nat) (A : Nat) (data : List Byte) (s : State) : State × Bool :=
  let homes := data.zipIdx.map (fun p => (resolve s ten (A + p.2), p.1))
  let keys := homes.filterMap (fun h => (homeKey h.1).map (fun k => (k, h.2)))
  let hosts := homes.filterMap (fun h => match h.1 with | .host a => some (a, h.2) | _ => Option.none)
  match homes.head? with
  | some (.reduce kind addr, _) =>
    if A % 4 = 0 ∧ data.length % 4 = 0 ∧ homes.all (fun h => match h.1 with | .reduce _ _ => true | _ => false) then
      (reduceWrite kind addr data s, true)
    else (s, false)
  | _ =>
    if keys.length + hosts.length = data.length then
      (hosts.foldl (fun s p => hostWrite p.1 [p.2] s) (writeKeys keys s), true)
    else (s, false)

/-- Mark the sectors and lines that a range touches as poisoned "corrupt" (R463). -/
def poisonRange (ten : Option Nat) (A n : Nat) (s : State) : State :=
  let ks := ((List.range n).filterMap (fun i => homeKey (resolve s ten (A + i)))).map (· / 64) |>.eraseDups
  ks.foldl (fun s u =>
    if u < 0xC000000000 / 64 then
      summarise (u / 1024) { s with mem := { s.mem with sector := tset 0 s.mem.sector u 2 } }
    else setLine u true s) s

/-- Forget a frame's sector statuses and bytes: its next owner reads zeros or poison (R174). -/
def wipeFrame (k : Nat) (s : State) : State :=
  { s with mem := { s.mem with
      sector := s.mem.sector.filter (fun p => decide (p.1 / 1024 ≠ k))
      bytes := s.mem.bytes.filter (fun p => decide (p.1 / 65536 ≠ k ∨ 0xC000000000 ≤ p.1)) } }

/-- Free a frame (R174): a state-class frame at once, a bulk frame after it is filled with poison again. A retired or
lost frame stays so. -/
def freeFrame (k : Nat) (s : State) : State :=
  let f := frameOf s k
  let st := frameState f
  let s1 := match f.granule with
    | some g => match tget Option.none s.mem.map g with
      | some e => if e.stack * 2 ^ 20 + e.frame = k then
          { s with mem := { s.mem with map := tset Option.none s.mem.map g Option.none } } else s
      | Option.none => s
    | Option.none => s
  modFrame k (fun f => { f with summary := if st then 1 else 0, use := .free, granule := Option.none, filling := !st })
    (wipeFrame k s1)

/-- Can the frame be allocated? -/
def frameFree (f : Frame) : Bool := decide (f.use = .free) && !f.filling && !f.retired && !f.lost

/-- Frames of a stack's good dies that are not free, from the listed ones. -/
def frameUsed (s : State) (n : Nat) : Nat :=
  (s.mem.frames.filter (fun p => decide (p.1 / 2 ^ 20 = n) && !frameFree p.2 && !(stackOf s n).diesLost.contains (frameDie p.1))).length

/-- Frame numbers among which `k` free frames of a stack lie, when it has so many. -/
def searchBound (s : State) (n k : Nat) : Nat :=
  min (2 ^ 20) (if (stackOf s n).diesLost.isEmpty then frameUsed s n + k else (frameUsed s n + k) * 16 + 512)

/-- Free frames of a stack: 1,048,576 less those held, filling, retired or lost; none of a stack that is not present. -/
def freeFrames (s : State) (n : Nat) : Nat :=
  if stackPresent s n then 2 ^ 20 - 65536 * (stackOf s n).diesLost.length - frameUsed s n else 0

/-- The lowest free frame of a stack at or above a frame number: at most one more than the listed frames are not free. -/
def nextFree (s : State) (n from_ : Nat) : Option Nat :=
  ((List.range (searchBound s n 1)).map (· + from_)).find? (fun f =>
    decide (f < 2 ^ 20) && frameFree (frameOf s (n * 2 ^ 20 + f)))

/-- Allocate a frame: its class and use; a bulk frame already holds "unwritten" poison from its fill, and its fill for
the new owner is under way until FRAME_FILL_DONE (R173). -/
def takeFrame (k : Nat) (stateCls : Bool) (use : FrameUse) (s : State) : State :=
  modFrame k (fun f => { f with summary := if stateCls then 1 else 0, use := use, filling := !stateCls }) (wipeFrame k s)

/-- Bind a granule to a frame in the placement map. -/
def bindGranule (g k : Nat) (stateCls pinned : Bool) (tenant model order : Option Nat) (s : State) : State :=
  let s1 := { s with mem := { s.mem with
    map := tset Option.none s.mem.map g (some ⟨k % 2 ^ 20, k / 2 ^ 20, pinned, false, 0, 0, false, stateCls, 0, tenant, model, order⟩) } }
  modFrame k (fun f => { f with granule := some g }) s1

/-- The lowest granule that the map does not bind, at or above a number. -/
def nextGranule (s : State) (from_ : Nat) : Nat :=
  ((List.range (s.mem.map.length + 1)).map (· + from_)).find? (fun g => (tget Option.none s.mem.map g).isNone) |>.getD from_

/-! ### Tallies (R378 to R382) -/

def tallyOf (s : State) (t : Nat) : Tally := tget Tally.reset s.tal.vals t

def setTally (t : Nat) (v : Tally) (s : State) : State :=
  { s with tal := { s.tal with vals := tset Tally.reset s.tal.vals t v } }

/-- The tenant whose range holds a tally. -/
def tallyOwner (s : State) (t : Nat) : Option Nat :=
  (s.tal.range.find? (fun p => decide (p.2.1 ≤ t ∧ t < p.2.1 + p.2.2))).map Prod.fst

/-- May work of this tenant (none: the operator) reach the tally (R381)? -/
def tallyAllowed (s : State) (ten : Option Nat) (t : Nat) : Bool :=
  match ten with
  | some u => decide (tallyOwner s t = some u)
  | Option.none => (tallyOwner s t).isNone && decide (t < 65472)

/-- Mark the held waits that a tally's value satisfies (R378: a satisfied wait stays satisfied). -/
def wakeWaits (t : Nat) (s : State) : State :=
  { s with tal := { s.tal with waits := s.tal.waits.map (fun w =>
      if w.tally = t ∧ w.value ≤ (tallyOf s t).value.toNat then { w with satisfied := true } else w) } }

/-- Apply a signal: value + i, saturating with OVF (R378, R380), and wake the waits it satisfies. -/
def signalTally (t i : Nat) (s : State) : State :=
  let v := (tallyOf s t).value.toNat + i % 2 ^ 32
  let s1 := bump 0x480 1 s
  wakeWaits t (if v > 0xFFFFFFFF then bump 0x488 1 (setTally t ⟨0xFFFFFFFF, true⟩ s1)
    else setTally t ⟨BitVec.ofNat 32 v, (tallyOf s t).ovf⟩ s1)

/-- Set a tally through the aperture: OVF cleared; a waiter it satisfies is released (R382). -/
def storeTally (t v : Nat) (s : State) : State := wakeWaits t (setTally t ⟨BitVec.ofNat 32 v, false⟩ s)

/-- A read of a tally: VALUE and OVF. -/
def readTally (s : State) (t : Nat) : Nat := (tallyOf s t).value.toNat + b2n (tallyOf s t).ovf * 2 ^ 32

/-- Set every tally of a range to 0 with OVF clear. -/
def zeroTallies (base count : Nat) (s : State) : State :=
  { s with tal := { s.tal with vals := s.tal.vals.filter (fun p => !(decide (base ≤ p.1) && decide (p.1 < base + count))) } }

end Sys2Proof.Machine
end

