-- ==== Sys2Proof/Machine/Kv.lean ====
section
/-! DEFINITION. Sharding (R139 to R141), KV pages and page lists (R210 to R216), the KV aperture and the batch table (R232,
R233), and reads and writes by a context: apertures and stockroom windows included (R76, R364). -/

namespace Sys2Proof.Machine

/-! ### Sharding -/

/-- Division rounding up. -/
def cdiv (a b : Nat) : Nat := (a + b - 1) / b

/-- Part of index `i` at one level (R139); 0 stands for every part of a replicated dimension. -/
def partOf (kind parts block extent i : Nat) : Nat :=
  match kind with
  | 1 => i / cdiv extent parts
  | 2 => i / block % parts
  | _ => 0

/-- Local index of `i` in its part (R139). -/
def localIdx (kind parts block extent i : Nat) : Nat :=
  match kind with
  | 1 => i % cdiv extent parts
  | 2 => i / (block * parts) * block + i % block
  | _ => i

/-- Local extent of part `p` (R139). -/
def localExt (kind parts block extent p : Nat) : Nat :=
  match kind with
  | 1 => min (cdiv extent parts) (extent - cdiv extent parts * p)
  | 2 =>
    let full := extent / (block * parts)
    let rest := extent % (block * parts)
    full * block + min block (rest - p * block)
  | _ => extent

/-- The device-level part of a dimension held by this part number, its local extent and indices. -/
def devExt (x : DimSplit) (p : Nat) : Nat := localExt x.dkind x.dparts x.dblock x.extent p
def devLocal (x : DimSplit) (i : Nat) : Nat := localIdx x.dkind x.dparts x.dblock x.extent i
def devPart (x : DimSplit) (i : Nat) : Nat := partOf x.dkind x.dparts x.dblock x.extent i

/-- Is global index `i` held by device-level part `p`? -/
def devHolds (x : DimSplit) (p i : Nat) : Bool :=
  decide (i < x.extent) && (x.dkind == 0 || devPart x i == p)

/-- The members of a group in force, by device ID (R408). -/
def groupMembers (s : State) (g : Nat) : List Nat :=
  let w := inForce s (0x1008028 + g * 2 ^ 32)
  if bitOf w 41 then
    (List.range (bitsOf w 11 0)).map (fun m => bitsOf (inForce s (0x1008038 + (bitsOf w 27 12 + m) * 2 ^ 32)) 11 0)
  else []

/-- This device's member index in a group; 0 where group 0 stands for no group. -/
def memberIndex (s : State) (g : Nat) : Nat :=
  if g = 0 then 0 else ((groupMembers s g).findIdx? (fun x => decide (x = ownDevice s))).getD 0

/-- Device-level part numbers of layers, heads and positions that this device holds (R140). -/
def kvParts (s : State) (k : KvDesc) : Nat × Nat × Nat :=
  let m := memberIndex s k.group
  (m % k.layers.dparts, m / k.layers.dparts % k.heads.dparts, m / (k.layers.dparts * k.heads.dparts) % k.pos.dparts)

/-- The member that owns a position, layer and head (R141): its index in the group. -/
def kvMember (k : KvDesc) (l h p : Nat) : Nat :=
  devPart k.layers l + k.layers.dparts * (devPart k.heads h + k.heads.dparts * devPart k.pos p)

/-- Local layers Y, local heads H, local context limit C. -/
def kvLocal (s : State) (k : KvDesc) : Nat × Nat × Nat :=
  let p := kvParts s k
  (devExt k.layers p.1, devExt k.heads p.2.1, devExt k.pos p.2.2)

/-! ### Page geometry (R210, R211) -/

/-- Element size of the KV format: 1 BF16, 2 and 3 FP8 (Table 4.7 codes). -/
def kvElem (k : KvDesc) : Nat := if k.fmt = 1 then 2 else 1

def kvFmt (k : KvDesc) : Fmt := match k.fmt with | 1 => .bf16 | 2 => .e4m3 | _ => .e5m2

/-- Row stride S: the smallest power of two at least 128 and d × e. -/
def kvStride (k : KvDesc) : Nat :=
  ((List.range 5).map (fun i => 128 * 2 ^ i)).find? (fun x => decide (k.d * kvElem k ≤ x)) |>.getD 2048

/-- Frames per page F and positions per frame T. -/
def kvF (k : KvDesc) : Nat := kvStride k / 128
def kvT (k : KvDesc) : Nat := 32768 / kvStride k

/-- Groups per page-list block G (R216). -/
def kvG (s : State) (k : KvDesc) : Nat := let q := kvLocal s k; 8192 / (q.1 * q.2.1)

/-- Unit part of a local layer and head (R140): dimension 0 least significant. -/
def kvUnit (s : State) (k : KvDesc) (l h : Nat) : Nat :=
  let q := kvLocal s k
  partOf k.layers.ukind k.layers.uparts k.layers.ublock q.1 l
    + k.layers.uparts * partOf k.heads.ukind k.heads.uparts k.heads.ublock q.2.1 h

/-- How many unit parts the cache has. -/
def kvUnits (k : KvDesc) : Nat := k.layers.uparts * k.heads.uparts

/-! ### Orders and their pages -/

def orderOf (s : State) (o : Nat) : OrderRec := tget OrderRec.reset s.book.orders o

def modOrder (o : Nat) (f : OrderRec → OrderRec) (s : State) : State :=
  { s with book := { s.book with orders := tmod OrderRec.reset s.book.orders o f } }

def modelOf (s : State) (m : Nat) : Option ModelRec := tget Option.none s.book.models m

/-- The KV descriptor of an order's model. -/
def orderKv (s : State) (o : Nat) : Option KvDesc := (modelOf s (orderOf s o).model).bind (fun m => m.kv)

/-- The memory key of frame `f` of a page, from its first granule through the placement map. -/
def granuleKey (s : State) (g : Nat) : Option Nat :=
  (tget Option.none s.mem.map g).map (fun e => e.stack * 2 ^ 20 + e.frame)

/-- The frame key of local (layer, head), local page k, frame f of an order; none where the entry is not VALID. -/
def pageFrame (s : State) (o l h k f : Nat) : Option Nat :=
  match orderKv s o with
  | Option.none => Option.none
  | some kv =>
    let q := kvLocal s kv
    let e := tget 0 (orderOf s o).pages ((k * q.1 + l) * q.2.1 + h)
    if e = 0 then Option.none else granuleKey s (e - 1 + f)

/-- The byte key of the key row (kvSel 0) or value row (1) of a local position (R211). -/
def kvRowKey (s : State) (o l h p kvSel : Nat) : Option Nat :=
  match orderKv s o with
  | Option.none => Option.none
  | some kv =>
    (pageFrame s o l h (p / 256) (p % 256 / kvT kv)).map
      (fun fk => fk * 65536 + kvSel * 32768 + p % kvT kv * kvStride kv)

/-! ### Contexts -/

def ctxOf (s : State) (c : Nat) : Option CtxRec := tget Option.none s.sched.ctxs c

def modCtx (c : Nat) (f : CtxRec → CtxRec) (s : State) : State :=
  { s with sched := { s.sched with ctxs := tmod Option.none s.sched.ctxs c (fun x => x.map f) } }

/-- The order bound to slot `b` of a context's dispatch. -/
def slotOrder (s : State) (c b : Nat) : Option Nat := (ctxOf s c).bind (fun x => x.slots[b]?)

/-- A 16-byte batch table entry (Table 9.5). -/
def batchEntry (s : State) (c b : Nat) : List Byte :=
  match slotOrder s c b with
  | Option.none => leBytes 16 0
  | some o =>
    let st := (orderOf s o).step
    leBytes 8 ((st.map (fun x => x.t0)).getD 0 % 2 ^ 32 + (st.map (fun x => x.e)).getD 0 % 2 ^ 32 * 2 ^ 32)
      ++ leBytes 8 (o % 65536 + 65536)

/-- What lies at an offset of the KV aperture for a context (R232): none is a protection fault; otherwise the byte and its
poison. -/
def kvByte (s : State) (c off : Nat) : Option (Byte × Nat) :=
  let b := off / 2 ^ 36
  let r := off % 2 ^ 36
  if b = 63 then
    (if r < 4096 then some ((batchEntry s c (r / 16)).getD (r % 16) 0, 0) else Option.none)
  else match slotOrder s c b with
    | Option.none => Option.none
    | some o => match orderKv s o with
      | Option.none => Option.none
      | some kv =>
        let q := kvLocal s kv
        let fr := r / 65536
        let page := fr / kvF kv
        let P := cdiv q.2.2 256
        if q.2.1 * P = 0 then Option.none
        else if page / (q.2.1 * P) ≥ q.1 then Option.none
        else match pageFrame s o (page / (q.2.1 * P)) (page / P % q.2.1) (page % P) (fr % kvF kv) with
          | Option.none => some (0, 0)
          | some fk => let k := fk * 65536 + r % 65536
            some (if keyPoison s k = 0 then keyByte s k else 0, keyPoison s k)

/-! ### Windows and checked accesses (R76, R364) -/

def shopOf (s : State) (n : Nat) : ShopSt := tget ShopSt.reset s.shops n

def modShop (n : Nat) (f : ShopSt → ShopSt) (s : State) : State :=
  { s with shops := tmod ShopSt.reset s.shops n f }

/-- Does the stockroom range lie in windows of the context (R76)? -/
def winOk (s : State) (c n off len : Nat) : Bool :=
  let ws := (shopOf s n).windows.filter (fun w => decide (w.ctx = c))
  decide (off + len ≤ 0x180000) && (len == 0 ||
    (List.range ((off + len - 1) / 4096 + 1 - off / 4096)).all (fun i =>
      ws.any (fun w => decide (w.base ≤ off / 4096 + i ∧ off / 4096 + i < w.base + w.size))))

/-- Does any window of the context that covers the range still wait to be cleared (R77)? -/
def winClearing (s : State) (c n : Nat) : Bool :=
  (shopOf s n).windows.any (fun w => decide (w.ctx = c) && w.clearing)

/-- One byte of an address as a context's access reads it: none where Table 15.1 or R76 forbids the access. -/
def ctxByte (s : State) (c : Nat) (ten : Option Nat) (A : Nat) : Option (Byte × Nat) :=
  match resolve s ten A with
  | .kv off => kvByte s c off
  | .tally off =>
    if tallyAllowed s ten (off / 8) then some (BitVec.ofNat 8 (readTally s (off / 8) / 2 ^ (8 * (off % 8))), 0)
    else Option.none
  | .stockroom a =>
    if winOk s c ((a - 0x020000000000) / 0x200000) (a % 0x200000) 1 then byteAt s ten A else Option.none
  | _ => byteAt s ten A

/-- Is a read of the tally aperture of a width that R382 allows: an aligned 8-byte access, or 4 bytes of the value? -/
def tallyWidthOk (s : State) (ten : Option Nat) (A n : Nat) : Bool :=
  match resolve s ten A with
  | .tally off => decide (off % 8 = 0 ∧ (n = 8 ∨ n = 4))
  | _ => true

/-- Read a range as a context's access (R364): no counters. -/
def peekCtx (s : State) (c : Nat) (ten : Option Nat) (A n : Nat) : RdRes :=
  let l := (List.range n).map (fun i => ctxByte s c ten (A + i))
  { data := l.map (fun o => (o.getD (0, 0)).1)
    poison := l.foldl (fun p o => max p (o.getD (0, 0)).2) 0
    ok := l.all Option.isSome && tallyWidthOk s ten A n }

/-- Poison of each 64-byte-aligned piece of a range, as a mask from the first piece. -/
def poisonMask (s : State) (c : Nat) (ten : Option Nat) (A n : Nat) : Nat :=
  maskOf ((List.range ((A + n - 1) / 64 + 1 - A / 64)).filter (fun i =>
    let lo := max A ((A / 64 + i) * 64)
    let hi := min (A + n) ((A / 64 + i) * 64 + 64)
    decide ((peekCtx s c ten lo (hi - lo)).poison ≠ 0)))

/-- Read a range as a context's access, with the effects on the stacks it reads. -/
def readCtx (c : Nat) (ten : Option Nat) (A n : Nat) (s : State) : RdRes × State :=
  (peekCtx s c ten A n, readFx ten A n s)

/-- May a context write the range (R76, R364)? -/
def writeOk (s : State) (c : Nat) (ten : Option Nat) (A n : Nat) : Bool :=
  (List.range n).all (fun i => match resolve s ten (A + i) with
    | .stack _ | .warehouse _ | .host _ => true
    | .reduce _ _ => decide (A % 4 = 0 ∧ n % 4 = 0)
    | .stockroom a => winOk s c ((a - 0x020000000000) / 0x200000) (a % 0x200000) 1
    | .tally off => tallyAllowed s ten (off / 8) && decide (off % 8 = i % 8) && decide (n = 4 ∨ n = 8) && decide (A % 8 = 0)
    | _ => false)

/-- Write a range as a context's access whose right has been checked: memory, aliases, host memory, or a tally set (R382). -/
def writeCtx (ten : Option Nat) (A : Nat) (data : List Byte) (s : State) : State :=
  match resolve s ten A with
  | .tally off => storeTally (off / 8) (ofLeBytes (data.take 4)) s
  | _ => (writeDev ten A data s).1

end Sys2Proof.Machine
end

