-- ==== Sys2Proof/Machine/BalisOps.lean ====
section
/-! DEFINITION. Shared operations of the Balis fabric: routes, sending packets and requests, splitting a transfer, error
records (R401 to R409, R414). -/

namespace Sys2Proof.Machine

def portOf (s : State) (n : Nat) : PortSt := tget PortSt.reset s.bal.ports n

def modPort (n : Nat) (f : PortSt → PortSt) (s : State) : State :=
  { s with bal := { s.bal with ports := tmod PortSt.reset s.bal.ports n f } }

/-- BAR0 offset of a port's counter and of a device-wide one. -/
def blsC (n o : Nat) : Nat := 0x1000000 + n * 0x10000 + o
def blsD (o : Nat) : Nat := 0x1000000 + o

/-- Is a port up: ready, or sparing a lane? -/
def portUp (s : State) (n : Nat) : Bool := (portOf s n).state == 3 || (portOf s n).state == 5

/-- The up ports of the route entry of a device, in ascending order (R406). -/
def routePorts (s : State) (dev : Nat) : List Nat :=
  let w := inForce s (0x1008018 + dev * 2 ^ 32)
  (bitList w 16).filter (portUp s)

/-- The port a packet takes: port number h mod (number of up ports), where h hashes DST and ADDR[47:10], or the tally for
SIGNAL (R406). -/
def routePort (s : State) (p : Packet) : Option Nat :=
  let ps := routePorts s p.dst
  if ps.isEmpty then none
  else ps[Config.routeHash p.dst (if p.typ = 7 then p.addr else p.addr / 1024) % ps.length]?

/-- Record an error of a port in BLS_ERR (Table 16.12): type, cause, device, tenant. -/
def portErr (n typ cause dev ten : Nat) (s : State) : State :=
  modPort n (fun p => if p.err.isSome then { p with errOver := true } else { p with err := some [typ, cause, dev, ten] }) s

/-- Class of a packet type (Table 16.5): 0 RSP, 1 CPL, 2 REQ, 3 BULK. -/
def packetClass (typ : Nat) : Nat :=
  if typ = 2 ∨ typ = 6 then 0 else if typ = 3 ∨ typ = 0xA then 3 else if ([1, 5, 7, 9, 0xB] : List Nat).contains typ then 2 else 1

/-- Beats of a packet: its header and its data. -/
def packetBeats (p : Packet) : Nat := 1 + (p.data.length + 31) / 32

/-- Key of the credits that a packet takes now (R403): the shared pool while it has them, otherwise its class's buffer of its VC;
none while neither has them. -/
def creditKey (x : PortSt) (p : Packet) : Option Nat :=
  let b := packetBeats p
  let k := packetClass p.typ * 8 + p.vc
  let cap := if packetClass p.typ = 0 ∨ packetClass p.typ = 3 then 33 else 1
  if tget 0 x.credits 64 + b ≤ 4096 then some 64
  else if tget 0 x.credits k + b ≤ cap then some k
  else none

/-- Send the waiting packets of a port that have credit, in the order RSP, CPL, REQ, BULK and oldest first in each class; a port without signal
sends nothing (R403, R404, R421). -/
def drainPort : Nat → Nat → State → State
  | 0, _, s => s
  | k + 1, n, s =>
    let x := portOf s n
    if !portUp s n || x.lostAt.isSome then s
    else
      let pick := ([0, 1, 2, 3] : List Nat).findSome? (fun c =>
        (x.queue.zipIdx.find? (fun q => decide (packetClass q.1.typ = c))).bind (fun q => (creditKey x q.1).map (fun key => (q.1, q.2, key))))
      match pick with
      | none => s
      | some (p, i, key) =>
        let s1 := modPort n (fun x => { x with
          queue := x.queue.eraseIdx i, credits := tset 0 x.credits key (tget 0 x.credits key + packetBeats p) }) s
        drainPort k n (bump (blsC n 0x100) (packetBeats p) { s1 with bal := { s1.bal with out := s1.bal.out ++ [(n, p)] } })

/-- Hand a packet to a port. -/
def sendPacket (n : Nat) (p : Packet) (s : State) : State :=
  let s1 := modPort n (fun x => { x with queue := x.queue ++ [p] }) s
  drainPort (portOf s1 n).queue.length n s1

/-- Counter of a request type sent. -/
def reqCounter (typ : Nat) : Option Nat :=
  match typ with
  | 1 => some 0x8100 | 3 => some 0x8108 | 5 => some 0x8110 | 7 => some 0x8118 | _ => none

/-- Does a request overlap, by a sector, an earlier unanswered request of the same issuer of another class (R407)? -/
def overlapsReq (s : State) (r : BReq) : Bool :=
  let len := fun (q : Packet) => max (q.beats * 32) 8
  s.bal.reqs.any (fun q => decide (q.id < r.id ∧ q.issuer = r.issuer ∧ q.pkt.dst = r.pkt.dst ∧ packetClass q.pkt.typ ≠ packetClass r.pkt.typ
    ∧ q.pkt.addr / 64 ≤ (r.pkt.addr + len r.pkt - 1) / 64 ∧ r.pkt.addr / 64 ≤ (q.pkt.addr + len q.pkt - 1) / 64))

/-- Requests of a port that hold a tag. -/
def sentOn (s : State) (n : Nat) : List BReq := s.bal.reqs.filter (fun q => !q.held && decide (q.pkt.port = n))

/-- Bytes of a port's response buffer that a request reserves (R404). -/
def respBytes (p : Packet) : Nat := if p.typ = 1 then p.beats * 32 else if p.typ = 5 then 32 else 0

def modReq (id : Nat) (f : BReq → BReq) (s : State) : State :=
  { s with bal := { s.bal with reqs := s.bal.reqs.map (fun r => if r.id = id then f r else r) } }

/-- Send a held request when nothing holds it: no overlap (R407), a port up on its route (R406), a free tag and response space there (R404). -/
def trySend (id : Nat) (s : State) : State :=
  match s.bal.reqs.find? (fun r => decide (r.id = id) && r.held) with
  | none => s
  | some r =>
    match routePort s r.pkt with
    | none => s
    | some n =>
      let on := sentOn s n
      match (List.range 4096).find? (fun t => on.all (fun q => decide (q.pkt.tag ≠ t))) with
      | none => s
      | some tag =>
        if overlapsReq s r || decide ((on.map (fun q => respBytes q.pkt)).sum + respBytes r.pkt > 524288) then s
        else
          let pk := { r.pkt with tag := tag, port := n }
          let s1 := modReq id (fun r => { r with pkt := pk, held := false, sent := s.now }) s
          sendPacket n pk (match (if r.again || r.busySince.isSome then none else reqCounter r.pkt.typ) with | some o => bump (blsD o) 1 s1 | none => s1)

/-- Send every held request that may go, oldest first. -/
def pumpReqs (s : State) : State :=
  ((s.bal.reqs.filter (fun r => r.held)).map (fun r => r.id)).foldl (fun s id => trySend id s) s

/-- Issue a request: sent at once, or held for R404, R406 or R407. -/
def sendReq (p : Packet) (ten : Option Nat) (ctx : Nat) (iss : Issuer) (off : Nat) (s : State) : State :=
  let id := s.bal.nextId
  let pk := { p with src := ownDevice s, tenant := ten.getD 0 }
  trySend id { s with bal := { s.bal with
    reqs := s.bal.reqs ++ [⟨id, pk, ten, ctx, iss, off, s.now, false, none, 0, none, true⟩], nextId := id + 1 } }

/-- A packet with the fields that most requests use. -/
def mkPacket (typ dst addr beats arg : Nat) (data : List Byte) : Packet :=
  ⟨typ, 0, dst, 0, 0, 0, addr, 0, 0, arg, 0, beats, data⟩

/-- The pieces of a range at 1 KiB-aligned boundaries (R409): offset and length. -/
def piecesOf (addr len : Nat) : List (Nat × Nat) :=
  if len = 0 then []
  else (List.range ((addr + len - 1) / 1024 + 1 - addr / 1024)).map (fun i =>
    let lo := max addr ((addr / 1024 + i) * 1024)
    let hi := min (addr + len) ((addr / 1024 + i) * 1024 + 1024)
    (lo - addr, hi - lo))

/-- Requests to read a remote range; the ids are those from nextId on. -/
def readRemote (dev addr len : Nat) (ten : Option Nat) (ctx : Nat) (iss : Issuer) (s : State) : State :=
  (piecesOf addr len).foldl (fun s p => sendReq (mkPacket 1 dev (addr + p.1) (cdiv p.2 32) 0 []) ten ctx iss p.1 s) s

/-- Requests to write a remote range, with the OP and ARG2 of a row delivery (log entry 12, DESIGN CHOICE). -/
def writeRemoteAs (op arg2 dev addr : Nat) (data : List Byte) (ten : Option Nat) (ctx : Nat) (iss : Issuer) (s : State) : State :=
  (piecesOf addr data.length).foldl (fun s p =>
    sendReq { mkPacket 3 dev (addr + p.1) (cdiv p.2 32) 0 ((data.drop p.1).take p.2) with op := op, arg2 := arg2 } ten ctx iss p.1 s) s

/-- Requests to write a remote range. -/
def writeRemote (dev addr : Nat) (data : List Byte) (ten : Option Nat) (ctx : Nat) (iss : Issuer) (s : State) : State :=
  writeRemoteAs 0 0 dev addr data ten ctx iss s

/-- Signal a tally for work: through its relay when it has one (R414), and otherwise locally (R378). -/
def signalWork (ctx : Nat) (ten : Option Nat) (t i : Nat) (s : State) : State :=
  match tget none s.tal.relays t with
  | none => signalTally t i s
  | some (g, m, tt) =>
    let seq := s.tal.sentSeq
    let s1 := { s with tal := { s.tal with sent := s.tal.sent ++ [⟨seq, ten, ctx, g, m, tt, i % 2 ^ 32⟩], sentSeq := seq + 1 } }
    sendReq (mkPacket 7 ((groupMembers s g)[m]?.getD 0) tt 0 (i % 2 ^ 32) []) ten ctx (.relay seq) 0 s1

/-! ### Control messages to group members (R219, R264, R289, R417) -/

/-- Queue a message for the other members of an order's group: sent at step 3 of the boundary. -/
def groupTell (g : Nat) (msg : List Nat) (s : State) : State :=
  if g = 0 then s else { s with bal := { s.bal with ctrlOut := s.bal.ctrlOut ++ [(g, msg)] } }

/-- The group of an order's cache; 0 for none. -/
def orderGroup (s : State) (o : Nat) : Nat := ((orderKv s o).map (fun kv => kv.group)).getD 0

/-- Send a CTRL message to every other member of a group: the code in ARG, the words as data. -/
def sendCtrl (g code : Nat) (words : List Nat) (s : State) : State :=
  ((groupMembers s g).filter (fun d => decide (d ≠ ownDevice s))).foldl (fun s d =>
    sendReq (mkPacket 0xB d 0 (cdiv (8 * words.length) 32) code (words.flatMap (leBytes 8))) none 0 .control 0 s) s

/-- Step 3 of a boundary: the queued messages go out; a message's first word is its code. -/
def flushCtrl (s : State) : State :=
  s.bal.ctrlOut.foldl (fun s m => sendCtrl m.1 (m.2.headD 0) (m.2.drop 1) s) { s with bal := { s.bal with ctrlOut := [] } }

/-! ### Collective instances -/

def collWord (c : CollSt) (i : Nat) : Nat := (c.words[i]?).getD 0
def collOp (c : CollSt) : Nat := bitsOf (collWord c 0) 2 0
def collGroup (c : CollSt) : Nat := bitsOf (collWord c 0) 21 10
def collQuarter (c : CollSt) : Nat := bitsOf (collWord c 0) 35 34
def collNum (c : CollSt) : Nat := bitsOf (collWord c 1) 63 40
def collE (c : CollSt) : Nat := bitsOf (collWord c 1) 39 0

/-- The word that names an instance on every member (log entry 42, DESIGN CHOICE): group, COLLNUM, number. -/
def collKey (c : CollSt) : Nat := collGroup c + collNum c * 2 ^ 12 + c.seq % 2 ^ 28 * 2 ^ 36

/-- Instances end without completing: each sends CTRL abort to every member, and its outstanding requests are forgotten (R417, R404). -/
def dropColls (p : CollSt → Bool) (tell : Bool) (s : State) : State :=
  (s.bal.colls.filter p).foldl (fun s c =>
    let s1 := if tell && c.started then sendCtrl (collGroup c) 1 [collKey c] s else s
    { s1 with
      bal := { s1.bal with colls := s1.bal.colls.filter (fun x => decide (x.id ≠ c.id))
                           reqs := s1.bal.reqs.filter (fun r => decide (r.issuer ≠ .collective c.id)) }
      tal := { s1.tal with waits := s1.tal.waits.filter (fun w => decide (w.who ≠ .collective c.id)) } }) s

end Sys2Proof.Machine
end

