-- ==== Sys2Proof/Machine/ShopOps.lean ====
section
/-! DEFINITION. Shared operations of the shops: charges and tile starts (R325 to R332), work faults and the end of a
context (R129, R134), windows (R76, R77, R118), sheets, tokens and engine queues (R112 to R123). -/

namespace Sys2Proof.Machine

/-! ### Charges and candidates -/

/-- Clock factor of Table 13.3 in 1/100,000, interpolated linearly between the listed clocks (R326); clock in 50 MHz
units. -/
def clockFactor (f : Nat) : Nat :=
  if f ≤ 12 then 42000
  else if f ≤ 20 then 42000 + (f - 12) * 1000
  else if f ≤ 28 then 50000 + (f - 20) * 1750
  else if f ≤ 36 then 64000 + (f - 28) * 2625
  else if f ≤ 40 then 85000 + (f - 36) * 3750
  else 100000 + (min f 44 - 40) * 4750

/-- The clock in force of a quarter, in 50 MHz units: 0.6 GHz under the clamp (R338). -/
def quarterClock (s : State) (q : Nat) : Nat := if s.sched.clamped then 12 else tget 40 s.sched.clk q

/-- The charge of one tile of a candidate at a clock, with the correction factor (R325, R339), pJ. Stack work and copies do
not depend on the clock (R326). -/
def chargeOf (s : State) (c : Cand) (clk : Nat) : Nat :=
  match c.kind with
  | .sheet | .ticket | .collective => c.energy * clockFactor clk * s.sched.corr / (100000 * 128)
  | .invocation => c.energy * max 1 c.gang.length * s.sched.corr / 128
  | .copy => c.energy * s.sched.corr / 128

/-- Activity energy of a shop, in units of 10 fJ at 2.0 GHz (Table 13.4): counted for the bell under kind 5 and for its quarter (R351,
Table 21.2), at the clock in force. -/
def shopActivity (n e : Nat) (s : State) : State :=
  let x := e * clockFactor (quarterClock s (shopQuarter n)) / 100000
  bumpBell 5 n 0 x (bumpBell 1 (shopQuarter n) 0 x s)

/-- Bytes through a shop's network port. -/
def portBytes (n k : Nat) (s : State) : State := bumpBell 2 n 2 k (shopActivity n (236 * k) s)

/-- Change one candidate by id. -/
def modCand (id : Nat) (f : Cand → Cand) (s : State) : State :=
  { s with sched := { s.sched with cands := s.sched.cands.map (fun c => if c.id = id then f c else c) } }

/-- The candidate of a sheet of a context on a shop, or of a ticket of a list. -/
def sheetCand (s : State) (ctx addr : Nat) : Option Cand :=
  s.sched.cands.find? (fun c => decide (c.kind = .sheet ∧ c.ctx = some ctx ∧ c.addr = addr))

def ticketCand (s : State) (ctx addr idx : Nat) : Option Cand :=
  s.sched.cands.find? (fun c => decide (c.kind = .ticket ∧ c.ctx = some ctx ∧ c.addr = addr ∧ c.idx = idx))

/-- A tile of a candidate starts on a unit: its admission is used and the tile runs (R332, R328). -/
def tileStarts (c : Cand) (unitKind unit clk : Nat) (s : State) : State :=
  let dur := if unitKind ≠ 1 then c.cycles * 20 / clk else c.cycles
  modCand c.id (fun c => { c with started := c.started + 1, admitted := c.admitted - 1 })
    { s with sched := { s.sched with running := s.sched.running ++ [⟨c.id, unitKind, unit, chargeOf s c clk, s.now, s.now + dur⟩] } }

/-- A running tile of a candidate on a unit ends. -/
def tileEnds (id unitKind unit : Nat) (s : State) : State :=
  match s.sched.running.findIdx? (fun r => decide (r.cand = id ∧ r.unitKind = unitKind ∧ r.unit = unit)) with
  | some i => { s with sched := { s.sched with running := s.sched.running.eraseIdx i } }
  | none => s

/-- All of a candidate's tiles have started and ended, or it is dropped: it leaves the list. -/
def candGone (id : Nat) (s : State) : State :=
  { s with sched := { s.sched with cands := s.sched.cands.filter (fun c => decide (c.id ≠ id)) } }

/-! ### Shops, engines, banks -/

def shopPresent (s : State) (n : Nat) : Bool := decide (n < 320) && (shopOf s n).state == 0

def benchOf (s : State) (b : Nat) : BenchSt := tget BenchSt.reset s.benches b

def modBench (b : Nat) (f : BenchSt → BenchSt) (s : State) : State :=
  { s with benches := tmod BenchSt.reset s.benches b f }

def engOf (s : State) (n e : Nat) : EngSt := ((shopOf s n).engines[e]?).getD EngSt.reset

def modEng (n e : Nat) (f : EngSt → EngSt) (s : State) : State :=
  modShop n (fun sh => { sh with engines := sh.engines.set e (f ((sh.engines[e]?).getD EngSt.reset)) }) s

def bankOf (s : State) (n b : Nat) : SheetBank := ((shopOf s n).banks[b]?).getD SheetBank.reset

def modBank (n b : Nat) (f : SheetBank → SheetBank) (s : State) : State :=
  modShop n (fun sh => { sh with banks := sh.banks.set b (f ((sh.banks[b]?).getD SheetBank.reset)) }) s

def modList (n id : Nat) (f : TicketList → TicketList) (s : State) : State :=
  modShop n (fun sh => { sh with lists := sh.lists.map (fun l => if l.id = id then f l else l) }) s

def modArray (n : Nat) (f : ArraySt → ArraySt) (s : State) : State :=
  modShop n (fun sh => { sh with array := f sh.array }) s

/-- Index of the token counter of producer p and consumer c (R114). -/
def tokIdx (p c : Nat) : Nat := if c < p then 4 * p + c else 4 * p + c - 1

/-- The first run of an engine that is not done and has an opcode. -/
def activeRun (s : State) (n e op : Nat) : Option Run :=
  (engOf s n e).runs.find? (fun r => !r.done && r.cmd.opcode == op)

/-- Change the first run of an engine that is not done and has an opcode. -/
def modRun (n e op : Nat) (f : Run → Run) (s : State) : State :=
  modEng n e (fun g => match g.runs.findIdx? (fun r => !r.done && r.cmd.opcode == op) with
    | some i => { g with runs := g.runs.modify i f }
    | none => g) s

/-- The operation of a command is done: it may complete. -/
def runDone (n e op : Nat) (s : State) : State := modRun n e op (fun r => { r with done := true }) s

/-! ### Windows (R76, R77, R118) -/

/-- The owner code of a tenant for the granule record of R77. -/
def ownerCode (ten : Option Nat) : Nat := match ten with | some t => t + 1 | none => 4097

/-- Window requests with a nonzero size, from window-request words. -/
def windowReqs (ws : List Nat) : List (Nat × Nat) :=
  (ws.map (fun w => (bitsOf w 8 0, bitsOf w 17 9))).filter (fun p => decide (p.2 ≠ 0))

/-- Can the requests be granted (R118): enough windows unheld, none overlapping a window of another tenant's context? -/
def grantable (s : State) (n : Nat) (ten : Option Nat) (reqs : List (Nat × Nat)) : Bool :=
  let ws := (shopOf s n).windows
  decide (ws.length + reqs.length ≤ 16) &&
    reqs.all (fun r => ws.all (fun w => decide (w.tenant = ten) || decide (r.1 + r.2 ≤ w.base ∨ w.base + w.size ≤ r.1)))

/-- Grant window requests to a context: a window over a granule last owned by another tenant starts to be cleared (R77). -/
def grant (n ctx : Nat) (ten : Option Nat) (holder : Nat) (reqs : List (Nat × Nat)) (s : State) : State :=
  modShop n (fun sh =>
    let dirty := fun (r : Nat × Nat) => (List.range r.2).any (fun i =>
      let o := tget 0 sh.owner (r.1 + i); decide (o ≠ 0 ∧ o ≠ ownerCode ten))
    let clean := reqs.filter (fun r => !dirty r)
    { sh with
      windows := sh.windows ++ reqs.map (fun r => ⟨ctx, ten, r.1, r.2, dirty r, holder⟩)
      owner := clean.foldl (fun t r => (List.range r.2).foldl (fun t i => tset 0 t (r.1 + i) (ownerCode ten)) t) sh.owner }) s

/-- Release the windows of a holder. -/
def releaseWindows (n ctx holder : Nat) (s : State) : State :=
  modShop n (fun sh => { sh with windows := sh.windows.filter (fun w => !(decide (w.ctx = ctx) && decide (w.holder = holder))) }) s

/-! ### The end of a context on a shop (R129) and work faults (R134) -/

/-- A running launch's benches are abandoned (R104); issued stores stand. -/
def abandonBenches (n : Nat) (p : Nat → Bool) (s : State) : State :=
  { s with benches := tmap BenchSt.reset s.benches (fun k b =>
      if k / 256 = n ∧ (b.launch.map p).getD false then
        { b with launch := none, loop := none, out := [], fence := [], sigs := [], wait := .run } else b) }

/-- Clear both weight buffers and the pass tag (R81 step 2), when the array is released (R73). -/
def arrayCleared (a : ArraySt) : ArraySt := { a with weights := [], rows := [], tag := 0, passes := [], count := 0 }

/-- End a context's work on one shop (R129): queued commands are discarded, running ones ended, banks, pre-empted sheets,
lists and windows freed; nothing is signalled. -/
def cancelShop (c n : Nat) (s : State) : State :=
  let sh := shopOf s n
  let touchesArray := sh.array.passes.any (fun p => decide (p.cmd.ctx = c))
  let keepL := sh.launches.filter (fun l => decide (l.cmd.ctx ≠ c))
  let gone := fun (i : Nat) => ((sh.launches[i]?).map (fun l => decide (l.cmd.ctx = c))).getD false
  let renum := fun (i : Nat) => ((sh.launches.take i).filter (fun l => decide (l.cmd.ctx ≠ c))).length
  let s1 := abandonBenches n gone s
  let s2 := { s1 with benches := tmap BenchSt.reset s1.benches (fun k b =>
      if k / 256 = n then { b with launch := b.launch.map renum } else b) }
  let s3 := modShop n (fun sh => { sh with
    engines := sh.engines.map (fun e => ⟨e.queue.filter (fun x => decide (x.ctx ≠ c)), e.runs.filter (fun x => decide (x.cmd.ctx ≠ c))⟩)
    banks := sh.banks.map (fun b => if b.st ≠ 0 ∧ b.ctx = c then SheetBank.reset else b)
    loads := sh.loads.filter (fun l => decide (l.ctx ≠ c))
    lists := sh.lists.filter (fun l => decide (l.ctx ≠ c))
    preempted := sh.preempted.filter (fun p => decide (p.ctx ≠ c))
    windows := sh.windows.filter (fun w => decide (w.ctx ≠ c))
    launches := keepL
    array := if touchesArray then arrayCleared sh.array else sh.array }) s2
  let waiter := fun (w : TallyWait) => match w.who with
    | .bench b => decide (b / 256 = n)
    | .sheet k => decide (k / 2 = n)
    | .ticket m _ => decide (m = n)
    | .invocation _ _ | .collective _ => false
  { s3 with
    tal := { s3.tal with waits := s3.tal.waits.filter (fun w => !(decide (w.ctx = c) && waiter w)) }
    sched := { s3.sched with running := s3.sched.running.filter (fun r => !(decide (r.unitKind = 0 ∧ r.unit = n)
      && s3.sched.cands.any (fun k => decide (k.id = r.cand ∧ k.ctx = some c)))) } }

/-- Free a context tag whose work has ended everywhere: its candidates go (R588). -/
def freeCtx (c : Nat) (s : State) : State :=
  { s with sched := { s.sched with
      cands := s.sched.cands.filter (fun k => decide (k.ctx ≠ some c))
      ctxs := tset none s.sched.ctxs c none } }

/-- The WORK event records of a fault (R134): to the tenant of the context and to the operator. -/
def workEvents (c code sub eng templ ticket unit : Nat) (s : State) : State :=
  let x := ctxOf s c
  let tag := (x.map (fun x => if x.order.isSome then 0 else x.tag)).getD 0
  let ord := x.bind (fun x => x.order)
  let r := mkRec s 0x04 0x01 code tag ord
    [sub % 16 + eng % 8 * 2 ^ 4 + templ % 32 * 2 ^ 7 + ticket % 65536 * 2 ^ 12, unit, c % 65536]
  let s1 := match x.bind (fun x => x.tenant) with
    | some t => bumpTenant (some t) 9 1 (emit t r s)
    | none => s
  emit opRing r s1

/-- The work of a context ends with a fault: its order faults at the boundary, and every other unit ends it there (R134). -/
def ctxFaults (c code sub : Nat) (s : State) : State :=
  let x := ctxOf s c
  let s1 := modCtx c (fun x => { x with fault := some (x.fault.getD (code, sub)) }) s
  let s2 := { s1 with sched := { s1.sched with ending := s1.sched.ending ++ [(c, code, sub)] } }
  match x.bind (fun x => x.order) with
  | some _ => ((x.map (fun x => x.slots)).getD []).foldl (fun s o =>
      modOrder o (fun r => { r with faultPend := some (r.faultPend.getD (1, code, sub)) }) s) s2
  | none => s2

/-- A work fault of a shop (R134): recorded first-come in SHOP_WORK_FAULT, counted, reported; the context's work on the
shop ends. -/
def workFault (n code sub eng c templ ticket : Nat) (s : State) : State :=
  let s1 := bump (shopC n 0x170) 1 (modShop n (fun sh =>
    if sh.fault.isSome then { sh with faultOver := true } else { sh with fault := some [code, sub, eng, c, templ, ticket] }) s)
  let s2 := workEvents c code sub eng templ ticket (unitWord 2 n 0) s1
  cancelShop c n (ctxFaults c code sub s2)

/-- Template number and list index of a command, as a fault record names them (Table 5.13). -/
def srcTempl : CmdSrc → Nat | .templ _ t _ => t | .ticket _ _ => 0x1F
def srcTicket : CmdSrc → Nat | .templ _ _ _ => 0 | .ticket _ i => i

/-- A fault of an engine command. -/
def cmdFault (n : Nat) (c : Cmd) (code sub : Nat) (s : State) : State :=
  workFault n code sub c.engine c.ctx (srcTempl c.src) (srcTicket c.src) s

/-! ### Command bodies (Tables 5.5 and 5.6) -/

/-- A field of a body word. -/
def bf (b : List Nat) (w hi lo : Nat) : Nat := bitsOf ((b[w]?).getD 0) hi lo

/-- Do ENGINE and OPCODE match (Table 5.5)? -/
def opOk (eng op : Nat) : Bool :=
  decide (eng < 5) && (op == 0 || match eng with
    | 0 => op == 1 || op == 2
    | 1 => op == 0x10
    | 2 => op == 0x20 || op == 0x21
    | 3 => op == 0x30 || op == 0x31
    | _ => op == 0x40 || op == 0x41 || op == 0x42)

/-- The bits of each body word that an opcode's fields use; the rest are reserved (R124). -/
def bodyMask (op : Nat) : List Nat :=
  let m := fun (l : List (Nat × Nat)) => (l.map (fun p => 2 ^ (p.1 + 1) - 2 ^ p.2)).sum
  match op with
  | 0 => [m [(7, 0)], 0, 0, 0, 0]
  | 1 => [m [(63, 0)], m [(41, 0)], m [(63, 0)], m [(15, 0)], 0]
  | 2 => [m [(63, 0)], m [(45, 0)], m [(63, 0)], m [(15, 0)], m [(20, 0)]]
  | 0x10 => [m [(62, 0)], m [(62, 0)], m [(47, 0)], m [(45, 0)], 0]
  | 0x20 => [m [(63, 0)], m [(4, 0), (31, 16)], 0, 0, 0]
  | 0x21 => [m [(63, 0)], m [(47, 0)], m [(44, 0)], 0, 0]
  | 0x30 => [m [(63, 0)], m [(56, 0)], m [(31, 0)], m [(39, 0)], 0]
  | 0x31 => [m [(31, 0)], m [(51, 0)], m [(37, 0)], 0, 0]
  | 0x40 | 0x41 | 0x42 => [m [(62, 0)], m [(20, 0)], m [(30, 0)], 0, 0]
  | _ => [0, 0, 0, 0, 0]

/-- Are the reserved bits of a body zero? -/
def bodyOk (op : Nat) (b : List Nat) : Bool :=
  (b.zip (bodyMask op)).all (fun p => (List.range 64).all (fun i => !(bitOf p.1 i && !bitOf p.2 i))) && decide (b.length = 5)

/-- Where operands A to D lie (Table 5.5): word, high and low bit. -/
def operandField (op k : Nat) : Option (Nat × Nat × Nat) :=
  match op, k with
  | 1, 0 | 2, 0 | 0x20, 0 | 0x21, 0 | 0x30, 0 => some (0, 63, 0)
  | 1, 1 | 2, 1 | 0x30, 1 => some (1, 20, 0)
  | 2, 2 => some (4, 20, 0)
  | 0x10, 0 | 0x40, 0 | 0x41, 0 | 0x42, 0 => some (0, 20, 0)
  | 0x10, 1 | 0x40, 1 | 0x41, 1 | 0x42, 1 => some (0, 41, 21)
  | 0x10, 2 | 0x41, 2 | 0x42, 2 => some (0, 62, 42)
  | 0x10, 3 => some (1, 20, 0)
  | 0x31, 0 => some (1, 20, 0)
  | 0x31, 1 => some (2, 35, 28)
  | 0x31, 2 => some (0, 31, 0)
  | _, _ => none

/-! ### Sheet images and the loop nest (R119 to R123) -/

def hdrLevels (r : List Nat) : Nat := bitsOf ((r[1]?).getD 0) 2 0
def hdrTile (r : List Nat) : Nat := bitsOf ((r[1]?).getD 0) 6 4
def hdrTempl (r : List Nat) : Nat := bitsOf ((r[1]?).getD 0) 12 8
def lvlCount (r : List Nat) (l : Nat) : Nat := ((r[8 + l]?).getD 0) % 2 ^ 20
def templCtl (r : List Nat) (t : Nat) : Nat := (r[96 + 6 * t]?).getD 0
def templBody (r : List Nat) (t : Nat) : List Nat := (r.drop (96 + 6 * t + 1)).take 5

/-- Does a template's condition hold at the current indices (Table 5.4)? -/
def condOk (r : List Nat) (idx : List Nat) (w : Nat) : Bool :=
  let pl := bitsOf w 25 23
  let i := (idx[pl]?).getD 0
  match bitsOf w 22 20 with
  | 0 => true
  | 1 => i == 0
  | 2 => i != 0
  | 3 => i + 1 == lvlCount r pl
  | 4 => i + 1 != lvlCount r pl
  | _ => false

/-- Walk the nest from a position to the next emission at or after it. -/
def nextEmission (r : List Nat) : Nat → Cursor → Option Cursor
  | 0, _ => none
  | fuel + 1, c =>
    match ((List.range (hdrTempl r)).drop c.templ).find? (fun t =>
        let w := templCtl r t
        decide (bitsOf w 18 16 = c.level ∧ bitsOf w 19 19 = c.phase) && condOk r c.idx w) with
    | some t => some { c with templ := t }
    | none =>
      if c.phase = 0 then
        if c.level + 1 < hdrLevels r then
          nextEmission r fuel ⟨c.idx.set (c.level + 1) 0, c.level + 1, 0, 0⟩
        else nextEmission r fuel { c with phase := 1, templ := 0 }
      else if (c.idx[c.level]?).getD 0 + 1 < lvlCount r c.level then
        nextEmission r fuel ⟨c.idx.set c.level ((c.idx[c.level]?).getD 0 + 1), c.level, 0, 0⟩
      else if c.level = 0 then none
      else nextEmission r fuel ⟨c.idx.set c.level 0, c.level - 1, 1, 0⟩

/-- Steps that suffice to walk a whole nest. -/
def nestFuel (r : List Nat) : Nat :=
  32 * ((List.range (hdrLevels r)).map (lvlCount r)).foldl (· * ·) 1 + 32

/-- Product of the counts of levels a to b. -/
def countProd (r : List Nat) (a b : Nat) : Nat :=
  ((List.range (b + 1 - a)).map (fun i => lvlCount r (a + i))).foldl (· * ·) 1

/-- The tile a position belongs to (R123). -/
def tileNum (r : List Nat) (c : Cursor) : Nat :=
  let base := (List.range (hdrTile r + 1)).foldl (fun a l => a * lvlCount r l + (c.idx[l]?).getD 0) 0
  if c.level < hdrTile r ∧ c.phase = 1 then base + countProd r (c.level + 1) (hdrTile r) - 1 else base

/-- The position at which a tile's first command may stand: the outermost level whose inner indices, down to the tile
level, are all zero (R127). -/
def tileCursor (r : List Nat) (idx : List Nat) : Cursor :=
  let t := hdrTile r
  let outer := ((List.range (t + 1)).find? (fun l =>
    (List.range (t - l)).all (fun i => decide ((idx[l + 1 + i]?).getD 0 = 0)))).getD t
  ⟨idx, outer, 0, 0⟩

/-- A stream's value at a point of the nest (R120), modulo 2^64. -/
def streamValue (r : List Nat) (idx : List Nat) (st : Nat) : Nat :=
  let w := fun (i : Nat) => (r[16 + 12 * st + i]?).getD 0
  let d : Int := ((List.range (hdrLevels r)).map (fun (l : Nat) => Int.ofNat ((idx[l]?).getD 0) * signedOf 64 (w (2 + l)))).sum
  let d64 := signedOf 64 (codeOf 64 d)
  let m := bitsOf (w 1) 63 32
  let dd : Int := if m = 0 then d64 else d64 % (m : Int)
  codeOf 64 ((w 0 : Int) + dd)

/-- The command that template t makes at a point of the nest (R120, R121). -/
def makeCmd (b : SheetBank) (bank : Nat) (c : Cursor) : Cmd :=
  let r := b.regs
  let w := templCtl r c.templ
  let op := bitsOf w 15 8
  let step := fun (acc : List Nat × Bool × List (Nat × Nat)) (k : Nat) =>
    let src := bitsOf w (38 + 3 * k) (36 + 3 * k)
    match operandField op k with
    | some (wd, hi, lo) =>
      if src ≥ 4 then
        let v := streamValue r c.idx (src % 4)
        let sum := (v + bf acc.1 wd hi lo) % 2 ^ 64
        let space := bitsOf ((r[16 + 12 * (src % 4) + 1]?).getD 0) 1 0
        (acc.1.modify wd (fun x => setBits x hi lo sum), acc.2.1 || decide (sum ≥ 2 ^ (hi + 1 - lo)), acc.2.2 ++ [(sum, space)])
      else acc
    | none => acc
  let res := (List.range 4).foldl step (templBody r c.templ, false, [])
  { engine := bitsOf w 2 0, opcode := op, ctx := b.ctx, lc := b.lc, tenant := b.tenant
    cvt := bitsOf ((r[1]?).getD 0) 19 16, seed := bitsOf ((r[1]?).getD 0) 63 32
    body := res.1, waits := bitsOf w 30 26, posts := bitsOf w 35 31
    src := .templ bank c.templ (tileNum r c), overflow := res.2.1, checks := res.2.2 }

/-- Is an image acceptable (R122)? The registers are the image's 256 words; the bytes are its 2,048 bytes. -/
def imageOk (bytes : List Byte) (r : List Nat) : Bool :=
  let w := fun (i : Nat) => (r[i]?).getD 0
  let zero := fun (i hi lo : Nat) => bitsOf (w i) hi lo == 0
  let nl := hdrLevels r
  let nt := hdrTempl r
  let used := (List.range nt).map (templCtl r)
  let stUsed := fun (st : Nat) => used.any (fun c => (List.range 4).any (fun k => bitsOf c (38 + 3 * k) (36 + 3 * k) == 4 + st))
  bitsOf (w 0) 31 0 == 0x54454853 && bitsOf (w 0) 39 32 == 0xA1 && bitsOf (w 0) 47 40 == 1 && zero 0 63 48
  && (crc32 (bytes.drop 64)).toNat == bitsOf (w 4) 63 32
  && zero 1 3 3 && zero 1 7 7 && zero 1 15 13 && zero 1 31 20 && w 5 == 0 && w 6 == 0 && w 7 == 0 && w 15 == 0
  && decide (1 ≤ nl ∧ nl ≤ 7 ∧ hdrTile r < nl ∧ 1 ≤ nt ∧ nt ≤ 26)
  && (List.range 7).all (fun l => zero (8 + l) 63 20 && (if l < nl then lvlCount r l != 0 else w (8 + l) == 0))
  && bitsOf (w 4) 31 0 == countProd r 0 (hdrTile r)
  && decide (bitsOf (w 3) 31 0 ≤ 40000) && w 2 != 0 && w 2 % 64 == 0
  && (List.range 4).all (fun st => let b := 16 + 12 * st
      zero (b + 1) 31 2 && w (b + 9) == 0 && w (b + 10) == 0 && w (b + 11) == 0
      && (if stUsed st then bitsOf (w (b + 1)) 1 0 != 3 else true))
  && (List.range 16).all (fun i => zero (64 + i) 63 18 &&
      (bitsOf (w (64 + i)) 17 9 == 0 || decide (bitsOf (w (64 + i)) 8 0 + bitsOf (w (64 + i)) 17 9 ≤ 384)))
  && (List.range 6).all (fun i => zero (80 + i) 63 49)
  && (List.range 10).all (fun i => w (86 + i) == 0) && (List.range 4).all (fun i => w (252 + i) == 0)
  && (List.range 26).all (fun t =>
      if t < nt then
        let c := templCtl r t
        let eng := bitsOf c 2 0
        bitOf c 3 && bitsOf c 7 4 == 0 && bitsOf c 63 48 == 0 && opOk eng (bitsOf c 15 8)
        && decide (bitsOf c 18 16 < nl) && decide (bitsOf c 25 23 ≤ bitsOf c 18 16) && decide (bitsOf c 22 20 ≤ 4)
        && !bitOf (bitsOf c 30 26) eng && !bitOf (bitsOf c 35 31) eng && bodyOk (bitsOf c 15 8) (templBody r t)
      else (List.range 6).all (fun i => w (96 + 6 * t + i) == 0))

/-! ### Waits and signals of work (R378, R589) -/

/-- Enabled wait or signal words: number, tally, value or increment. -/
def tallyWords (ws : List Nat) : List (Nat × Nat × Nat) :=
  (ws.zipIdx.filter (fun p => bitOf p.1 48)).map (fun p => (p.2, bitsOf p.1 15 0, bitsOf p.1 47 16))

/-- Does every enabled wait and signal name a tally that the tenant may use (R589)? -/
def tallyWordsOk (s : State) (ten : Option Nat) (ws : List Nat) : Bool :=
  (tallyWords ws).all (fun p => tallyAllowed s ten p.2.1)

/-- Waits of the words that hold now, as a mask, and the others registered with the tally unit. -/
def postWaits (ctx : Nat) (ten : Option Nat) (who : Waiter) (ws : List Nat) (s : State) : Nat × State :=
  let l := tallyWords ws
  let holds := fun (p : Nat × Nat × Nat) => decide (p.2.2 ≤ (tallyOf s p.2.1).value.toNat)
  (maskOf ((l.filter holds).map (fun p => p.1)),
   { s with tal := { s.tal with waits := s.tal.waits ++
      (l.filter (fun p => !holds p)).map (fun p => ⟨p.2.1, p.2.2, ten, ctx, who, false⟩) } })

/-- Do all enabled waits hold, given the mask of those satisfied? -/
def waitsHold (ws : List Nat) (mask : Nat) : Bool := (tallyWords ws).all (fun p => bitOf mask p.1)

/-- The mask bits of the waits on one tally and value. -/
def waitBits (ws : List Nat) (t v : Nat) : Nat :=
  maskOf (((tallyWords ws).filter (fun p => decide (p.2.1 = t ∧ p.2.2 = v))).map (fun p => p.1))

/-- Set several bits of a mask. -/
def orMask (a b : Nat) : Nat := a ||| b

/-- Send enabled signals, each as a release (R374). -/
def sendSignals (ctx : Nat) (ten : Option Nat) (ws : List Nat) (s : State) : State :=
  (tallyWords ws).foldl (fun s p => signalWork ctx ten p.2.1 p.2.2 s) s

end Sys2Proof.Machine
end

