-- ==== Sys2Proof/Machine/SelOps.lean ====
section
/-! DEFINITION. Deliveries of logits to the token selectors (R267 to R269) and grammar masks (R277, R280, R284): the operations
that STORE, RSTORE, remote writes and the selection itself share. -/

namespace Sys2Proof.Machine

/-- A BAR0 offset of the TSL block. -/
def tsl (o : Nat) : Nat := 0x700000 + o

def selOf (s : State) (q : Nat) : SelSt := tget SelSt.reset s.selectors q

def modSel (q : Nat) (f : SelSt → SelSt) (s : State) : State :=
  { s with selectors := tmod SelSt.reset s.selectors q f }

/-- Vocabulary size of an order's model; 0 where it has none. -/
def orderVocab (s : State) (o : Nat) : Nat := ((modelOf s (orderOf s o).model).map (fun m => m.vocab)).getD 0

/-- Does the order have a mask (R284)? -/
def hasMask (r : OrderRec) : Bool := r.grammarEn || r.params.listEn

/-- The order's mask in its selector, once built. -/
def maskOfOrder (s : State) (q o : Nat) : Option (List Nat) :=
  ((selOf s q).masks.find? (fun m => decide (m.1 = o))).map Prod.snd

/-- Bytes of the buffer that claimed rows take. -/
def rowsBytes (s : State) (q : Nat) : Nat := ((selOf s q).rows.map (fun r => 4 * orderVocab s r.order)).sum

/-- May a row be claimed for an order (R267)? -/
def rowFits (s : State) (q o : Nat) : Bool :=
  decide ((selOf s q).rows.length < 16) && decide (rowsBytes s q + 4 * orderVocab s o ≤ 8388608)

/-- Does the order's running step select a token that it has not selected yet (R269)? -/
def stepSelects (r : OrderRec) : Bool := (r.step.map (fun x => x.admitted && x.selects && !x.selected)).getD false

/-- Merge delivered values into a claimed row; a written position is replaced and counted; a row that receives poison faults
its order; a full row is complete (R269, R285). -/
def mergeRow (q o : Nat) (vals : List (Nat × Nat)) (poison : Bool) (s : State) : State :=
  match (selOf s q).rows.find? (fun r => decide (r.order = o)) with
  | none => s
  | some row =>
    let dup := (vals.filter (fun v => decide (tget 0 row.vals v.1 ≠ 0))).length
    let vals1 := vals.foldl (fun t v => tset 0 t v.1 (v.2 + 1)) row.vals
    let full := decide (vals1.length ≥ orderVocab s o)
    let late := full && hasMask (orderOf s o) && (maskOfOrder s q o).isNone
    let row1 : LogitRow := { row with vals := vals1, complete := full, poison := row.poison || poison, late := row.late || late }
    let s1 := modSel q (fun x => { x with
      rows := x.rows.map (fun r => if r.order = o then row1 else r)
      ready := if full && !x.ready.contains o then x.ready ++ [o] else x.ready }) s
    let s2 := if dup = 0 then s1 else bump (tsl 0x140) dup s1
    if poison then modOrder o (fun r => { r with faultPend := some (r.faultPend.getD (1, 6, 0)) }) s2 else s2

/-- Deliver values of tokens to an order's row (R267 to R269): discarded where the step selects nothing, held while no row or
buffer space is free or an earlier delivery of the order is held. -/
def deliverLogits (o : Nat) (vals : List (Nat × Nat)) (poison : Bool) (s : State) : State :=
  let r := orderOf s o
  let q := r.selector
  if !stepSelects r then
    match r.step with
    | some x => if x.unexpected then s
        else bump (tsl 0x148) 1 (modOrder o (fun r => { r with step := r.step.map (fun x => { x with unexpected := true }) }) s)
    | none => bump (tsl 0x148) 1 s
  else if (selOf s q).rows.any (fun x => decide (x.order = o)) then mergeRow q o vals poison s
  else if (selOf s q).held.any (fun x => decide (x.order = o)) || !rowFits s q o then
    modSel q (fun x => { x with held := x.held ++ [⟨o, vals, poison⟩] }) s
  else mergeRow q o vals poison (modSel q (fun x => { x with rows := x.rows ++ [⟨o, [], false, false, false⟩] }) s)

/-- A STORE of FP32 words into the selector aperture at an offset (R268): the order of each slot and its tokens. The check
of the slots comes first: none is a PROTECTION fault. -/
def apertureOk (s : State) (c off len : Nat) : Bool :=
  (List.range (len / 4)).all (fun i =>
    let a := off + 4 * i
    match if a / 4194304 = 63 then none else slotOrder s c (a / 4194304) with
    | none => false
    | some o => decide (a % 4194304 < 4 * orderVocab s o))

/-- Deliver the words of a checked aperture store; poisoned marks the words' poison. -/
def apertureStore (c off : Nat) (codes : List Nat) (poison : Bool) (s : State) : State :=
  let a := fun (i : Nat) => off + 4 * i
  let slots := ((List.range codes.length).map (fun i => a i / 4194304)).eraseDups
  slots.foldl (fun s b => match slotOrder s c b with
    | none => s
    | some o => deliverLogits o ((codes.zipIdx.filter (fun p => decide (a p.2 / 4194304 = b))).map
        (fun p => (a p.2 % 4194304 / 4, p.1))) poison s) s

/-! ### Grammars and masks -/

def grammarOf (s : State) (g : Nat) : Option GrammarRec := tget none s.grammars g

/-- The transition of class `c` in state `st` at the stack (top first) (R280): found by the exact top, else by any top. -/
def findTrans (g : GrammarRec) (st : Nat) (stack : List Nat) (c : Nat) : Option GTrans :=
  let ts := ((g.states[st]?).map Prod.fst).getD []
  let top := stack.headD 0xFFFE
  (ts.find? (fun t => decide (t.cls = c ∧ t.top = top))).orElse (fun _ => ts.find? (fun t => decide (t.cls = c ∧ t.top = 0xFFFF)))

/-- Does the transition match at depth `d` (R280)? -/
def transFits (t : GTrans) (d : Nat) : Bool := decide (t.pop ≤ d ∧ d - t.pop + t.push.length ≤ 256)

/-- Does it fail only the depth limit? -/
def transDeep (t : GTrans) (d : Nat) : Bool := decide (t.pop ≤ d ∧ ¬ d - t.pop + t.push.length ≤ 256)

/-- The tokens a grammar allows in a state (R280). -/
def grammarMask (g : GrammarRec) (st : Nat) (stack : List Nat) : List Nat :=
  (List.range g.vocab).filter (fun t =>
    let c := (g.classes[t]?).getD 0xFFFF
    c != 0xFFFF && ((findTrans g st stack c).map (fun x => transFits x stack.length)).getD false)

/-- Transitions of a state that only the depth limit excludes: the ones that would be used. -/
def deepTrans (g : GrammarRec) (st : Nat) (stack : List Nat) : Nat :=
  (((g.states[st]?).map Prod.fst).getD []).filter (fun t =>
    transDeep t stack.length && decide (findTrans g st stack t.cls = some t)) |>.length

/-- The automaton after a selected token (R281). -/
def autStep (g : GrammarRec) (st : Nat) (stack : List Nat) (tok : Nat) : Nat × List Nat :=
  match findTrans g st stack ((g.classes[tok]?).getD 0xFFFF) with
  | some t => (t.next, t.push.reverse ++ stack.drop t.pop)
  | none => (st, stack)

/-- The accepting end: a FINAL state at depth 0 (R281). -/
def autEnd (g : GrammarRec) (st : Nat) (stack : List Nat) : Bool := ((g.states[st]?).map Prod.snd).getD false && stack.isEmpty

/-- The allowed list as it is read now (R277): entries that do not rise, or lie at V or above, are ignored; the number
ignored, and whether a sector was poisoned or unreadable. -/
def readList (s : State) (o : Nat) : List Nat × Nat × Bool :=
  let r := orderOf s o
  let v := orderVocab s o
  let res := peekDev s (some r.tenant) r.params.list (4 * r.params.listCount)
  let ids := (List.range r.params.listCount).map (fun i => leAt res.data (4 * i) 4)
  let go := ids.foldl (fun (a : List Nat × Nat × Option Nat) t =>
    let ok := decide (t < v) && (match a.2.2 with | none => true | some p => decide (p < t))
    (if ok then a.1 ++ [t] else a.1, if ok then a.2.1 else a.2.1 + 1, some t)) ([], 0, none)
  (go.1, go.2.1, decide (res.poison ≠ 0) || !res.ok)

/-- Put an order into its selector's mask queue, when it has a mask (R284). -/
def queueMask (o : Nat) (s : State) : State :=
  let r := orderOf s o
  if !hasMask r then s
  else modSel r.selector (fun x => { x with
    maskQueue := x.maskQueue.filter (fun k => decide (k ≠ o)) ++ [o]
    masks := x.masks.filter (fun m => decide (m.1 ≠ o)) }) s

/-- Forget an order in its selector: row, held deliveries, mask and queue places. -/
def forgetSel (o : Nat) (s : State) : State :=
  modSel (orderOf s o).selector (fun x => { x with
    rows := x.rows.filter (fun r => decide (r.order ≠ o)), held := x.held.filter (fun h => decide (h.order ≠ o))
    maskQueue := x.maskQueue.filter (fun k => decide (k ≠ o)), masks := x.masks.filter (fun m => decide (m.1 ≠ o))
    ready := x.ready.filter (fun k => decide (k ≠ o)) }) s

end Sys2Proof.Machine
end

