-- ==== Sys2Proof/Machine/Sheets.lean ====
section
/-! DEFINITION. The command processor (chapter 5): dispatch entries, sheet banks, the walk of the nest, engine queues and
starts, completions, tickets, pre-emption and the watchdog. An event whose conditions do not hold changes nothing (log
entry 10). -/

namespace Sys2Proof.Machine

abbrev Res := Host.Outcome State Fault Refusal

/-! ### Checks at a command's start (R69, R76, R125) -/

/-- Array operand formats (Table 2.2), by Table 4.7 code. -/
def codeFmt (c : Nat) : Option Fmt :=
  match c with
  | 0 => some .fp32 | 1 => some .bf16 | 2 => some .e4m3 | 3 => some .e5m2 | 4 => some .fp16 | 5 => some .fp4
  | 6 => some .e2m3 | 7 => some .e3m2 | 8 => some .int8 | 9 => some .int4 | 10 => some .int32 | _ => none

def arrayFmtOk (f : Fmt) : Bool := match f with | .fp32 | .int32 => false | _ => true

/-- Format class of a format: 0 double, 1 single, 2 half (Table 3.3). -/
def fmtClass (f : Fmt) : Nat :=
  match f with
  | .fp4 | .e2m3 | .e3m2 | .int4 => 0
  | .bf16 | .fp16 => 2
  | _ => 1

/-- Sub-arrays of a mode, and reduction values per sub-array (Table 3.4). -/
def modeSubs (m : Nat) : Nat := match m with | 0 => 1 | 1 => 2 | _ => 4
def modeCap (m cls : Nat) : Nat := (128 / modeSubs m) * (if cls = 0 then 2 else 1)

/-- Class of a pass: that of its wider operand (R63). -/
def passClass (b : List Nat) : Nat :=
  max (((codeFmt (bf b 2 38 35)).map fmtClass).getD 1) (((codeFmt (bf b 2 42 39)).map fmtClass).getD 1)

/-- Stockroom ranges a PASS touches: offset and length. -/
def passRanges (b : List Nat) : List (Nat × Nat) :=
  let m := bf b 2 12 0
  let k := bf b 2 21 13
  let n := bf b 2 29 22
  let subs := bf b 2 34 32
  let fa := (codeFmt (bf b 2 38 35)).getD .fp32
  let fw := (codeFmt (bf b 2 42 39)).getD .fp32
  let outs := fun (base : Nat) => (List.range subs).map (fun i => (base + i * bf b 1 62 42, m * n * 4))
  (List.range subs).map (fun i => (bf b 0 20 0 + i * bf b 1 41 21, m * elemBytes fa k))
  ++ (if bf b 2 43 43 = 1 then [] else [(bf b 0 41 21, subs * k * elemBytes fw n)])
  ++ (if bf b 2 46 46 = 0 ∨ bf b 2 47 47 = 1 ∨ bf b 2 45 44 = 0 then outs (bf b 0 62 42) else [])
  ++ (if bf b 2 46 46 = 1 ∨ bf b 2 45 44 = 2 then outs (bf b 1 20 0) else [])

/-- Targets of a load on shop n (R62): the shops of its mask on its own quarter that are not absent, or itself. -/
def loadTargets (s : State) (n : Nat) (b : List Nat) : List Nat :=
  let q := n / 80
  let mask := (b[2]?).getD 0 % 2 ^ 64 + bf b 3 15 0 * 2 ^ 64
  if mask = 0 then [n]
  else ((bitList mask 80).map (· + q * 80)).filter (fun t => (shopOf s t).state != 1)

/-- Loads in flight of which a shop is a multicast target. -/
def mcastCount (s : State) (t : Nat) : Nat :=
  ((List.range 80).map (fun i => let m := t / 80 * 80 + i
    ((engOf s m 0).runs.filter (fun r => (r.cmd.opcode == 1 || r.cmd.opcode == 2)
      && (bf r.cmd.body 2 63 0 != 0 || bf r.cmd.body 3 15 0 != 0) && (loadTargets s m r.cmd.body).contains t)).length)).sum

/-- A range of a shop's stockroom as fault code: 3 past its end, 5 outside the context's windows, 0 fine. -/
def rangeCode (s : State) (c n off len : Nat) : Nat :=
  if off + len > 0x180000 then 3 else if winOk s c n off len then 0 else 5

/-- The first nonzero code. -/
def firstCode (l : List Nat) : Nat := (l.find? (fun x => decide (x ≠ 0))).getD 0

/-- The fault code of a device address a command reads or writes: remote regions are checked by their target (R365). -/
def readCode (s : State) (c : Nat) (ten : Option Nat) (A n : Nat) : Nat :=
  match resolve s ten A with
  | .remote _ _ => 0
  | .host _ => if (resolve s ten (A + n - 1)) = .none then 5 else 0
  | .kv off => if (kvByte s c off).isNone then 5 else 0
  | _ => if (peekCtx s c ten A n).ok then 0 else 5

def storeCode (s : State) (c : Nat) (ten : Option Nat) (A n : Nat) : Nat :=
  match resolve s ten A with
  | .remote _ _ => 0
  | .selector _ => 0
  | _ => if writeOk s c ten A n then 0 else 5

/-- The layout descriptor's words q0 to q7 of a transform (Table 6.5). -/
def layoutWords (s : State) (n ldesc : Nat) : List Nat :=
  (List.range 8).map (fun i => keyWord s (0x020000000000 + n * 0x200000 + ldesc + 8 * i) 8)

/-- STORE into an alias or the selector aperture fixes DFMT (R268, R386). -/
def storeFmtOk (s : State) (ten : Option Nat) (A dfmt : Nat) : Bool :=
  match resolve s ten A with
  | .reduce 2 _ => dfmt == 10
  | .reduce _ _ => dfmt == 0
  | .selector _ => dfmt == 0
  | _ => true

/-- The checks of R125 on a command of shop n: a Table 5.11 code, 0 when it may run. Transforms, LOAD_PLANE segments and
STORE_KV make their further checks in their own operation. -/
def checkCmd (s : State) (n : Nat) (c : Cmd) : Nat :=
  let b := c.body
  let own := fun (off len : Nat) => rangeCode s c.ctx n off len
  if c.overflow then 3
  else
    let sp := c.checks.map (fun p => match p.2 with
      | 0 => if resolve s c.tenant p.1 = .none then 5 else 0
      | 1 => own p.1 1
      | _ => 0)
    let body := match c.opcode with
      | 1 | 2 =>
        let len := bf b 1 41 21
        let dst := bf b 1 20 0
        [if len = 0 ∨ len > 1572864 then 3 else 0,
         if c.opcode = 1 ∧ dst + len > 0x180000 then 3 else 0,
         if c.opcode = 2 ∧ ((codeFmt (bf b 1 45 42)).map arrayFmtOk).getD false = false then 4 else 0]
        ++ (if c.opcode = 1 then (loadTargets s n b).map (fun t => rangeCode s c.ctx t dst len) else [])
        ++ [readCode s c.ctx c.tenant (bf b 0 63 0) len]
      | 0x10 =>
        let m := bf b 2 12 0
        let mode := bf b 2 31 30
        let fa := codeFmt (bf b 2 38 35)
        let fw := codeFmt (bf b 2 42 39)
        [if mode = 3 ∨ bf b 2 45 44 = 3 ∨ bf b 3 43 42 = 3 ∨ bf b 3 45 44 = 3 then 3 else 0,
         if m = 0 ∨ m > 4096 ∨ bf b 2 29 22 = 0 ∨ bf b 2 29 22 > 128 ∨ bf b 2 34 32 ≠ modeSubs mode then 3 else 0,
         if bf b 2 45 44 = 2 ∧ bf b 2 46 46 = 1 then 3 else 0,
         if (fa.map arrayFmtOk).getD false && (fw.map arrayFmtOk).getD false
            && (fa.map fmtFloat).getD true == (fw.map fmtFloat).getD true then 0 else 4,
         if bf b 2 21 13 > modeCap mode (passClass b) then 3 else 0]
        ++ (passRanges b).map (fun r => own r.1 r.2)
      | 0x21 => [if bf b 1 31 0 % 8 ≠ 0 then 3 else 0]
      | 0x30 =>
        let e := bf b 1 47 21
        match codeFmt (bf b 1 51 48), codeFmt (bf b 1 55 52) with
        | some fs, some fd =>
          [if e = 0 then 3 else 0, own (bf b 1 20 0) (elemBytes fs e),
           if storeFmtOk s c.tenant (bf b 0 63 0) (bf b 1 55 52) then 0 else 4,
           storeCode s c.ctx c.tenant (bf b 0 63 0) (elemBytes fd e)]
        | _, _ => [if e = 0 then 3 else 4]
      | 0x31 =>
        let rows := bf b 1 33 21
        let d := bf b 1 43 34
        match codeFmt (bf b 1 47 44) with
        | some fs =>
          [if rows = 0 ∨ rows > 4096 ∨ d = 0 then 3 else 0,
           if bf b 2 37 37 = 1 ∧ (bf b 2 15 6 ≠ 0 ∨ bf b 2 5 0 = 63) then 3 else 0,
           own (bf b 1 20 0) (elemBytes fs (rows * d))]
        | none => [if rows = 0 ∨ rows > 4096 ∨ d = 0 then 3 else 4]
      | 0x40 | 0x41 | 0x42 => [own (bf b 1 20 0) 64]
      | _ => []
    firstCode (sp ++ body)

/-! ### Sheet loads and GO (R116, R117, R122, R589) -/

/-- Give waiting sheet loads the free banks, oldest LC first (R116, R126): an LC load without a free bank asks for the
pre-emption of a running BE sheet by PREEMPTION. -/
def takeLoad (n : Nat) (s : State) : State :=
  let sh := shopOf s n
  match (sh.banks.findIdx? (fun b => decide (b.st = 0))), (sh.loads.find? (fun l => l.lc)).orElse (fun _ => sh.loads.head?) with
  | some b, some l =>
    modShop n (fun sh => { sh with loads := sh.loads.erase l })
      (modBank n b (fun _ => { SheetBank.reset with st := 1, ctx := l.ctx, lc := l.lc, tenant := l.tenant, addr := l.addr }) s)
  | _, _ => s

/-- SHEET_LOAD (R111, R116): a dispatch entry of a context names a sheet image. It takes a free bank or waits. -/
def execSheetLoad (shop ctx addr : Nat) (s : State) : Res :=
  .next (match ctxOf s ctx with
    | some x =>
      if shopPresent s shop then
        takeLoad shop (modShop shop (fun sh => { sh with loads := sh.loads ++ [⟨ctx, addr, x.lc, x.tenant⟩] }) s)
      else s
    | none => s)

/-- Windows the sheet's image asks for, and its waits and signals. -/
def sheetWindows (r : List Nat) : List (Nat × Nat) := windowReqs ((r.drop 64).take 16)
def sheetWaits (r : List Nat) : List Nat := (r.drop 80).take 4
def sheetSignals (r : List Nat) : List Nat := (r.drop 84).take 2

/-- The GO's checks once its image is in (R117, R589): a bad image faults the context with SHEET_BAD, a tally of another
owner with TALLY; otherwise its waits go to the tally unit. -/
def goCheck (n b : Nat) (s : State) : State :=
  let k := bankOf s n b
  if !(k.go && decide (k.st = 2)) then s
  else match k.bad with
    | some sub => workFault n 1 sub 0 k.ctx 0x1E 0 s
    | none =>
      if !tallyWordsOk s k.tenant (sheetWaits k.regs ++ sheetSignals k.regs) then workFault n 9 0 0 k.ctx 0x1E 0 s
      else
        let (m, s1) := postWaits k.ctx k.tenant (.sheet (n * 2 + b)) (sheetWaits k.regs) s
        modBank n b (fun k => { k with waited := m }) s1

/-- SHEET_IMAGE_LOADED (R116, R122): the 2,048 bytes of a bank's image have been read and are checked. -/
def execSheetImageLoaded (shop bank : Nat) (s : State) : Res :=
  let k := bankOf s shop bank
  .next (if k.st = 1 then
      let (res, s1) := readCtx k.ctx k.tenant k.addr 2048 s
      let r := (List.range 256).map (fun i => leAt res.data (8 * i) 8)
      let bad := if !res.ok || res.poison != 0 then some 1 else if imageOk res.data r then none else some 0
      goCheck shop bank (modBank shop bank (fun k => { k with st := 2, regs := r, bad := bad }) s1)
    else s)

/-- The bank that holds a context's sheet of an image. -/
def bankFor (s : State) (n ctx addr : Nat) : Option Nat :=
  (shopOf s n).banks.findIdx? (fun b => decide (b.st ≠ 0 ∧ b.ctx = ctx ∧ b.addr = addr))

/-- GO (R111, R117): a dispatch entry paired with one sheet load. -/
def execGo (shop ctx addr : Nat) (s : State) : Res :=
  .next (match bankFor s shop ctx addr with
    | some b => if (bankOf s shop b).go then s
        else goCheck shop b (modBank shop b (fun k => { k with go := true, resume := false }) s)
    | none => s)

/-- Move a bank to its first emission at or after a position. -/
def seek (n b : Nat) (c : Cursor) (s : State) : State :=
  modBank n b (fun k => { k with cur := nextEmission k.regs (nestFuel k.regs) c }) s

/-- A sheet whose nest is finished and whose tiles have completed: it signals and frees its bank and windows (R123). -/
def sheetSettle (n b : Nat) (s : State) : State :=
  let k := bankOf s n b
  if k.st = 3 ∧ k.cur = none ∧ k.tiles = [] then
    let s1 := sendSignals k.ctx k.tenant (sheetSignals k.regs) s
    let s2 := releaseWindows n k.ctx b s1
    let s3 := match sheetCand s2 k.ctx k.addr with
      | some c => candGone c.id s2
      | none => s2
    takeLoad n (modBank n b (fun _ => SheetBank.reset) s3)
  else s

/-- SHEET_START (R117, R118): the sheet starts once its image has passed, its waits hold and its windows are granted. -/
def execSheetStart (shop bank : Nat) (s : State) : Res :=
  let k := bankOf s shop bank
  .next (
    if k.st = 2 ∧ k.go = true ∧ k.bad = none ∧ waitsHold (sheetWaits k.regs) k.waited = true then
      let reqs := sheetWindows k.regs
      let held := (shopOf s shop).windows.any (fun w => decide (w.ctx = k.ctx ∧ w.holder = bank))
      if held || grantable s shop k.tenant reqs then
        let s1 := if held then s else grant shop k.ctx k.tenant bank reqs s
        let s2 := modBank shop bank (fun k => { k with
          st := 3, granted := true
          tokens := if k.resume then k.tokens else List.replicate 20 0 }) s1
        let k2 := bankOf s2 shop bank
        let start : Cursor := if k2.resume then k2.cur.getD ⟨List.replicate 7 0, 0, 0, 0⟩ else ⟨List.replicate 7 0, 0, 0, 0⟩
        sheetSettle shop bank (seek shop bank start s2)
      else s
    else s)

/-- STOCKROOM_CLEAR_DONE (R77): the granules of the windows being cleared read zero and belong to the new owner. -/
def execStockroomClearDone (shop : Nat) (s : State) : Res :=
  .next (
    let sh := shopOf s shop
    let gr := (sh.windows.filter (fun w => w.clearing)).flatMap (fun w => (List.range w.size).map (fun i => (w.base + i, ownerCode w.tenant)))
    let dirty := gr.filter (fun g => decide (tget 0 sh.owner g.1 ≠ 0 ∧ tget 0 sh.owner g.1 ≠ g.2))
    let inDirty := fun (a : Nat) => decide (0x020000000000 + shop * 0x200000 ≤ a ∧ a < 0x020000000000 + (shop + 1) * 0x200000)
      && dirty.any (fun g => decide (a % 0x200000 / 4096 = g.1))
    modShop shop (fun sh => { sh with
        windows := sh.windows.map (fun w => { w with clearing := false })
        owner := gr.foldl (fun t g => tset 0 t g.1 g.2) sh.owner })
      { s with mem := { s.mem with
          bytes := s.mem.bytes.filter (fun p => !inDirty p.1)
          line := s.mem.line.filter (fun p => !inDirty (p.1 * 64)) } })

/-! ### Emission (R112, R120 to R123, R332) -/

/-- Sheet commands in a queue that have not completed, and ticket commands. -/
def sheetEntries (e : EngSt) : Nat :=
  ((e.queue ++ e.runs.map (fun r => r.cmd)).filter (fun c => match c.src with | .templ _ _ _ => true | _ => false)).length

def ticketEntries (e : EngSt) : Nat :=
  ((e.queue ++ e.runs.map (fun r => r.cmd)).filter (fun c => match c.src with | .ticket _ _ => true | _ => false)).length

/-- Has a sheet's tile been admitted (R332)? -/
def tileAdmitted (s : State) (k : SheetBank) (t : Nat) : Bool :=
  match sheetCand s k.ctx k.addr with
  | some c => decide (t < c.started + c.admitted)
  | none => false

/-- TEMPLATE_EMIT (R112, R123): emit the next template instance of a running sheet. It holds while the queue holds 384
sheet commands (counted in SHOP_EMIT_STALL), at a pre-emption point that PREEMPTION asked for, and before a tile that has
not been admitted. -/
def execTemplateEmit (shop bank : Nat) (s : State) : Res :=
  let k := bankOf s shop bank
  .next (match k.cur with
    | none => sheetSettle shop bank s
    | some c =>
      if k.st ≠ 3 ∨ k.stopped = true then s
      else
        let t := tileNum k.regs c
        let newTile := decide (k.lastTile ≠ some t)
        let cmd := makeCmd k bank c
        if newTile && k.preempt then modBank shop bank (fun k => { k with stopped := true }) s
        else if newTile && !tileAdmitted s k t then s
        else if sheetEntries (engOf s shop cmd.engine) ≥ 384 then bump (shopC shop 0x178) 1 s
        else
          let s1 := modEng shop cmd.engine (fun e => { e with queue := e.queue ++ [cmd] }) s
          let s2 := modBank shop bank (fun k => { k with
            lastTile := some t
            tiles := if k.tiles.any (fun x => decide (x.num = t)) then
                k.tiles.map (fun x => if x.num = t then { x with left := x.left + 1 } else x)
              else k.tiles ++ [⟨t, none, 1⟩] }) s1
          seek shop bank { c with templ := c.templ + 1 } s2)

/-! ### Starting commands (R113, R114) -/

/-- Are the tokens a sheet command waits for available? -/
def tokensReady (s : State) (n : Nat) (c : Cmd) : Bool :=
  match c.src with
  | .templ b _ _ => (bitList c.waits 5).all (fun p => decide (((bankOf s n b).tokens[tokIdx p c.engine]?).getD 0 > 0))
  | .ticket _ _ => true

/-- May the tile of a command start: it runs already, or it is admitted and no clamp acts (R332, R338)? -/
def tileMayStart (s : State) (n : Nat) (c : Cmd) : Bool :=
  match c.src with
  | .templ b _ t =>
    let k := bankOf s n b
    match k.tiles.find? (fun x => decide (x.num = t)) with
    | some x => x.started.isSome || (!s.sched.clamped &&
        ((sheetCand s k.ctx k.addr).map (fun c => decide (c.admitted > 0))).getD false)
    | none => false
  | .ticket l i =>
    !s.sched.clamped && (match (shopOf s n).lists.find? (fun x => decide (x.id = l)) with
      | some x => ((ticketCand s x.ctx x.addr i).map (fun c => decide (c.admitted > 0))).getD false
      | none => false)

/-- Is the engine free for a command? The matrix engine takes the next pass once the last one has streamed, and after its
drain where mode or class change (R68) or both buffers are in use; the bench group takes launches on disjoint groups (R98)
and kernel loads into slots that no launch uses (R97); a load waits while a target has 4 multicast loads in flight (R62). -/
def engineFree (s : State) (n : Nat) (c : Cmd) : Bool :=
  let e := engOf s n c.engine
  let active := e.runs.filter (fun r => !r.done)
  let sh := shopOf s n
  match c.engine with
  | 1 =>
    c.opcode == 0 ||
      (sh.array.passes.all (fun p => p.streamed) && decide (active.length ≤ 2) && decide (sh.array.passes.length < 2)
        && (sh.array.passes.isEmpty || (decide (sh.array.mode = bf c.body 2 31 30 ∧ sh.array.cls = passClass c.body)))
        && !sh.array.failed)
  | 2 =>
    match c.opcode with
    | 0x21 => sh.launches.all (fun l => decide (l.groups &&& bf c.body 2 43 28 = 0))
        && active.all (fun r => r.cmd.opcode == 0x21 && decide (bf r.cmd.body 2 43 28 &&& bf c.body 2 43 28 = 0))
    | 0x20 => active.all (fun r => r.cmd.opcode == 0x21) && sh.launches.all (fun l =>
        decide (l.groups &&& bf c.body 1 31 16 = 0) || decide (l.slot < bf c.body 1 1 0 ∨ bf c.body 1 1 0 + bf c.body 1 4 2 ≤ l.slot))
    | _ => active.isEmpty
  | 0 => active.isEmpty && ((bf c.body 2 63 0 == 0 && bf c.body 3 15 0 == 0) || c.opcode == 0
      || (loadTargets s n c.body).all (fun t => decide (mcastCount s t < 4)))
  | _ => active.isEmpty

/-- Commands at the head of their context in a queue, oldest first. -/
def queueHeads (q : List Cmd) : List Cmd :=
  q.foldl (fun acc c => if acc.any (fun x => decide (x.ctx = c.ctx)) then acc else acc ++ [c]) []

/-- Can a queue head start now (R113)? -/
def headReady (s : State) (n : Nat) (c : Cmd) : Bool :=
  tokensReady s n c && !winClearing s c.ctx n && tileMayStart s n c && engineFree s n c

/-- Record the start of a command's tile. -/
def startTile (n : Nat) (c : Cmd) (s : State) : State :=
  let clk := quarterClock s (n / 80)
  match c.src with
  | .templ b _ t =>
    let k := bankOf s n b
    if (k.tiles.find? (fun x => decide (x.num = t))).any (fun x => x.started.isSome) then s
    else
      let s1 := modBank n b (fun k => { k with tiles := k.tiles.map (fun x => if x.num = t then { x with started := some s.bell } else x) }) s
      match sheetCand s k.ctx k.addr with
      | some x => tileStarts x 0 n clk s1
      | none => s1
  | .ticket l i =>
    let s1 := modList n l (fun x => { x with window := x.window.map (fun w => if w.idx = i then { w with started := some s.bell } else w) }) s
    match (shopOf s n).lists.find? (fun x => decide (x.id = l)) with
    | some x => match ticketCand s x.ctx x.addr i with
      | some y => tileStarts y 0 n clk s1
      | none => s1
    | none => s1

/-- COMMAND_START (R113, R114, R125): an idle engine starts the oldest ready command at the head of any context, LC before
BE. It consumes its tokens; a command that fails its checks is a fault of its context and has no effect. -/
def execCommandStart (shop engine : Nat) (s : State) : Res :=
  .next (
    let heads := (queueHeads (engOf s shop engine).queue).filter (headReady s shop)
    match (heads.find? (fun c => c.lc)).orElse (fun _ => heads.head?) with
    | none => s
    | some c =>
      let s1 := modEng shop engine (fun e => { e with queue := e.queue.erase c }) s
      let s2 := startTile shop c s1
      let s3 := match c.src with
        | .templ b _ _ => modBank shop b (fun k => { k with
            tokens := (bitList c.waits 5).foldl (fun t p => t.modify (tokIdx p engine) (fun x => x - 1)) k.tokens }) s2
        | .ticket _ _ => s2
      match checkCmd s3 shop c with
      | 0 => modEng shop engine (fun e => { e with runs := e.runs ++ [⟨c, decide (c.opcode = 0), s.bell, false, [], [], none⟩] }) s3
      | code => cmdFault shop c code 0 s3)

/-! ### Completions (R115, R123, R132) -/

/-- Engines a command posts to, with how many tokens each (Table 5.6, NOP). -/
def postsOf (c : Cmd) : List (Nat × Nat) :=
  let n := if c.opcode = 0 then max 1 (bf c.body 0 7 0) else 1
  (bitList c.posts 5).map (fun e => (tokIdx c.engine e, n))

/-- May a done command complete: no earlier command of its context on the engine is unfinished, and no counter passes 255? -/
def mayComplete (s : State) (n : Nat) (rs : List Run) (i : Nat) : Bool :=
  match rs[i]? with
  | none => false
  | some r =>
    r.done && r.need.isEmpty && (rs.take i).all (fun x => decide (x.cmd.ctx ≠ r.cmd.ctx)) &&
    (match r.cmd.src with
      | .templ b _ _ => (postsOf r.cmd).all (fun p => decide (((bankOf s n b).tokens[p.1]?).getD 0 + p.2 ≤ 255))
      | _ => true)

/-- A tile of a sheet has lost one command; a tile whose commands are all emitted and completed completes. -/
def tileCommandDone (n b t : Nat) (s : State) : State :=
  let s1 := modBank n b (fun k => { k with tiles := k.tiles.map (fun x => if x.num = t then { x with left := x.left - 1 } else x) }) s
  let k := bankOf s1 n b
  let more := (k.cur.map (fun c => decide (tileNum k.regs c = t))).getD false
  if (k.tiles.any (fun x => decide (x.num = t ∧ x.left = 0))) && !more then
    let s2 := bump (shopC n 0x158) 1 (modBank n b (fun k => { k with tiles := k.tiles.filter (fun x => decide (x.num ≠ t)) }) s1)
    let s3 := match sheetCand s2 k.ctx k.addr with
      | some c => tileEnds c.id 0 n s2
      | none => s2
    sheetSettle n b s3
  else s1

/-- A ticket of a list has completed (R132): it signals; the list completes with its last ticket. -/
def ticketDone (n l i : Nat) (s : State) : State :=
  match (shopOf s n).lists.find? (fun x => decide (x.id = l)) with
  | none => s
  | some x =>
    let s1 := match x.window.find? (fun w => decide (w.idx = i)) with
      | some w => sendSignals x.ctx x.tenant ((w.words.drop 5).take 2) s
      | none => s
    let s2 := bump (shopC n 0x168) 1 (bump (shopC n 0x158) 1
      (modList n l (fun x => { x with completed := x.completed + 1, window := x.window.filter (fun w => decide (w.idx ≠ i)) }) s1))
    let s3 := match ticketCand s2 x.ctx x.addr i with
      | some c => candGone c.id (tileEnds c.id 0 n s2)
      | none => s2
    if x.completed + 1 ≥ x.count then
      releaseWindows n x.ctx (2 + l) (modShop n (fun sh => { sh with lists := sh.lists.filter (fun y => decide (y.id ≠ l)) }) s3)
    else s3

/-- COMMAND_COMPLETE (R115): the first command of the engine that may complete posts its tokens; its tile, sheet or ticket
may complete with it. -/
def execCommandComplete (shop engine : Nat) (s : State) : Res :=
  .next (
    let rs := (engOf s shop engine).runs
    match (List.range rs.length).find? (mayComplete s shop rs) with
    | none => s
    | some i => match rs[i]? with
      | none => s
      | some r =>
        let s1 := modEng shop engine (fun e => { e with runs := e.runs.eraseIdx i }) s
        match r.cmd.src with
        | .templ b _ t =>
          tileCommandDone shop b t (modBank shop b (fun k => { k with
            tokens := (postsOf r.cmd).foldl (fun tk p => tk.modify p.1 (· + p.2)) k.tokens }) s1)
        | .ticket l j => ticketDone shop l j s1)

/-- NOP (R124): it completes at once; its tokens are posted at its completion. -/
def execNop (shop engine : Nat) (s : State) : Res := .next (runDone shop engine 0 s)

/-! ### Tickets (R130 to R132) -/

/-- Is a ticket well formed (R131, Table 5.10)? -/
def ticketOk (w : List Nat) : Bool :=
  let q0 := (w[0]?).getD 0
  bitOf q0 3 && bitsOf q0 7 4 == 0 && bitsOf q0 31 20 == 0 && opOk (bitsOf q0 2 0) (bitsOf q0 15 8)
  && ((w.drop 1).take 6).all (fun x => bitsOf x 63 49 == 0)
  && bodyOk (bitsOf q0 15 8) ((w.drop 7).take 5) && (w.drop 12).all (fun x => x == 0) && decide (w.length = 16)

/-- Bring tickets of a list into its window of 64, reading and checking each as it enters (R131, R132, R589). -/
def fillWindow (n l : Nat) : Nat → State → State
  | 0, s => s
  | fuel + 1, s =>
    match (shopOf s n).lists.find? (fun x => decide (x.id = l)) with
    | none => s
    | some x =>
      if !x.resident || decide (x.window.length ≥ 64) || decide (x.next ≥ x.count) then s
      else
        let i := x.next
        let (res, s1) := readCtx x.ctx x.tenant (x.addr + 128 * (i + 1)) 128 s
        let w := (List.range 16).map (fun j => leAt res.data (8 * j) 8)
        let eng := bitsOf (w.headD 0) 2 0
        if !res.ok || res.poison != 0 then workFault n 2 1 eng x.ctx 0x1F i s1
        else if !ticketOk w then workFault n 2 0 eng x.ctx 0x1F i s1
        else if !tallyWordsOk s1 x.tenant ((w.drop 1).take 6) then workFault n 9 0 eng x.ctx 0x1F i s1
        else
          let (m, s2) := postWaits x.ctx x.tenant (.ticket n (l * 65536 + i)) ((w.drop 1).take 4) s1
          fillWindow n l fuel (modList n l (fun x => { x with next := i + 1, window := x.window ++ [⟨i, w, false, none, m⟩] }) s2)

/-- A list takes one of the two resident places once one is free, with its windows granted (R130). -/
def admitList (n : Nat) (s : State) : State :=
  let sh := shopOf s n
  if (sh.lists.filter (fun x => x.resident)).length ≥ 2 then s
  else match sh.lists.find? (fun x => !x.resident && grantable s n x.tenant (windowReqs x.wins)) with
    | none => s
    | some x =>
      let s1 := modList n x.id (fun x => { x with resident := true, granted := true })
        (grant n x.ctx x.tenant (2 + x.id) (windowReqs x.wins) s)
      fillWindow n x.id 64 s1

/-- TICKET_LIST (R111, R130): a dispatch entry names a list. Its header is read and checked. -/
def execTicketList (shop ctx addr : Nat) (s : State) : Res :=
  .next (match ctxOf s ctx with
    | none => s
    | some x =>
      if !shopPresent s shop then s
      else
        let (res, s1) := readCtx ctx x.tenant addr 128 s
        let w := (List.range 16).map (fun j => leAt res.data (8 * j) 8)
        let q0 := w.headD 0
        let wins := (w.drop 1).take 4
        let ok := bitsOf q0 31 0 == 0x54534C54 && bitsOf q0 39 32 == 0xA1 && bitsOf q0 55 40 != 0 && bitsOf q0 63 56 == 0
          && wins.all (fun v => bitsOf v 63 18 == 0 && (bitsOf v 17 9 == 0 || decide (bitsOf v 8 0 + bitsOf v 17 9 ≤ 384)))
          && (w.drop 5).all (fun v => v == 0)
        if !res.ok || res.poison != 0 then workFault shop 2 1 0 ctx 0x1F 0 s1
        else if !ok then workFault shop 2 0 0 ctx 0x1F 0 s1
        else admitList shop (modShop shop (fun sh => { sh with
          lists := sh.lists ++ [⟨sh.nextList, ctx, x.lc, x.tenant, addr, bitsOf q0 55 40, false, false, wins, 0, [], 0⟩]
          nextList := sh.nextList + 1 }) s1))

/-- Does LC work wait for an engine (R126: BE tickets are then not issued)? -/
def lcWaits (s : State) (n e : Nat) : Bool := (engOf s n e).queue.any (fun c => c.lc)

/-- The tickets of the resident lists that may be issued: not issued yet, waits satisfied, LC or no LC work waiting for the engine, room in the engine's
queue, and admitted (R132, R126, R332). -/
def readyTickets (s : State) (n : Nat) : List (TicketList × TicketSt) :=
  (shopOf s n).lists.flatMap (fun l => (l.window.filter (fun w =>
    let e := bitsOf (w.words.headD 0) 2 0
    !w.issued && l.resident && waitsHold ((w.words.drop 1).take 4) w.waited && (l.lc || !lcWaits s n e)
    && decide (ticketEntries (engOf s n e) < 128)
    && ((ticketCand s l.ctx l.addr w.idx).map (fun c => decide (c.admitted > 0))).getD false)).map (fun w => (l, w)))

/-- The ticket of the lowest list index; the first among equals. -/
def lowestTicket (l : List (TicketList × TicketSt)) : Option (TicketList × TicketSt) :=
  l.foldl (fun best p => match best with
    | none => some p
    | some b => if p.2.idx < b.2.idx then some p else some b) none

/-- The command of a ticket (Table 5.10). -/
def ticketCmd (l : TicketList) (w : TicketSt) : Cmd :=
  let q0 := w.words.headD 0
  { engine := bitsOf q0 2 0, opcode := bitsOf q0 15 8, ctx := l.ctx, lc := l.lc, tenant := l.tenant
    cvt := bitsOf q0 19 16, seed := bitsOf q0 63 32, body := (w.words.drop 7).take 5, waits := 0, posts := 0
    src := .ticket l.id w.idx, overflow := false, checks := [] }

/-- TICKET_ISSUE (R132): the ready ticket of the lowest list index is issued into its engine's queue, once admitted (R332);
each issue admits the next ticket of its list into the window. -/
def execTicketIssue (shop : Nat) (s : State) : Res :=
  .next (
    let s0 := admitList shop s
    match lowestTicket (readyTickets s0 shop) with
    | none => s0
    | some (l, w) =>
      let cmd := ticketCmd l w
      let s1 := modEng shop cmd.engine (fun e => { e with queue := e.queue ++ [cmd] }) s0
      let s2 := modList shop l.id (fun x => { x with window := x.window.map (fun y => if y.idx = w.idx then { y with issued := true } else y) }) s1
      fillWindow shop l.id 1 s2)

/-- CANCEL_ENTRY (R111, R129): a dispatch entry cancels a context on the shop, without a fault. -/
def execCancelEntry (shop ctx : Nat) (s : State) : Res := .next (takeLoad shop (cancelShop ctx shop s))

/-! ### Pre-emption and resume (R126, R127) -/

/-- Tiles a running sheet has still to emit. -/
def tilesLeft (k : SheetBank) : Nat :=
  match k.cur with
  | none => 0
  | some c => bitsOf ((k.regs[4]?).getD 0) 31 0 - tileNum k.regs c

/-- PREEMPTION (R126): an LC sheet load waits and no bank is free. The running BE sheet with the fewer tiles remaining is
asked to stop; bank 0 among equals. -/
def execPreemption (shop : Nat) (s : State) : Res :=
  .next (
    let sh := shopOf s shop
    let be := fun (b : Nat) => let k := bankOf s shop b; decide (k.st = 3) && !k.lc && !k.preempt
    if !sh.loads.any (fun l => l.lc) || sh.banks.any (fun b => decide (b.st = 0) || b.preempt) then s
    else
      let pick := if be 0 && (!be 1 || decide (tilesLeft (bankOf s shop 0) ≤ tilesLeft (bankOf s shop 1))) then some 0
        else if be 1 then some 1 else none
      match pick with
      | some b => modBank shop b (fun k => { k with preempt := true }) s
      | none => s)

/-- The 64 bytes of a resume record (Table 5.7). -/
def resumeBytes (k : SheetBank) (c : Cursor) : List Byte :=
  let i := fun (l : Nat) => (c.idx[l]?).getD 0 % 2 ^ 20
  let w3 := fun (a : Nat) => i a + i (a + 1) * 2 ^ 20 + i (a + 2) * 2 ^ 40
  let tok := (List.range 24).map (fun j => BitVec.ofNat 8 ((k.tokens[j]?).getD 0))
  let rest := leBytes 8 (w3 0) ++ leBytes 8 (w3 3) ++ leBytes 8 (i 6) ++ tok ++ leBytes 8 0
  leBytes 4 (tileNum k.regs c) ++ leBytes 4 (crc32 rest).toNat ++ rest

/-- RESUME_RECORD_WRITE (R126, R127): the stopped sheet's tile in flight has completed; the record is written at RESUME and
the bank freed. The sheet keeps its windows. A record that cannot be written is a PROTECTION fault. -/
def execResumeRecordWrite (shop bank : Nat) (s : State) : Res :=
  .next (
    let k := bankOf s shop bank
    match k.cur with
    | none => s
    | some c =>
      if k.st = 3 ∧ k.stopped = true ∧ k.tiles = [] then
        let at_ := (k.regs[2]?).getD 0
        if !writeOk s k.ctx k.tenant at_ 64 then workFault shop 5 0 0 k.ctx 0x1E 0 s
        else
          let s1 := writeCtx k.tenant at_ (resumeBytes k c) s
          let wins := ((shopOf s1 shop).windows.filter (fun w => decide (w.ctx = k.ctx ∧ w.holder = bank))).length
          let s2 := modShop shop (fun sh => { sh with
            preempted := sh.preempted ++ [⟨k.ctx, k.addr, k.lc, k.tenant, wins⟩]
            windows := sh.windows.map (fun w => if w.ctx = k.ctx ∧ w.holder = bank then { w with holder := 0x10000 + k.addr } else w) }) s1
          takeLoad shop (bump (shopC shop 0x160) 1 (modBank shop bank (fun _ => SheetBank.reset) s2))
      else s)

/-- RESUME_GO (R127): the image of a pre-empted sheet has been loaded again; its record is read and checked, the token
counters restored, and emission goes on from tile NEXT_TILE. On another shop, or with a bad record, it is a SHEET_BAD
fault. -/
def execResumeGo (shop ctx addr : Nat) (s : State) : Res :=
  .next (match bankFor s shop ctx addr with
    | none => s
    | some b =>
      let k := bankOf s shop b
      if k.st ≠ 2 ∨ k.go = true then s
      else if !(shopOf s shop).preempted.any (fun p => decide (p.ctx = ctx ∧ p.addr = addr)) then workFault shop 1 0 0 ctx 0x1E 0 s
      else
        let (res, s1) := readCtx ctx k.tenant ((k.regs[2]?).getD 0) 64 s
        let rest := res.data.drop 8
        let i := fun (q j : Nat) => bitsOf (leAt res.data (8 * q) 8) (20 * j + 19) (20 * j)
        let idx := [i 1 0, i 1 1, i 1 2, i 2 0, i 2 1, i 2 2, i 3 0]
        if !res.ok || res.poison != 0 then workFault shop 1 1 0 ctx 0x1E 0 s1
        else if (crc32 rest).toNat ≠ leAt res.data 4 4 then workFault shop 1 0 0 ctx 0x1E 0 s1
        else
          let s2 := modShop shop (fun sh => { sh with
            preempted := sh.preempted.filter (fun p => !(decide (p.ctx = ctx) && decide (p.addr = addr)))
            windows := sh.windows.map (fun w => if w.ctx = ctx ∧ w.holder = 0x10000 + addr then { w with holder := b } else w) }) s1
          goCheck shop b (modBank shop b (fun k => { k with
            go := true, resume := true, lastTile := none
            tokens := (List.range 20).map (fun j => leAt res.data (32 + j) 1)
            cur := some (tileCursor k.regs idx) }) s2))

/-! ### The watchdog (R128) -/

/-- Did a tile that started in this bell pass the watchdog's bound at the boundary that opens bell `now`? -/
def overdue (started : Option Nat) (now : Nat) : Bool := (started.map (fun b => decide (b + 3 ≤ now))).getD false

/-- Contexts of a shop with a tile or ticket that the watchdog ends at the boundary that opens bell `now`. -/
def overdueCtxs (s : State) (n now : Nat) : List Nat :=
  let sh := shopOf s n
  (((sh.banks.filter (fun b => decide (b.st = 3) && b.tiles.any (fun t => overdue t.started now))).map (fun b => b.ctx))
    ++ ((sh.lists.filter (fun l => l.window.any (fun w => overdue w.started now))).map (fun l => l.ctx))).eraseDups

/-- The watchdog fires on a shop at the boundary that opens bell `now`: the contexts end with a WATCHDOG fault. -/
def watchShop (now n : Nat) (s : State) : State :=
  (overdueCtxs s n now).foldl (fun s c => bump (shopC n 0x180) 1 (workFault n 8 0 0 c 0x1E 0 s)) s

/-- WATCHDOG (R128) on one shop, at the boundary of the running bell. -/
def execWatchdog (shop : Nat) (s : State) : Res := .next (watchShop s.bell shop s)

end Sys2Proof.Machine
end

