-- ==== Sys2Proof/Machine/EngOps.lean ====
section
/-! DEFINITION. Shared operations of the engines: the stockroom, the bytes a load reads (here or from another device), plane
segments (R143, R146), conversions (R37 to R42), rows of an order's cache (R211, R221). -/

namespace Sys2Proof.Machine

/-- The local address of a stockroom offset. -/
def roomAddr (n off : Nat) : Nat := 0x020000000000 + n * 0x200000 + off

/-- Bytes of a stockroom. -/
def roomRead (s : State) (n off len : Nat) : List Byte := (List.range len).map (fun i => keyByte s (roomAddr n off + i))

/-- Is any line of a stockroom range poisoned? -/
def roomPoison (s : State) (n off len : Nat) : Bool :=
  decide (0 < len) && (List.range ((off + len - 1) / 64 + 1 - off / 64)).any (fun i =>
    linePoison s (roomAddr n 0 / 64 + off / 64 + i))

/-- Write bytes into a stockroom. -/
def roomWrite (n off : Nat) (l : List Byte) (s : State) : State :=
  writeKeys (l.zipIdx.map (fun p => (roomAddr n off + p.2, p.1))) s

/-- Ids of the requests issued between two states. -/
def newReqs (a b : State) : List Nat := (List.range (b.bal.nextId - a.bal.nextId)).map (· + a.bal.nextId)

/-- Byte `i` of a transfer whose remote pieces have arrived, with its poison: the mask of a piece counts 64-byte sectors of
the target's address `a`. -/
def chunkByte (a : Nat) (chunks : List (Nat × List Byte × Nat)) (i : Nat) : Byte × Bool :=
  match chunks.find? (fun c => decide (c.1 ≤ i ∧ i < c.1 + c.2.1.length)) with
  | some c => ((c.2.1[i - c.1]?).getD 0, bitOf c.2.2 ((a + i) / 64 - (a + c.1) / 64))
  | none => (0, false)

/-- The source bytes of an engine's active command, each with its poison, when they are at hand: local memory now, remote
memory once every answer has arrived. The state carries the effects of the reads. -/
def sourceBytes (s : State) (r : Run) (A len : Nat) : Option (List (Byte × Bool)) × State :=
  match resolve s r.cmd.tenant A with
  | .remote _ a =>
    if r.asked && r.need.isEmpty then (some ((List.range len).map (chunkByte a r.chunks)), s) else (none, s)
  | h =>
    if homeInReset s h then (none, retried s) else
    let l := (List.range len).map (fun i => ctxByte s r.cmd.ctx r.cmd.tenant (A + i))
    (some (l.map (fun o => ((o.getD (0, 0)).1, decide ((o.getD (0, 0)).2 ≠ 0)))),
     readFx r.cmd.tenant A len s)

/-- The device a run's address leads to, when it is another one. -/
def remoteOf (s : State) (ten : Option Nat) (A : Nat) : Option (Nat × Nat) :=
  match resolve s ten A with
  | .remote d a => some (d, a)
  | _ => none

/-- The same bytes without those of any aligned 64-byte sector, counted from address `a`, that holds poison. -/
def sectorClean (a : Nat) (l : List (Byte × Bool)) : List (Nat × Byte) :=
  let bad := ((l.zipIdx.filter (fun p => p.1.2)).map (fun p => (a + p.2) / 64)).eraseDups
  (l.zipIdx.filter (fun p => !bad.contains ((a + p.2) / 64))).map (fun p => (p.2, p.1.1))

/-- The pieces of a list by aligned 64-byte sector, counted from address `a`, that hold no poison: offset and bytes. -/
def cleanSectors (a : Nat) (l : List (Byte × Bool)) : List (Nat × List Byte) :=
  if l.isEmpty then []
  else (List.range ((a + l.length - 1) / 64 + 1 - a / 64)).filterMap (fun i =>
    let lo := max a ((a / 64 + i) * 64) - a
    let hi := min (a + l.length) ((a / 64 + i) * 64 + 64) - a
    let p := (l.drop lo).take (hi - lo)
    if p.any (fun x => x.2) then none else some (lo, p.map Prod.fst))

/-! ### Plane segments -/

/-- A parsed segment: offset of its header area, its headers, its length. -/
structure Segment where
  off : Nat
  headers : List Nat
  len : Nat
deriving DecidableEq, Repr

/-- The segment at an offset (R143, R146): headers up to the first all-zero slot. -/
def segmentAt (bytes : List Byte) (off : Nat) : Segment :=
  let slots := (List.range 64).map (fun j => leAt bytes (off + 16 * j) 16)
  let hs := slots.takeWhile (fun h => decide (h ≠ 0))
  let w := (hs.map (fun h => h % 8 + 1)).sum
  ⟨off, hs, (1024 + 32 * w + 63) / 64 * 64⟩

/-- Segments of a run of bytes, and whether their lengths add up exactly to its length. -/
def segmentsOf (bytes : List Byte) : Nat → Nat → List Segment × Bool
  | 0, off => ([], off == bytes.length)
  | fuel + 1, off =>
    if off = bytes.length then ([], true)
    else if off + 1024 > bytes.length then ([], false)
    else
      let g := segmentAt bytes off
      if off + g.len > bytes.length then ([], false)
      else
        let (l, ok) := segmentsOf bytes fuel (off + g.len)
        (g :: l, ok)

/-- Byte offset of block `j`'s plane 0 in its segment (R143). -/
def blockOffset (g : Segment) (j : Nat) : Nat := 1024 + 32 * ((g.headers.take j).map (fun h => h % 8 + 1)).sum

/-- The planes of block `j`. -/
def blockPlanes (bytes : List Byte) (g : Segment) (j : Nat) : List (List Byte) :=
  let w := (g.headers.getD j 0) % 8 + 1
  (List.range w).map (fun p => (bytes.drop (g.off + blockOffset g j + 32 * p)).take 32)

/-- Does format `f` hold every value of format `e` exactly (R49, R125)? -/
def fmtHolds (f e : Fmt) : Bool :=
  if f = e then true
  else match e with
    | .int8 => fmtFloat f && decide (fmtM f ≥ 7)
    | .int4 | .int32 => false
    | e => fmtFloat f && decide (fmtM f ≥ fmtM e)
        && decide ((1 : Int) - fmtBias f - fmtM f ≤ 1 - fmtBias e - fmtM e)
        && (ltV (decodeFloat e (maxCode e)) (decodeFloat f (maxCode f)) || eqV (decodeFloat e (maxCode e)) (decodeFloat f (maxCode f)))
        && (fmtInf f || !fmtInf e)

/-- The decoded codes of a block, without their scale (R49): an MXINT8 element expands to its
integer; a block with an invalid header to NaN (R48). -/
def expandBlock (h : Nat) (planes : List (List Byte)) : List FVal :=
  (List.range 256).map (fun i =>
    if !planeHeaderOk h then .nan
    else
      let k := bitsOf h 6 3
      let c := planeElem planes i
      if k = 7 then decodeElem .int8 c else planeCode k (h % 8 + 1) c)

/-! ### Conversions on the shops' paths -/

/-- Convert values to codes under a command's control: the codes, and how many conversions count in SHOP_FMT_EVENTS (R42). -/
def convertList (f : Fmt) (cvt seed : Nat) (vals : List (FVal × Nat)) : List Nat × Nat :=
  let c := cvtOfBits cvt
  (vals.map (fun p => convertTo f c (if c.rmode = 2 then srRandom seed p.2 else 0) p.1),
   (vals.filter (fun p => convertCounts f c p.1)).length)

/-- Count format events of a shop. -/
def fmtEvents (n k : Nat) (s : State) : State := if k = 0 then s else bump (shopC n 0x198) k s

/-! ### Rows of an order's cache -/

/-- Write a key or value row of a local page: the row's bytes, then zeros to the stride (R211); the stack counts it
(Table 9.7). -/
def writeKvRow (o l h p kvSel : Nat) (row : List Byte) (s : State) : State :=
  match orderKv s o, kvRowKey s o l h p kvSel with
  | some kv, some k =>
    let st := kvStride kv
    bump (stkC (k / 2 ^ 36) 0x1A8) 1
      (writeKeys ((row.take st ++ List.replicate (st - row.length) 0).zipIdx.map (fun (x : Byte × Nat) => (k + x.2, x.1))) s)
  | _, _ => s

/-- The word that names a forwarded row (log entry 12, DESIGN CHOICE): order, layer, head, position, key or value. -/
def kvRowWord (o l h p kvSel : Nat) : Nat := o + l * 2 ^ 16 + h * 2 ^ 28 + p * 2 ^ 36 + kvSel * 2 ^ 61

/-- Write one row of an order at global coordinates: here, or at the member that owns it (R221). -/
def placeKvRow (o l h p kvSel : Nat) (row : List Byte) (ten : Option Nat) (ctx : Nat) (iss : Issuer) (s : State) : State :=
  match orderKv s o with
  | none => s
  | some kv =>
    let q := kvParts s kv
    if devHolds kv.layers q.1 l && devHolds kv.heads q.2.1 h && devHolds kv.pos q.2.2 p then
      writeKvRow o (devLocal kv.layers l) (devLocal kv.heads h) (devLocal kv.pos p) kvSel row s
    else
      let dst := ((groupMembers s kv.group)[kvMember kv l h p]?).getD 0
      sendReq { mkPacket 3 dst 0x080000000000 (cdiv row.length 32) (kvRowWord o l h p kvSel) row with op := 7 } ten ctx iss 0 s

/-- Element index of a KV element for stochastic rounding (Table 2.13). -/
def kvElemIndex (kv : KvDesc) (l h p kvSel i : Nat) : Nat :=
  ((l * kv.heads.extent + h) * kv.pos.extent + p) * (2 * kv.d) + kvSel * kv.d + i

/-- The checks of R221 on coordinates and formats: a Table 5.11 code, 0 when the rows may be written. -/
def kvCheck (s : State) (o l h p tokens hdim sfmt dfmt : Nat) : Nat :=
  match orderKv s o with
  | none => 3
  | some kv =>
    let r := orderOf s o
    let inStep := (r.step.map (fun x => x.admitted && decide (x.t0 ≤ p ∧ p + tokens ≤ x.e))).getD false
    if l ≥ kv.layers.extent ∨ h ≥ kv.heads.extent ∨ hdim ≠ kv.d ∨ inStep = false then 3
    else if dfmt ≠ kv.fmt ∨ codeFmt sfmt = none then 4
    else 0

end Sys2Proof.Machine
end

