-- ==== Sys2Proof/Machine/Array.lean ====
section
/-! DEFINITION. The matrix array (R63 to R73, R78 to R80): passes and their slots, the weight loader, the drain's arithmetic (R50
to R54, R64), and the repair sequencer. Operand tiles lie as log entry 11, DESIGN CHOICE, says. -/

namespace Sys2Proof.Machine

/-! ### Layout of a pass -/

def pM (b : List Nat) : Nat := bf b 2 12 0
def pK (b : List Nat) : Nat := bf b 2 21 13
def pN (b : List Nat) : Nat := bf b 2 29 22
def pSubs (b : List Nat) : Nat := bf b 2 34 32
def pAfmt (b : List Nat) : Fmt := (codeFmt (bf b 2 38 35)).getD .bf16
def pWfmt (b : List Nat) : Fmt := (codeFmt (bf b 2 42 39)).getD .bf16
def pCont (b : List Nat) : Bool := bf b 2 43 43 == 1

/-- Rows of each sub-array of a mode (Table 3.4). -/
def subRows (mode : Nat) : Nat := 128 / modeSubs mode

/-- Reduction values per cell of a class (Table 3.3). -/
def perCell (cls : Nat) : Nat := if cls = 0 then 2 else 1

/-- Weight codes of array row `r` of each sub-array: its reduction values in ascending order, each with N columns. The tile lies
at WGT as rows of N elements, sub-array after sub-array. -/
def tileRow (s : State) (n : Nat) (b : List Nat) (r : Nat) : List (List Nat) :=
  let f := pWfmt b
  let pc := perCell (passClass b)
  (List.range (pSubs b)).map (fun i =>
    ((List.range pc).filter (fun j => decide (r * pc + j < pK b))).flatMap (fun j =>
      let k := i * pK b + r * pc + j
      let raw := roomRead s n (bf b 0 41 21 + k * elemBytes f (pN b)) (elemBytes f (pN b))
      (List.range (pN b)).map (fun c => elemCode f raw c)))

/-- Is a weight line of array row `r` poisoned? -/
def rowPoison (s : State) (n : Nat) (b : List Nat) (r : Nat) : Bool :=
  let f := pWfmt b
  let pc := perCell (passClass b)
  (List.range (pSubs b)).any (fun i => (List.range pc).any (fun j =>
    decide (r * pc + j < pK b) && roomPoison s n (bf b 0 41 21 + (i * pK b + r * pc + j) * elemBytes f (pN b)) (elemBytes f (pN b))))

/-- Array rows that a tile uses. -/
def tileRows (b : List Nat) : Nat := cdiv (pK b) (perCell (passClass b))

/-- The tag of the next new tile: 0 for the first after reset, then alternating (R65). -/
def nextTag (a : ArraySt) : Nat := if a.count = 0 then 0 else 1 - a.tag

/-- The next pass command that the array has not begun. -/
def nextPass (s : State) (n : Nat) : Option Run :=
  ((engOf s n 1).runs.filter (fun r => !r.done && r.cmd.opcode == 0x10))[(shopOf s n).array.passes.length]?

/-- Write one weight row into the buffer of the tile to come. -/
def loadRow (n r : Nat) (b : List Nat) (s : State) : State :=
  modArray n (fun a => { a with
    weights := tset [] a.weights (nextTag a * 512 + r) (tileRow s n b r), rows := a.rows ++ [r] }) s

/-- WEIGHT_ROW_WRITE (R70, R71): in slot `slot`, the loader writes row `row` of the next new tile into the free buffer, once
that row is free: slot a + row + 128, where a is the entry slot of the last vector of the tile that used the buffer. A
continuation loads nothing; a poisoned line is a POISON fault (Table 18.2). -/
def execWeightRowWrite (shop row slot : Nat) (s : State) : Res :=
  .next (match nextPass s shop with
    | none => s
    | some r =>
      let a := (shopOf s shop).array
      let b := r.cmd.body
      if pCont b || decide (row ≥ tileRows b) || a.rows.contains row then s
      else if decide (a.count ≥ 2 ∧ slot < a.prevLast + row + 128) then s
      else if rowPoison s shop b row then cmdFault shop r.cmd 6 0 s
      else loadRow shop row b s)

/-! ### Streaming a pass -/

/-- Activation codes by sub-array, then vector; vectors lie one after another from ACT. -/
def passActs (s : State) (n : Nat) (b : List Nat) : List (List (List Nat)) :=
  let f := pAfmt b
  (List.range (pSubs b)).map (fun i => (List.range (pM b)).map (fun m =>
    let raw := roomRead s n (bf b 0 20 0 + i * bf b 1 41 21 + m * elemBytes f (pK b)) (elemBytes f (pK b))
    (List.range (pK b)).map (fun k => elemCode f raw k)))

/-- The first vector with a poisoned activation line. -/
def actPoison (s : State) (n : Nat) (b : List Nat) : Option Nat :=
  let f := pAfmt b
  (List.range (pM b)).find? (fun m => (List.range (pSubs b)).any (fun i =>
    roomPoison s n (bf b 0 20 0 + i * bf b 1 41 21 + m * elemBytes f (pK b)) (elemBytes f (pK b))))

/-- The earliest entry slot that R65, R68 and R70 allow a pass, and whether the wait is by R68 or R70. -/
def entrySlot (a : ArraySt) (b : List Nat) (idle : Nat) : Nat :=
  let soon := a.lastSlot + 1 + idle
  if a.count = 0 ∨ idle ≥ 256 then soon
  else if a.mode ≠ bf b 2 31 30 ∨ a.cls ≠ passClass b then max soon (a.drainSlot + 1)
  else if pCont b ∨ a.count < 2 then soon
  else max soon (a.prevLast + 129)

/-- PASS (R65 to R72): one run of M vectors. Rows that the loader has not written yet are written first, and the wait for them
is part of `feed`. `idle` is the number of slots since the last vector entered in which no vector waited; `feed`, `drain`
and `long` are the freeze cycles by cause and the stretches longer than 4,096 cycles. -/
def passRun (shop idle feed drain long : Nat) (r : Run) (s : State) : State :=
  let a := (shopOf s shop).array
  let b := r.cmd.body
  let cont := pCont b
  let need := (List.range (tileRows b)).filter (fun i => !a.rows.contains i)
  let wPoison := !cont && need.any (rowPoison s shop b)
  let tag := if cont then a.tag else nextTag a
  let entry := entrySlot a b idle
  let stall := entry - (a.lastSlot + 1 + idle)
  let last := entry + pM b - 1
  let mode := bf b 2 31 30
  let p : PassSt := { cmd := r.cmd, tag := tag, streamed := true, last := last, acts := passActs s shop b, drained := 0
                      poisonAt := if wPoison then some 0 else actPoison s shop b, flag := none }
  let s1 := if cont then s else need.foldl (fun s i => loadRow shop i b s) s
  let s2 := modArray shop (fun a => { a with
    passes := a.passes ++ [p], tag := tag, rows := if cont then a.rows else []
    mode := mode, cls := passClass b
    prevLast := if cont then a.prevLast else a.lastSlot
    lastSlot := last, drainSlot := last + subRows mode + 128
    count := if cont then a.count else min 2 (a.count + 1) }) s1
  let tail := min idle (subRows a.mode + 128)
  let slots := pM b + stall + tail
  let cls := passClass b
  let len := if cls = 2 ∨ mode ≥ 2 then 2 else 1
  let e := match cls with | 0 => 381000 | 1 => 319000 | _ => 272000
  bumpBell 2 shop 0 slots <| shopActivity shop (slots * len * e) <| bump (shopC shop 0x128) 1 (bump (shopC shop 0x100) (pM b + stall + tail) (bump (shopC shop 0x120) stall
    (bump (shopC shop 0x108) feed (bump (shopC shop 0x110) drain (bump (shopC shop 0x118) long s2)))))

def execPass (shop idle feed drain long : Nat) (s : State) : Res :=
  .next (match nextPass s shop with
    | some r => if (shopOf s shop).array.passes.length < 2 then passRun shop idle feed drain long r s else s
    | none => s)

/-! ### The drain (R50 to R54, R64, R66) -/

/-- Scale kinds of a pass. -/
def askOf (b : List Nat) : Nat := bf b 3 43 42
def wskOf (b : List Nat) : Nat := bf b 3 45 44

/-- The value of an operand's code; under an MX scale an INT8 element carries the 2⁻⁶ of MXINT8. -/
def operandVal (f : Fmt) (kind c : Nat) : FVal :=
  let v := decodeElem f c
  if f = .int8 ∧ kind = 1 then mulV v (.fin false 1 (-6)) else v

/-- The E8M0 scale of a segment: MX scales of the operand's scale tensor, or a plane header's own eight (SMODE 1). -/
def segScale (s : State) (n kind mxOff hdrOff g : Nat) : FVal :=
  match kind with
  | 1 => decodeE8M0 (keyWord s (roomAddr n mxOff) 1)
  | 2 => let h := keyWord s (roomAddr n hdrOff) 16
         if bitOf h 7 then decodeE8M0 (bitsOf h (8 * (g % 8) + 71) (8 * (g % 8) + 64)) else .fin false 1 0
  | _ => .fin false 1 0

/-- A plane header's block scale as the drain applies it at the block's end: SCALE under SMODE 0, with the 2⁻⁶ of MXINT8. -/
def blockScale (s : State) (n kind hdrOff : Nat) : FVal :=
  if kind = 2 then
    let h := keyWord s (roomAddr n hdrOff) 16
    let fold := fun (v : FVal) => if bitsOf h 6 3 = 7 then mulV v (.fin false 1 (-6)) else v
    fold (if bitOf h 7 then .fin false 1 0 else decodeFloat .bf16 (bitsOf h 31 16))
  else .fin false 1 0

/-- Is a segment scaled on its own: an MX operand, or a plane header with SMODE 1? -/
def segScaled (s : State) (n kind hdrOff : Nat) : Bool :=
  kind == 1 || (kind == 2 && bitOf (keyWord s (roomAddr n hdrOff) 16) 7)

/-- Saturating INT32 sum, with whether it saturated (R53). -/
def satAdd (a : Int × Nat) (x : Int) : Int × Nat :=
  let v := a.1 + x
  let c := clampInt (-2147483648) 2147483647 v
  (c, if c = v then a.2 else a.2 + 1)

/-- One output of the array: seed code, operand codes of the column in ascending reduction order, the scales of each segment
of 32, and whether segments are scaled. The result code and saturations. -/
def columnSum (fa fw : Fmt) (ka kw : Nat) (seed : Nat) (ops : List (Nat × Nat)) (scaled : Bool) (sc : Nat → FVal) : Nat × Nat :=
  if !fmtFloat fa && !scaled then
    let r := ops.foldl (fun acc p => satAdd acc ((decodeInt fa p.1) * (decodeInt fw p.2))) (signedOf 32 seed, 0)
    (codeOf 32 r.1, r.2)
  else if !scaled then
    (ops.foldl (fun acc p => accAdd acc (mulV (operandVal fa ka p.1) (operandVal fw kw p.2))) seed, 0)
  else
    let segs := (groupsOf 32 ops.length ops).zipIdx
    (segs.foldl (fun acc g =>
      let sum := (g.1.map (fun p => mulV (operandVal fa ka p.1) (operandVal fw kw p.2))).foldl addV (.fin false 0 0)
      accAdd acc (mulV sum (sc g.2))) seed, 0)
where
  decodeInt (f : Fmt) (c : Nat) : Int := signedOf (fmtBits f) c

/-- Codes of one column of the buffer of a tag, for sub-array i, in ascending reduction order. -/
def columnWeights (a : ArraySt) (tag i n rows col : Nat) : List Nat :=
  (List.range rows).flatMap (fun r =>
    let l := ((tget [] a.weights (tag * 512 + r))[i]?).getD []
    (List.range (l.length / max 1 n)).map (fun j => (l[j * n + col]?).getD 0))

/-- One output of a drained vector: its destination offset, the code written there, saturations, and whether a seed line was
poisoned. -/
def drainCell (s : State) (n : Nat) (a : ArraySt) (p : PassSt) (m i col : Nat) : Nat × Nat × Nat × Bool :=
  let b := p.cmd.body
  let K := pK b
  let N := pN b
  let fa := pAfmt b
  let fw := pWfmt b
  let cell := i * bf b 1 62 42 + (m * N + col) * 4
  let acc := bf b 0 62 42 + cell
  let part := bf b 1 20 0 + cell
  let seedOff := if bf b 2 45 44 = 2 then part else acc
  let blkEnd := bf b 2 47 47 = 1
  let seed := if bf b 2 45 44 = 1 then 0 else keyWord s (roomAddr n seedOff) 4
  let segs := cdiv K 32
  let aOff := bf b 3 20 0
  let wOff := bf b 3 41 21
  let aHdr := aOff + 16 * (i * pM b + m)
  let wHdr := wOff + 16 * (i * N + col)
  let sc := fun (g : Nat) => mulV
    (segScale s n (askOf b) (aOff + (i * pM b + m) * segs + g) aHdr g)
    (segScale s n (wskOf b) (wOff + (i * segs + g) * N + col) wHdr g)
  let scaled := segScaled s n (askOf b) aHdr || segScaled s n (wskOf b) wHdr
  let ops := (((p.acts[i]?).getD [])[m]?.getD []).zip (columnWeights a p.tag i N (tileRows b) col)
  let (sum, sat) := columnSum fa fw (askOf b) (wskOf b) seed ops scaled sc
  let poison := decide (bf b 2 45 44 ≠ 1) && roomPoison s n seedOff 4 || (blkEnd && roomPoison s n acc 4)
  if blkEnd then
    let v : FVal := if fmtFloat fa || scaled then ofF32 sum else decodeElem .int32 sum
    let scl := mulV (blockScale s n (askOf b) aHdr) (blockScale s n (wskOf b) wHdr)
    (acc, accAdd (keyWord s (roomAddr n acc) 4) (ofF32 (toF32Flush (mulV v scl))), sat, poison)
  else (if bf b 2 46 46 = 1 then part else acc, sum, sat, poison)

/-- Write the checked vector `m` of the oldest pass (R66, R79); the pass completes with its last. -/
def drainVector (shop : Nat) (p : PassSt) (s : State) : State :=
  let a := (shopOf s shop).array
  let b := p.cmd.body
  let m := p.drained
  let cells := (List.range (pSubs b)).flatMap (fun i => (List.range (pN b)).map (fun c => drainCell s shop a p m i c))
  if cells.any (fun x => x.2.2.2) || decide (p.poisonAt = some m) then cmdFault shop p.cmd 6 0 s
  else
    let s1 := cells.foldl (fun s x => roomWrite shop x.1 (leBytes 4 x.2.1) s) s
    let sat := (cells.map (fun x => x.2.2.1)).sum
    let s2 := if sat = 0 then s1 else bump (shopC shop 0x1A0) sat s1
    if m + 1 ≥ pM b then
      runDone shop 1 0x10 (modArray shop (fun a => { a with passes := a.passes.drop 1 }) s2)
    else modArray shop (fun a => { a with passes := a.passes.modify 0 (fun q => { q with drained := m + 1 }) }) s2

/-- PASS_DRAIN (R66, R79): the next output vector of the oldest pass has arrived at the drain. A vector in which a cell flagged an
error is not written, nor any later vector of the pass: `flagged` with the logical row and column, `parity` for a weight
buffer's parity, `multi` for two or more columns of the row. -/
def execPassDrain (shop : Nat) (flagged : Bool) (row col : Nat) (parity multi : Bool) (s : State) : Res :=
  .next (match (shopOf s shop).array.passes.head? with
    | none => s
    | some p =>
      if p.flag.isSome || (shopOf s shop).array.failed then s
      else if flagged then
        modArray shop (fun a => { a with passes := a.passes.modify 0 (fun q => { q with flag := some (row, col, parity, multi) }) }) s
      else drainVector shop p s)

/-! ### The repair sequencer (R80) -/

/-- The physical index of a logical row or column: the enabled ones in ascending order (R78). -/
def physIndex (off : List (Nat × Bool)) (l : Nat) : Nat :=
  (((List.range 132).filter (fun i => !(off.map Prod.fst).contains i))[l]?).getD 0xFF

/-- Retire a physical index in favour of the lowest free spare. -/
def retireIdx (off : List (Nat × Bool)) (p : Nat) : Option (List (Nat × Bool)) :=
  match off.find? (fun x => x.2) with
  | some sp => some (off.filter (fun x => decide (x.1 ≠ sp.1)) ++ [(p, false)])
  | none => none

/-- Retire the column or row of a hard error: a column first, a row first for a row fault. Answers the array, and the physical
row and column retired (0xFF for none); none where no suitable spare remains. -/
def retireCell (a : ArraySt) (row col : Nat) (multi : Bool) : Option (ArraySt × Nat × Nat) :=
  let pr := physIndex a.rowsOff row
  let pc := physIndex a.colsOff col
  let byRow := (retireIdx a.rowsOff pr).map (fun o => ({ a with rowsOff := o, softRows := a.softRows ++ [pr], lastRow := pr, softPending := true }, pr, 0xFF))
  let byCol := (retireIdx a.colsOff pc).map (fun o => ({ a with colsOff := o, softCols := a.softCols ++ [pc], lastCol := pc, softPending := true }, 0xFF, pc))
  if multi then byRow.orElse (fun _ => byCol) else byCol.orElse (fun _ => byRow)

/-- ARRAY_REPLAY (R80): the tile is reloaded and the pass replayed from the flagged vector; `again` says that the same cell
flagged again. A clean replay counts a transient, the third of a cell in a ledger period is hard; a hard error retires a
column or row and replays; with no suitable spare the array has failed and the shop waits to be spared. -/
def execArrayReplay (shop : Nat) (again : Bool) (s : State) : Res :=
  .next (
    let sh := shopOf s shop
    match sh.array.passes.head? with
    | none => s
    | some p => match p.flag with
      | none => s
      | some (row, col, parity, multi) =>
        let cell := physIndex sh.array.rowsOff row * 256 + physIndex sh.array.colsOff col
        let cnt := tget 0 sh.array.transients cell + 1
        let hard := again || decide (cnt ≥ 3)
        let clear := fun (a : ArraySt) => { a with passes := a.passes.modify 0 (fun q => { q with flag := none }) }
        let s0 := modShop shop (fun sh => { sh with parity := if parity then min 0xFF (sh.parity + 1) else sh.parity }) (bump (shopC shop 0x130) 1 s)
        let s1 := if again then s0 else modShop shop (fun sh => { sh with transient := min 0xFFFF (sh.transient + 1) })
          (modArray shop (fun a => { a with transients := tset 0 a.transients cell cnt }) s0)
        if !hard then modArray shop clear s1
        else
          let s2 := modShop shop (fun sh => { sh with hard := min 0xFF (sh.hard + 1) }) s1
          match retireCell sh.array row col multi with
          | some (_, pr, pc) =>
            let s3 := bump (shopC shop 0x130) 1 (modArray shop (fun a => clear (((retireCell a row col multi).map Prod.fst).getD a)) s2)
            rasLog 0x0B 1 (unitWord 2 shop 0) 0 0 ownerDev (pr + pc * 256) s3
          | none =>
            let s3 := modArray shop (fun a => { a with failed := true }) s2
            rasLog 0x0B 1 (unitWord 2 shop 0) 0 0 ownerDev 0xFFFF s3)

end Sys2Proof.Machine
end

