-- ==== Sys2Proof/Machine/BenchOps.lean ====
section
/-! DEFINITION. Shared operations of the bench cores (R83 to R104): registers and lanes, the issue of an instruction, rounding and
flags, faults, instances and launches. -/

namespace Sys2Proof.Machine

/-! ### Registers -/

/-- A scalar register; s0 reads as zero (Table 4.1). -/
def getS (b : BenchSt) (r : Nat) : Nat := if r = 0 then 0 else (tget 0 b.s r).toNat

/-- Write a scalar register; writes to s0 are discarded. -/
def putS (r v : Nat) (b : BenchSt) : BenchSt := if r = 0 then b else { b with s := tset 0 b.s r (BitVec.ofNat 64 v) }

def getV (b : BenchSt) (r : Nat) : Nat := (tget 0 b.v r).toNat

def putV (r v : Nat) (b : BenchSt) : BenchSt := { b with v := tset 0 b.v r (BitVec.ofNat 256 v) }

/-- A mask register; m0 reads as all ones. -/
def getM (b : BenchSt) (r : Nat) : Nat := if r = 0 then 0xFFFFFFFF else (tget 0 b.m r).toNat

/-- Write a mask register; writes to m0 are discarded. -/
def putM (r v : Nat) (b : BenchSt) : BenchSt := if r = 0 then b else { b with m := tset 0 b.m r (BitVec.ofNat 32 v) }

/-- Set sticky flags (Table 4.3). -/
def putFlags (f : Nat) (b : BenchSt) : BenchSt := { b with bflags := b.bflags ||| f }

/-- Lane width in bits and lane count of a FMT code (Table 4.5). -/
def laneW (fmt : Nat) : Nat := match fmt with | 0 => 32 | 1 => 16 | _ => 8
def lanes (fmt : Nat) : Nat := 256 / laneW fmt
def laneFmt (fmt : Nat) : Fmt := match fmt with | 0 => .fp32 | 1 => .bf16 | 2 => .e4m3 | _ => .e5m2

/-- Is the code an FP8 lane format, whose arithmetic writes a BF16 pair (R88)? -/
def isFp8 (fmt : Nat) : Bool := fmt == 2 || fmt == 3

/-- Lane `i` of width `w` of a register's value. -/
def laneAt (v w i : Nat) : Nat := v / 2 ^ (w * i) % 2 ^ w

/-- Replace lanes of width `w` of a value: new lanes where given. -/
def putLanes (old w : Nat) (new : List (Nat × Nat)) : Nat :=
  new.foldl (fun v p => setBits v (w * p.1 + w - 1) (w * p.1) p.2) old

/-- The logical bench's key. -/
def benchKey (shop bench : Nat) : Nat := shop * 256 + bench

/-! ### Instances and launches (R98 to R104) -/

def launchOf (s : State) (k : Nat) : Option Launch := (benchOf s k).launch.bind (fun i => (shopOf s (k / 256)).launches[i]?)

def modLaunch (n i : Nat) (f : Launch → Launch) (s : State) : State :=
  modShop n (fun sh => { sh with launches := sh.launches.modify i f }) s

/-- Is logical bench `b` in a group mask? -/
def inGroups (groups b : Nat) : Bool := bitOf groups (b / 16)

/-- May the bench be given an instance (R84, R109)? -/
def benchFree (s : State) (k : Nat) : Bool :=
  let b := benchOf s k
  !b.absent && !b.resetPend && !b.resetting && b.launch.isNone

/-- Start an instance of a launch on a bench (R99, R100): CSRs as Table 4.2 gives, registers cleared, the PC at the entry; local
memory is cleared for another tenant. -/
def startInstance (k li inst : Nat) (l : Launch) (s : State) : State :=
  modBench k (fun b => { b with
    s := [], v := [], m := [], pc := l.entry, bctl := l.cmd.cvt % 16 * 16, bflags := 0, bsridx := 0
    inst := inst, arg := (l.argBase + inst * l.argStride) % 2 ^ 64, seed := l.cmd.seed, ctx := l.cmd.ctx, start := s.now
    launch := some li, loop := none, wait := .run
    local_ := if b.lastTenant = some l.cmd.tenant then b.local_ else []
    lastTenant := some l.cmd.tenant }) s

/-- Give a free bench the next undispatched instance of the launch of its group. -/
def takeInstance (k : Nat) (s : State) : State :=
  if !benchFree s k then s
  else
    let n := k / 256
    match (shopOf s n).launches.findIdx? (fun l => inGroups l.groups (k % 256) && decide (l.next < l.count) && l.fault.isNone) with
    | none => s
    | some i => match (shopOf s n).launches[i]? with
      | none => s
      | some l => modLaunch n i (fun l => { l with next := l.next + 1 }) (startInstance k i l.next l s)

/-- Dispatch a launch's first instances to the present benches of its mask in ascending order (R99). -/
def dispatchAll (n groups : Nat) (s : State) : State :=
  ((List.range 256).filter (inGroups groups)).foldl (fun s b => takeInstance (benchKey n b) s) s

/-- Does the bench run an instance now, neither waiting nor ended? -/
def benchRuns (s : State) (k : Nat) : Bool :=
  let b := benchOf s k
  shopPresent s (k / 256) && !b.absent && !b.resetting && decide (b.wait = .run) && (launchOf s k).isSome

/-- Record a bench fault in SHOP_BENCH_FAULT, count it, and end the work (R102): code, bench, PC. -/
def benchFaultAt (n code bench pc : Nat) (c : Cmd) (s : State) : State :=
  let s1 := bump (shopC n 0x148) 1 (modShop n (fun sh =>
    if sh.benchFault.isSome then { sh with benchOver := true }
    else { sh with benchFault := some [code, bench, pc, c.ctx] }) s)
  cmdFault n c 7 code s1

/-- A fault of the instruction that a bench would issue. -/
def benchFault (k code : Nat) (s : State) : State :=
  match launchOf s k with
  | some l => benchFaultAt (k / 256) code (k % 256) (benchOf s k).pc l.cmd s
  | none => s

/-- May the PC fetch (R100): the firmware region, or a slot that holds the running kernel? -/
def pcOk (s : State) (k : Nat) : Bool :=
  let pc := (benchOf s k).pc
  let g := k % 256 / 16
  decide (pc < 0x400) || (match launchOf s k with
    | none => false
    | some l =>
      let slot := fun (i : Nat) => tget none (shopOf s (k / 256)).slots (g * 4 + i)
      match slot l.slot, slot ((pc - 0x400) / 0x300) with
      | some a, some b => decide (a.kid = b.kid ∧ a.first = b.first)
      | _, _ => false)

/-- Are any of these registers the destination of an outstanding load? -/
def regPending (b : BenchSt) (ss vs : List Nat) : Bool :=
  b.out.any (fun a => (a.kind == 0 && vs.contains a.dest) || (a.kind == 2 && ss.contains a.dest))

/-- The PC after an instruction that does not branch, with the LOOP in progress (R93). -/
def benchNext (b : BenchSt) : BenchSt :=
  let next := (b.pc + 1) % 4096
  match b.loop with
  | some (first, stop, left) =>
    if next = stop then
      (if left > 1 then { b with pc := first, loop := some (first, stop, left - 1) } else { b with pc := stop, loop := none })
    else { b with pc := next }
  | none => { b with pc := next }

/-- The PC after a taken branch or jump: a target outside the loop's body ends the loop (R93). -/
def jumpTo (target : Nat) (b : BenchSt) : BenchSt :=
  let t := target % 4096
  match b.loop with
  | some (first, stop, _) => { b with pc := t, loop := if first ≤ t ∧ t < stop then b.loop else none }
  | none => { b with pc := t }

/-- The issue of an instruction (R87, R89, R95, R100): a bench that runs no instance, or waits, issues nothing; an instruction
waits for its registers; a fetch outside the kernel and an illegal instruction fault; otherwise `eff` takes effect. -/
def issue (shop bench : Nat) (legal : Bool) (ss vs : List Nat) (eff : Nat → BenchSt → State → State) (s : State) : State :=
  let k := benchKey shop bench
  if !benchRuns s k then s
  else if !pcOk s k then benchFault k 0xD s
  else if !legal then benchFault k 1 s
  else if regPending (benchOf s k) ss vs then s
  else eff k (benchOf s k) (bumpBell 2 shop 1 1 (shopActivity shop 216 (bump (shopC shop 0x138) 1 s)))

/-- The issue of an instruction whose whole effect is on its bench: `f`, then the next PC. -/
def issueReg (shop bench : Nat) (legal : Bool) (ss vs : List Nat) (f : BenchSt → BenchSt) (s : State) : State :=
  issue shop bench legal ss vs (fun k _ s => modBench k (fun b => benchNext (f b)) s) s

/-- Are all of these fields zero, as unused fields must be (R87)? -/
def zeros (l : List Nat) : Bool := l.all (fun x => x == 0)

/-- Are these register numbers (0 to 31)? -/
def regs32 (l : List Nat) : Bool := l.all (fun x => decide (x < 32))

/-- The signed value of a scalar. -/
def sInt (b : BenchSt) (r : Nat) : Int := signedOf 64 (getS b r)

/-- Sign extension of a 16-bit immediate, modulo 2^64. -/
def sext16 (imm : Nat) : Nat := codeOf 64 (signedOf 16 imm)

/-! ### Rounding, flushing and flags (R55, R86, R101) -/

def bRmode (b : BenchSt) : Nat := b.bctl % 4
def bFtz (b : BenchSt) : Bool := bitOf b.bctl 2
def bCvt (b : BenchSt) : Nat := bitsOf b.bctl 7 4

/-- How RMODE rounds a magnitude of a sign (Table 4.3). -/
def bRnd (rm : Nat) (neg : Bool) : Rnd :=
  match rm with
  | 0 => .rne
  | 1 => .rtz
  | 2 => if neg then .rtz else .away
  | _ => if neg then .away else .rtz

/-- An operand's value: a subnormal of FP32 or BF16 is flushed under FTZ. -/
def operand (ftz : Bool) (f : Fmt) (c : Nat) : FVal :=
  match decodeFloat f c with
  | .fin n m e => if ftz && (f = .fp32 || f = .bf16) && bitsOf c (fmtE f + fmtM f - 1) (fmtM f) == 0 then .fin n 0 e else .fin n m e
  | v => v

/-- Is the code a signalling NaN: a NaN whose top mantissa bit is clear, in a format with more than one NaN? -/
def sNan (f : Fmt) (c : Nat) : Bool :=
  fmtInf f && isNanV (decodeFloat f c) && !bitOf c (fmtM f - 1)

/-- Exact sum with the sign of an exact zero under rounding toward −infinity. -/
def addR (rm : Nat) (a b : FVal) : FVal :=
  match addV a b with
  | .fin n 0 e => if rm = 3 ∧ ¬(a = .fin false 0 0 ∧ b = .fin false 0 0) then
      (match a, b with
        | .fin false 0 _, .fin false 0 _ => .fin n 0 e
        | _, _ => .fin true 0 e)
    else .fin n 0 e
  | v => v

/-- Round a value into FP32 or BF16 under RMODE and FTZ: the code and the flags OF (4), UF (8), NX (16). -/
def bEncode (f : Fmt) (rm : Nat) (ftz : Bool) (v : FVal) : Nat × Nat :=
  match v with
  | .nan => (nanCode f, 0)
  | .inf n => (signCode f n + infCode f, 0)
  | .fin n m e =>
    if m = 0 then (signCode f n, 0)
    else
      let r := bRnd rm n
      let c := encodeFin f r (decide (r ≠ .rtz)) ftz n m e
      let emin : Int := 1 - (fmtBias f : Int)
      let q := floorLog m e - (fmtM f : Int)
      let m1 := roundAt r m e q
      let tiny := dyLt m1 q 1 emin
      let big := !dyLt m1 q 1 (fmtBias f + 1 : Int)
      let inexact := !eqV (decodeFloat f c) v
      (c, (if big then 4 + 16 else 0) ||| (if tiny && inexact then 8 else 0) ||| (if inexact then 16 else 0))

/-- NV of an addition: infinities of opposite sign, or a signalling NaN. -/
def nvAdd (a b : FVal) : Bool :=
  match a, b with
  | .inf n, .inf k => n != k
  | _, _ => false

/-- NV of a product: zero times infinity. -/
def nvMul (a b : FVal) : Bool :=
  match a, b with
  | .inf _, .fin _ 0 _ => true
  | .fin _ 0 _, .inf _ => true
  | _, _ => false

/-- The arithmetic of one lane, by operation: 0 add, 1 sub, 2 mul, 3 fma, 4 max, 5 min. The result of the destination format
and the flags. `fs` is the operands' format, `fd` the result's and the addend's. -/
def laneOp (op : Nat) (b : BenchSt) (fs fd : Fmt) (x y z : Nat) : Nat × Nat :=
  let ftz := bFtz b
  let rm := bRmode b
  let a := operand ftz fs x
  let c := operand ftz fs y
  let d := operand ftz fd z
  let snan := sNan fs x || sNan fs y || (op == 3 && sNan fd z)
  let (v, nv) : FVal × Bool := match op with
    | 0 => (addR rm a c, nvAdd a c)
    | 1 => (addR rm a (negV c), nvAdd a (negV c))
    | 2 => (mulV a c, nvMul a c)
    | 3 => (addR rm (mulV a c) d, nvMul a c || nvAdd (mulV a c) d)
    | 4 => (maxV a c, false)
    | _ => (minV a c, false)
  let (code, fl) := bEncode fd rm ftz v
  (code, fl ||| (if nv || snan then 1 else 0))

/-- A vector arithmetic instruction over the enabled lanes: FP8 operands give a BF16 pair (R88). -/
def vecOp (op d a c z m fmt : Nat) (b : BenchSt) : BenchSt :=
  let fs := laneFmt fmt
  let w := laneW fmt
  let en := (List.range (lanes fmt)).filter (fun i => bitOf (getM b m) i)
  if isFp8 fmt then
    let res := en.map (fun i => (i, laneOp op b fs .bf16 (laneAt (getV b a) 8 i) (laneAt (getV b c) 8 i)
      (laneAt (getV b (z + i / 16)) 16 (i % 16))))
    let lo := (res.filter (fun p => decide (p.1 < 16))).map (fun p => (p.1, p.2.1))
    let hi := (res.filter (fun p => decide (p.1 ≥ 16))).map (fun p => (p.1 - 16, p.2.1))
    putFlags ((res.map (fun p => p.2.2)).foldl orMask 0)
      (putV (d + 1) (putLanes (getV b (d + 1)) 16 hi) (putV d (putLanes (getV b d) 16 lo) b))
  else
    let res := en.map (fun i => (i, laneOp op b fs fs (laneAt (getV b a) w i) (laneAt (getV b c) w i) (laneAt (getV b z) w i)))
    putFlags ((res.map (fun p => p.2.2)).foldl orMask 0) (putV d (putLanes (getV b d) w (res.map (fun p => (p.1, p.2.1)))) b)

/-- Is a vector form legal: registers, mask, FMT, and even pairs for FP8 (R87, R88)? -/
def vecLegal (d m fmt : Nat) (srcs pairs : List Nat) : Bool :=
  regs32 (d :: srcs ++ pairs) && decide (m < 8 ∧ fmt < 4) && (!isFp8 fmt || (d :: pairs).all (fun x => x % 2 == 0))

/-- Registers a vector form reads or writes, for the wait on loads. -/
def pairRegs (fmt : Nat) (l : List Nat) : List Nat := if isFp8 fmt then l ++ l.map (· + 1) else l

/-! ### Device memory (R95, R96, R373) -/

/-- Has FENCE let later accesses go, and are fewer than 16 accesses outstanding? -/
def memReady (b : BenchSt) : Bool := b.fence.isEmpty && decide (b.out.length < 16)

/-- Add an outstanding access. -/
def addOut (k kind dest : Nat) (data : List Byte) (poison arrived : Bool) (s : State) : State :=
  modBench k (fun b => { b with out := b.out ++ [⟨b.nextOut, kind, dest, data, poison, arrived⟩], nextOut := b.nextOut + 1 }) s

/-- Signals whose accesses have all completed are applied, in order; and waits on the number outstanding end (R373, R374). -/
def settleOut (k : Nat) (s : State) : State :=
  let b := benchOf s k
  let go := b.sigs.filter (fun x => x.1.isEmpty)
  let c := ctxOf s b.ctx
  let s1 := modBench k (fun b => { b with
    sigs := b.sigs.filter (fun x => !x.1.isEmpty)
    wait := match b.wait with
      | .outstanding n => if b.out.length ≤ n then .run else b.wait
      | w => w }) s
  go.foldl (fun s x => signalWork b.ctx (c.bind (fun c => c.tenant)) x.2.1 x.2.2 s) s1

/-- An access of a bench has completed. -/
def outDone (k id : Nat) (s : State) : State :=
  settleOut k (modBench k (fun b => { b with
    out := b.out.filter (fun a => decide (a.id ≠ id))
    fence := b.fence.filter (fun i => decide (i ≠ id))
    sigs := b.sigs.map (fun x => (x.1.filter (fun i => decide (i ≠ id)), x.2)) }) s)

/-- The word after an atomic operation (Table 15.4): operation, word, operand B, compare value D. -/
def atomicOp (op w b d : Nat) : Nat :=
  match op with
  | 0 => (w + b) % 2 ^ 64
  | 1 => w / 2 ^ 32 * 2 ^ 32 + toF32Flush (addV (ofF32 (w % 2 ^ 32)) (ofF32 (b % 2 ^ 32)))
  | 2 => if signedOf 64 w ≤ signedOf 64 b then w else b
  | 3 => if signedOf 64 w ≤ signedOf 64 b then b else w
  | 4 => b
  | _ => if w = d then b else w

/-- Perform an atomic on a warehouse word (R384): a poisoned line is not changed. The old word and its poison. -/
def atomicAt (addr op b d : Nat) (s : State) : (Nat × Bool) × State :=
  let old := keyWord s addr 8
  if keyPoison s addr ≠ 0 then ((old, true), s)
  else ((old, false), bump 0x490 1 (storeKeys ((leBytes 8 (atomicOp op old b d)).zipIdx.map (fun p => (addr + p.2, p.1))) s))

end Sys2Proof.Machine
end

