-- ==== Sys2Proof/Machine/BenchCtl.lean ====
section
/-! DEFINITION. The bench group engine (R97 to R100, R105 to R109): kernel loads, launches, uncorrectable errors, bench resets and
firmware. -/

namespace Sys2Proof.Machine

/-! ### Images (R105, R106) -/

/-- Is a bench image header acceptable for a type and a largest length? -/
def benchHdrOk (typ maxLen : Nat) (h : List Byte) : Bool :=
  decide (leAt h 0 4 = 0x48434E42 ∧ leAt h 4 1 = typ ∧ leAt h 5 1 = 0xA1 ∧ 1 ≤ leAt h 8 2 ∧ leAt h 8 2 ≤ maxLen
    ∧ leAt h 10 2 = 0 ∧ leAt h 16 16 = 0)

/-- The instructions of an image's bytes after its header. -/
def imageWords (l : List Byte) (n : Nat) : List Nat := (List.range n).map (fun i => leAt l (4 * i) 4)

/-- Write instructions from an index of a group's instruction memory. -/
def putImem (group first : Nat) (words : List Nat) (sh : ShopSt) : ShopSt :=
  { sh with imem := words.zipIdx.foldl (fun t p => tset 0 t (group * 4096 + first + p.2) (BitVec.ofNat 32 p.1)) sh.imem }

/-- KLOAD (R97, R106): the image goes into the named slots of every group of the mask, with its kernel ID and context. An image
that fails its checks, or cannot be read, leaves the slots empty and is a KERNEL_BAD fault. -/
def kloadRun (shop : Nat) (r : Run) (s : State) : State :=
  let b := r.cmd.body
  let img := bf b 0 63 0
  let first := bf b 1 1 0
  let count := bf b 1 4 2
  let groups := bitList (bf b 1 31 16) 16
  let (h, s0) := readCtx r.cmd.ctx r.cmd.tenant img 32 s
  let s1 := portBytes shop 32 s0
  let len := leAt h.data 8 2
  let (body, s2) := readCtx r.cmd.ctx r.cmd.tenant (img + 32) (4 * len) s1
  let setSlots := fun (v : Option KSlot) (sh : ShopSt) =>
    let f := fun (t : Tbl (Option KSlot)) (g : Nat) => (List.range (min count 4)).foldl (fun t i => tset none t (g * 4 + first + i) v) t
    { sh with slots := groups.foldl f sh.slots }
  let good := h.ok && decide (h.poison = 0) && decide (1 ≤ count ∧ count ≤ 4 ∧ first + count ≤ 4)
    && benchHdrOk 2 (768 * count) h.data && body.ok && decide (body.poison = 0)
    && decide ((crc32 body.data).toNat = leAt h.data 12 4)
  if good then
    let words := imageWords body.data len
    runDone shop 2 0x20 (modShop shop (fun sh =>
      setSlots (some ⟨leAt h.data 6 2, r.cmd.ctx, r.cmd.tenant, first⟩)
        (groups.foldl (fun sh g => putImem g (0x400 + 0x300 * first) words sh) sh)) s2)
  else benchFaultAt shop 9 0 0 r.cmd (modShop shop (setSlots none) s2)

def execKload (shop : Nat) (s : State) : Res :=
  .next (match activeRun s shop 2 0x20 with
    | some r => kloadRun shop r s
    | none => s)

/-! ### Launches (R98, R99) -/

/-- The first launch command of the engine that has no launch yet. -/
def newLaunch (s : State) (n : Nat) : Option Run :=
  (engOf s n 2).runs.find? (fun r => !r.done && r.cmd.opcode == 0x21 &&
    !(shopOf s n).launches.any (fun l => decide (l.cmd = r.cmd)))

/-- LAUNCH (R98, R99): every group of the mask must hold the kernel under a context of the launch's tenant, and some bench of the
mask must be present; then instance k goes to the k-th present bench. -/
def launchRun (shop : Nat) (r : Run) (s : State) : State :=
  let b := r.cmd.body
  let groups := bf b 2 43 28
  let slot := bf b 2 17 16
  let kid := bf b 2 15 0
  let holds := (bitList groups 16).all (fun g => match tget none (shopOf s shop).slots (g * 4 + slot) with
    | some k => decide (k.kid = kid ∧ k.tenant = r.cmd.tenant)
    | none => false)
  let present := ((List.range 256).filter (inGroups groups)).any (fun i => !(benchOf s (benchKey shop i)).absent)
  if !holds then benchFaultAt shop 8 0 0 r.cmd s
  else if !present then benchFaultAt shop 0xA 0 0 r.cmd s
  else
    let l : Launch := { cmd := r.cmd, kid := kid, slot := slot, entry := (0x400 + 0x300 * slot + bf b 2 27 18) % 4096, groups := groups
                        count := bf b 1 47 32 + 1, next := 0, halted := 0, argBase := bf b 0 63 0, argStride := bf b 1 31 0
                        idem := bf b 2 44 44 == 1, rerun := false, flags := 0, fault := none }
    dispatchAll shop groups (modShop shop (fun sh => { sh with launches := sh.launches ++ [l] }) s)

def execLaunch (shop : Nat) (s : State) : Res :=
  .next (match newLaunch s shop with
    | some r => launchRun shop r s
    | none => s)

/-- Remove a launch; later ones move down one place, and their benches with them. -/
def dropLaunch (n i : Nat) (s : State) : State :=
  let s1 := { s with benches := tmap BenchSt.reset s.benches (fun k b =>
    if k / 256 = n then { b with launch := b.launch.bind (fun j => if j = i then none else some (if j > i then j - 1 else j)) } else b) }
  modShop n (fun sh => { sh with launches := sh.launches.eraseIdx i }) s1

/-- Has every instance of a launch halted, and every store, atomic and signal completed (R99)? -/
def launchOver (s : State) (n : Nat) (l : Launch) : Bool :=
  decide (l.halted ≥ l.count) && ((List.range 256).filter (inGroups l.groups)).all (fun i =>
    let b := benchOf s (benchKey n i); b.out.isEmpty && b.sigs.isEmpty)

/-- LAUNCH_COMPLETE (R99). -/
def execLaunchComplete (shop : Nat) (s : State) : Res :=
  .next (match (shopOf s shop).launches.findIdx? (launchOver s shop) with
    | none => s
    | some i => match (shopOf s shop).launches[i]? with
      | none => s
      | some l =>
        let s1 := modEng shop 2 (fun g => { g with runs := g.runs.map (fun r => if r.cmd = l.cmd then { r with done := true } else r) }) s
        dropLaunch shop i s1)

/-! ### Uncorrectable errors (R103) -/

/-- Run a launch again from instance 0. -/
def rerunLaunch (n i : Nat) (l : Launch) (s : State) : State :=
  let s1 := abandonBenches n (fun j => j == i) s
  dispatchAll n l.groups (modLaunch n i (fun l => { l with next := 0, halted := 0, flags := 0, rerun := true }) s1)

/-- Retire a logical bench: a free spare takes its number, or it is marked absent (R84, R103). -/
def retireBench (k : Nat) (s : State) : State :=
  let n := k / 256
  let sh := shopOf s n
  let unit := unitWord 3 n (k % 256)
  if sh.spareFree > 0 then
    rasLog 0x0C 3 unit 0 0 ownerDev (256 + (16 - sh.spareFree)) (bump 0x1400140 1
      (modShop n (fun sh => { sh with spareFree := sh.spareFree - 1, lastSpared := k % 256 }) (modBench k (fun _ => BenchSt.reset) s)))
  else
    unitAbsent unit 1 (modBench k (fun _ => { BenchSt.reset with absent := true }) s)

/-- BENCH_UNCORRECTABLE_ERROR (R103): `place` 0 a register or local memory of the bench, 1 an instruction word of kernel slot
`slot` of its group, 2 a word of the firmware region (which is loaded again and changes nothing). -/
def benchUe (shop bench place slot : Nat) (s : State) : State :=
  let k := benchKey shop bench
  match place with
  | 0 =>
    let li := (benchOf s k).launch
    let l := launchOf s k
    let pc := (benchOf s k).pc
    let s1 := retireBench k s
    match li, l with
    | some i, some l =>
      if l.idem && !l.rerun then rerunLaunch shop i l s1 else benchFaultAt shop 0xB bench pc l.cmd s1
    | _, _ => s1
  | 1 =>
    let g := bench / 16
    let s1 := modShop shop (fun sh => { sh with slots := tset none sh.slots (g * 4 + slot % 4) none }) s
    match (shopOf s shop).launches.find? (fun l => bitOf l.groups g && decide (l.slot = slot % 4)) with
    | some l => benchFaultAt shop 0xC bench (benchOf s k).pc l.cmd s1
    | none => s1
  | _ => s

def execBenchUncorrectableError (shop bench place slot : Nat) (s : State) : Res :=
  .next (if shopPresent s shop && decide (bench < 256) && !(benchOf s (benchKey shop bench)).absent then benchUe shop bench place slot s else s)

/-! ### Bench reset (R109) -/

/-- The reset of a bench starts: issued stores have been performed, outstanding loads are discarded, registers, CSRs, flags and
local memory are cleared. -/
def benchResetStart (k : Nat) (s : State) : State :=
  modBench k (fun b => { BenchSt.reset with
    resetting := true, absent := b.absent, nextOut := b.nextOut, sigs := b.sigs, out := b.out.filter (fun a => a.kind != 0) }) s

/-- Does the bench run an instance? -/
def benchBusy (s : State) (k : Nat) : Bool := (benchOf s k).launch.isSome

/-- A write of SHOP_BENCH_RESET: also counted for a shop that is absent or in reset (R562). -/
def askBenchReset (shop value : Nat) (s : State) : State :=
  let bench := value % 512
  if shop ≥ 320 then s
  else if !shopPresent s shop || decide (bench ≥ 256) then accessFault (shopC shop 0) s
  else
    let k := benchKey shop bench
    if benchBusy s k then modBench k (fun b => { b with resetPend := true }) s else benchResetStart k s

/-- SHOP_BENCH_RESET (R109): a write of a logical bench number makes it ineligible; the reset starts at once unless it runs an
instance. A write of 256 or more is ignored and counted. -/
def execShopBenchReset (shop value : Nat) (s : State) : Res := .next (askBenchReset shop value s)

/-- BENCH_RESET_START (R109): the named bench has halted, or its tile has ended. -/
def execBenchResetStart (shop bench : Nat) (s : State) : Res :=
  let k := benchKey shop bench
  .next (if (benchOf s k).resetPend && !benchBusy s k then benchResetStart k s else s)

/-- BENCH_RESET_DONE (R109): after 256 cycles the bench is eligible again, and takes work that waits for one. -/
def execBenchResetDone (shop bench : Nat) (s : State) : Res :=
  let k := benchKey shop bench
  .next (if (benchOf s k).resetting then takeInstance k (modBench k (fun b => { b with resetting := false }) s) else s)

/-- At a boundary with no launch running, a shop takes its pending firmware into every group (R108). -/
def takeFirmware (shop : Nat) (s : State) : State :=
  match (shopOf s shop).fwPending with
  | none => s
  | some (v, c, words) =>
    if !(shopOf s shop).launches.isEmpty then s
    else fwTaken false shop 0 (modShop shop (fun sh =>
      { (List.range 16).foldl (fun sh g => putImem g 0 words sh) sh with fwVersion := v, fwCrc := c, fwPending := none }) s)

/-- BENCH_FW_TAKE (R108). -/
def execBenchFwTake (shop : Nat) (s : State) : Res := .next (takeFirmware shop s)

end Sys2Proof.Machine
end

