-- ==== Sys2Proof/Machine/FulOps.lean ====
section
/-! DEFINITION. Shared operations of the fullers (chapter 8): routine images and their checks, invocation records, the sequencer,
faults and stops, barriers, plane rows and their GEMV, attention records (R224 to R227), and the writes of results. -/

namespace Sys2Proof.Machine

/-! ### State of stacks and fullers -/

def fulOf (s : State) (n : Nat) : FulStackSt := tget FulStackSt.reset s.fulStacks n

def modFul (n : Nat) (f : FulStackSt → FulStackSt) (s : State) : State :=
  { s with fulStacks := tmod FulStackSt.reset s.fulStacks n f }

def fullerOf (s : State) (n i : Nat) : FullerSt := tget FullerSt.reset s.fullers (n * 512 + i)

def modFuller (n i : Nat) (f : FullerSt → FullerSt) (s : State) : State :=
  { s with fullers := tmod FullerSt.reset s.fullers (n * 512 + i) f }

/-- Present logical fullers of a stack. -/
def presentFullers (s : State) (n : Nat) : List Nat := (List.range 512).filter (fun i => !(fulOf s n).absent.contains i)

def fullerPresent (s : State) (n i : Nat) : Bool := decide (i < 512) && !(fulOf s n).absent.contains i

/-- The fuller that serves a bank pair (R187): its own, or the next present fuller of the die in ascending order, wrapping. -/
def serverOf (s : State) (n pair : Nat) : Option Nat :=
  ((List.range 32).map (fun k => pair / 32 * 32 + (pair % 32 + k) % 32)).find? (fullerPresent s n)

/-! ### Micro-instructions (Table 8.6) -/

def miOp (w : Nat) : Nat := bitsOf w 5 0
def miEnd (w : Nat) : Bool := bitOf w 6
def miPx (w : Nat) : Nat := bitsOf w 11 8
def miPy (w : Nat) : Nat := bitsOf w 15 12
def miPz (w : Nat) : Nat := bitsOf w 19 16
def miFn (w : Nat) : Nat := bitsOf w 23 20
def miN (w : Nat) : Nat := bitsOf w 31 24
def miImm (w : Nat) : Nat := bitsOf w 63 32

/-- Is a micro-instruction visible (R196)? -/
def miVisible (w : Nat) : Bool :=
  (miOp w == 8 && (miFn w % 4 == 0 || miFn w % 4 == 2)) || miOp w == 9 || miOp w == 0xA

/-- Which of PX, PY, PZ, N, IMM a micro-instruction uses, and whether its FN is allowed (R195, Table 8.7). -/
def miFields (w : Nat) : Option (Bool × Bool × Bool × Bool × Bool) :=
  let fn := miFn w
  match miOp w with
  | 0x00 => if fn = 0 then some (false, false, false, false, false) else none
  | 0x01 => if fn ≤ 2 then some (true, fn == 2, false, fn == 1, true) else none
  | 0x02 => if fn % 4 ≠ 0 ∧ bitOf fn 2 = false then some (bitOf fn 3, true, true, true, true) else none
  | 0x03 => if fn = 0 then some (true, true, false, true, true) else none
  | 0x04 => if fn ≤ 1 then some (true, true, true, true, true) else none
  | 0x05 => if fn ≤ 8 then some (true, true, fn ≤ 3 || fn == 8, false, true) else none
  | 0x06 => if fn ≤ 1 then some (true, true, false, false, true) else none
  | 0x07 => if fn ≤ 3 then some (true, true, false, true, false) else none
  | 0x08 => if fn % 4 ≠ 3 ∧ miN w < 32 then some (fn % 4 != 2, false, fn % 4 == 0, true, true) else none
  | 0x09 => if fn % 4 = 0 ∧ 1 ≤ miImm w ∧ miImm w ≤ 1024 then some (true, true, false, false, true) else none
  | 0x0A => if fn = 0 ∧ 1 ≤ miImm w ∧ miImm w ≤ 1023 then some (true, true, true, false, true) else none
  | 0x0B => if fn ≤ 1 then some (false, false, false, false, false) else none
  | 0x0C => if fn ≤ 1 then some (false, fn == 1, false, true, fn == 0) else none
  | 0x0D => if fn = 0 then some (false, false, false, false, false) else none
  | _ => none

/-- Is a micro-instruction valid: listed, with every unused field zero? -/
def miOk (w : Nat) : Bool :=
  match miFields w with
  | some (px, py, pz, n, imm) => !bitOf w 7 && (px || miPx w == 0) && (py || miPy w == 0) && (pz || miPz w == 0)
      && (n || miN w == 0) && (imm || miImm w == 0)
  | none => false

/-- The cost bound of an instruction that may stand in a visible segment (Table 8.7), in cycles. -/
def miCost (w : Nat) : Nat :=
  match miOp w with
  | 0x05 => 64 + miImm w / 4
  | 0x06 => 64 + miImm w / 16
  | 0x08 => 64 + 4 * miImm w
  | 0x09 => 64 + miImm w
  | 0x0A => 64
  | _ => 1

/-- Summed cost bound of a segment, LOOP bodies counted by their repetitions. -/
def segCost : Nat → List Nat → Nat
  | 0, _ => 0
  | _, [] => 0
  | k + 1, w :: t =>
    if miOp w = 0x0C then 1 + miImm w * segCost k (t.take (miN w + 1)) + segCost k (t.drop (miN w + 1))
    else miCost w + segCost k t

/-- Cut code into segments (R197). -/
def segments : Nat → List Nat → List (List Nat)
  | 0, _ => []
  | _, [] => []
  | k + 1, l =>
    let a := l.takeWhile (fun w => !miEnd w)
    (a ++ (l.drop a.length).take 1) :: segments k (l.drop (a.length + 1))

/-- Is a segment acceptable: SYNC and COMBINE end it, LOOP bodies lie within it, and a visible one meets R197? -/
def segOk (g : List Nat) : Bool :=
  g.zipIdx.all (fun p => (miOp p.1 != 0x0B && miOp p.1 != 7) || decide (p.2 + 1 = g.length))
  && g.zipIdx.all (fun p => miOp p.1 != 0x0C || decide (p.2 + miN p.1 + 1 < g.length))
  && (!g.any miVisible ||
      (g.all (fun w => !([2, 3, 4, 7, 0x0B] : List Nat).contains (miOp w) && !(miOp w == 0x0C && miFn w == 1))
        && decide (segCost g.length g ≤ 4096)))

/-- Is a routine image acceptable (R191)? -/
def routineOk (r : RoutineImg) : Bool :=
  r.magic == 0x524C5546 && (r.typ == 1 || r.typ == 2) && r.target == 0xA1 && !r.reserved
  && (if r.typ = 1 then decide (r.slot < 0x40) else decide (0x40 ≤ r.slot ∧ r.slot < 0x100))
  && decide (1 ≤ r.code.length ∧ r.code.length ≤ 4096)
  && (crc32 (r.code.flatMap (leBytes 8))).toNat == r.crc
  && r.code.all miOk && ((r.code.getLast?).map miEnd).getD false
  && decide ((segments r.code.length r.code).length = r.nseg) && (segments r.code.length r.code).all segOk

/-- Units of 64 instructions that a routine takes (R190). -/
def routineUnits (code : List Nat) : Nat := cdiv code.length 64

/-- Units of a stack's store that its loaded routines occupy, library or program. -/
def storeUsed (s : State) (n : Nat) (lib : Bool) : Nat :=
  ((fulOf s n).slots.map (fun p => if decide (p.1 < 0x40) == lib then ((p.2.map (fun x => routineUnits x.2)).getD 0) else 0)).sum

/-! ### The running invocation -/

/-- Word `i` of the record. -/
def recWord (r : InvRec) (i : Nat) : Nat := (r.words[i]?).getD 0

def recSlot (r : InvRec) : Nat := bitsOf (recWord r 0) 7 0
def recCtx (r : InvRec) : Nat := bitsOf (recWord r 0) 31 16
def recGang (r : InvRec) : List Nat := bitList (bitsOf (recWord r 0) 43 32) 12
def recCvt (r : InvRec) : Nat := bitsOf (recWord r 0) 47 44
def recSeed (r : InvRec) : Nat := bitsOf (recWord r 1) 31 0
def recOslot (r : InvRec) : Bool := bitOf (recWord r 0) 11
def recArg (r : InvRec) (k : Nat) : Nat := recWord r (8 + k)
def recWaits (r : InvRec) : List Nat := (r.words.drop 2).take 4
def recSigs (r : InvRec) : List Nat := (r.words.drop 6).take 2

/-- The invocation's own order: the order of slot 0, or the order that ORDER names (Table 8.5). -/
def recOrder (s : State) (r : InvRec) : Option Nat :=
  if recOslot r then slotOrder s (recCtx r) 0
  else (ctxOf s (recCtx r)).bind (fun x =>
    let o := bitsOf (recWord r 0) 63 48
    if x.slots.contains o then some o else none)

/-- The code of the running invocation's routine. -/
def runCode (s : State) (n : Nat) : List Nat :=
  match (fulOf s n).run with
  | some r => ((tget none (fulOf s n).slots (recSlot r.inv)).map (fun x => x.2)).getD []
  | none => []

/-- The running invocation, when the stack has one. -/
def runOf (s : State) (n : Nat) : Option InvRun := (fulOf s n).run

def modInvRun (n : Nat) (f : InvRun → InvRun) (s : State) : State := modFul n (fun x => { x with run := x.run.map f }) s

/-- Does a fuller still run: present, not halted? -/
def fullerRuns (s : State) (n i : Nat) : Bool :=
  match runOf s n with
  | some r => fullerPresent s n i && !r.halted.contains i
  | none => false

/-- Is the segment at a position visible? -/
def segVisible (code : List Nat) (pc : Nat) : Bool :=
  let before := ((code.take pc).reverse.takeWhile (fun w => !miEnd w))
  let rest := code.drop pc
  let a := rest.takeWhile (fun w => !miEnd w)
  (before ++ a ++ (rest.drop a.length).take 1).any miVisible

/-- A fuller halts. -/
def haltFuller (n i : Nat) (s : State) : State :=
  modInvRun n (fun r => { r with
    halted := if r.halted.contains i then r.halted else i :: r.halted, waiting := r.waiting.filter (fun j => decide (j ≠ i)) }) s

/-- Leave the current instruction: the next one, by the LOOPs in progress; a stop asked for ends the fuller at the end of its
segment (R204), and so does the end of the code. -/
def advance (n i : Nat) (s : State) : State :=
  let f := fullerOf s n i
  let code := runCode s n
  let ended := ((code[f.pc]?).map miEnd).getD true
  let go := match f.loops with
    | (first, stop, left) :: t =>
      if f.pc + 1 = stop then (if left > 1 then (first, (first, stop, left - 1) :: t) else (stop, t)) else (f.pc + 1, f.loops)
    | [] => (f.pc + 1, [])
  let s1 := modFuller n i (fun f => { f with pc := go.1, loops := go.2 }) s
  if (ended && ((runOf s n).map (fun r => r.stopping)).getD false) || decide (go.1 ≥ code.length) then haltFuller n i s1 else s1

/-! ### Stops and faults (R202, R204) -/

/-- Ask the running invocation of a stack to stop, on every member of its gang: a fuller in a quiet segment, or waiting, leaves at
once; one in a visible segment completes it. A second request changes nothing. -/
def stopInvocation (n : Nat) (s : State) : State :=
  match runOf s n with
  | none => s
  | some r =>
    r.gang.foldl (fun s m =>
      let code := runCode s m
      let quiet := (presentFullers s m).filter (fun i => !segVisible code (fullerOf s m i).pc)
      modInvRun m (fun x => if x.stopping then x else { x with
        stopping := true, halted := (x.halted ++ quiet).eraseDups, waiting := [] }) s) s

/-- Record a fault in STK_WORK_FAULT (Table 8.13): the first only. -/
def stackFaultRec (n code sub ctx slot i : Nat) (s : State) : State :=
  modFul n (fun x => if x.fault.isSome then { x with faultOver := true } else { x with fault := some [code, sub, ctx, slot, i] }) s

/-- A fault of the running invocation that arises on fuller `i` of stack `n` (R202): recorded there; the WORK records are written
once; the context ends on the other members at once and elsewhere at the boundary. -/
def invFault (n i code sub : Nat) (s : State) : State :=
  match runOf s n with
  | none => s
  | some r =>
    let c := recCtx r.inv
    let s1 := stackFaultRec n code sub c (recSlot r.inv) i s
    let first := r.gang.all (fun m => ((runOf s m).map (fun x => x.fault.isNone)).getD true)
    let s2 := if first then ctxFaults c code sub (workEvents c code sub 0 0 0 (unitWord 4 n 0) s1) else s1
    let s3 := modInvRun n (fun x => { x with fault := some (x.fault.getD (code, sub, i)) }) s2
    stopInvocation n s3

/-! ### Barriers (R199) -/

/-- One addition of the fullers (R57). -/
def fulAdd (a b : Nat) : Nat := toF32Flush (addV (ofF32 (flushIn a)) (ofF32 (flushIn b)))
def fulMul (a b : Nat) : Nat := toF32Flush (mulV (ofF32 (flushIn a)) (ofF32 (flushIn b)))
def fulFma (a b c : Nat) : Nat := toF32Flush (addV (mulV (ofF32 (flushIn a)) (ofF32 (flushIn b))) (ofF32 (flushIn c)))
def fulMax (a b : Nat) : Nat := toF32Flush (maxV (ofF32 (flushIn a)) (ofF32 (flushIn b)))

/-- Scratch words. -/
def scratchGet (f : FullerSt) (a k : Nat) : List Nat := (List.range k).map (fun j => (tget (0 : BitVec 32) f.scratch (a + j)).toNat)

def scratchPut (a : Nat) (l : List Nat) (f : FullerSt) : FullerSt :=
  { f with scratch := l.zipIdx.foldl (fun t p => tset (0 : BitVec 32) t (a + p.2) (BitVec.ofNat 32 p.1)) f.scratch }

/-- A pointer register. -/
def pGet (f : FullerSt) (k : Nat) : Nat := (tget (0 : BitVec 64) f.p k).toNat

/-- Have all fullers of a stack that still run arrived at the barrier? A halted fuller counts as arrived. -/
def allArrived (s : State) (n : Nat) : Bool :=
  match runOf s n with
  | some r => (presentFullers s n).all (fun i => r.halted.contains i || r.waiting.contains i)
  | none => true

/-- The reduction of the words offered on one stack, in ascending logical fuller order by the fixed pairwise tree. -/
def stackReduce (s : State) (n : Nat) (isMax : Bool) : List Nat :=
  let ws := ((runOf s n).map (fun r => r.waiting)).getD []
  let offers := ((List.range 512).filter (fun i => ws.contains i)).map (fun i => (fullerOf s n i).offer)
  let k := (offers.map List.length).foldl max 0
  (List.range k).map (fun j => (pairTree (if isMax then fulMax else fulAdd) 9 (offers.map (fun o => flushIn ((o[j]?).getD 0)))).headD 0)

/-- Release the fullers waiting on a stack, giving each the reduced words of a COMBINE. -/
def releaseBarrier (n : Nat) (words : Option (List Nat)) (s : State) : State :=
  let ws := ((runOf s n).map (fun r => r.waiting)).getD []
  ws.foldl (fun s i => advance n i (modFuller n i (fun f =>
    { (match words with | some l => scratchPut f.offerTo l f | none => f) with offer := [] }) s))
    (modInvRun n (fun r => { r with waiting := [] }) s)

/-- Complete the barrier of a stack, or of its gang, when everyone it needs has arrived. -/
def barrierCheck (n : Nat) (s : State) : State :=
  match runOf s n with
  | none => s
  | some r =>
    match r.waiting.head? with
    | none => s
    | some i =>
      let w := ((runCode s n)[(fullerOf s n i).pc]?).getD 0
      let combine := miOp w == 7
      let gang := bitOf (miFn w) 0
      let isMax := combine && bitOf (miFn w) 1
      let mem := if gang then r.gang else [n]
      if !mem.all (allArrived s) then s
      else if combine then
        let parts := (mem.map (fun m => stackReduce s m isMax)).filter (fun l => !l.isEmpty)
        let words := match parts with
          | [] => []
          | p :: t => t.foldl (fun a b => (a.zip b).map (fun x => if isMax then fulMax x.1 x.2 else fulAdd x.1 x.2)) p
        mem.foldl (fun s m => releaseBarrier m (some words) s) s
      else mem.foldl (fun s m => releaseBarrier m none s) s

/-- Run one micro-instruction of a fuller: the one at its position, when it has the opcode of the command, is not waiting, and no
stop has ended the fuller. The body answers the state with the instruction's effect and position advanced. -/
def microStep (n i op : Nat) (body : InvRun → Nat → State → State) (s : State) : State :=
  match runOf s n with
  | none => s
  | some r =>
    if !fullerRuns s n i || r.waiting.contains i then s
    else match (runCode s n)[(fullerOf s n i).pc]? with
      | some w => if miOp w = op then body r w s else s
      | none => s

/-! ### Addresses as an invocation reads and writes them -/

/-- Bytes of an address with their poison, none where Table 15.1 forbids the access. -/
def fulBytes (s : State) (r : InvRun) (A len : Nat) : Option (List (Byte × Nat)) :=
  let l := (List.range len).map (fun k => ctxByte s (recCtx r.inv) r.inv.tenant (A + k))
  if l.all Option.isSome then some (l.map (fun o => o.getD (0, 0))) else none

def bytesOf (l : List (Byte × Nat)) : List Byte := l.map Prod.fst
def anyPoison (l : List (Byte × Nat)) : Bool := l.any (fun p => decide (p.2 ≠ 0))

/-- Formats of RSTORE and MSTORE (R196): FP32, BF16, FP8 E4M3, FP8 E5M2; those of the activation store the same, without FP32. -/
def outFmt (c : Nat) : Fmt := match c with | 0 => .fp32 | 1 => .bf16 | 2 => .e4m3 | _ => .e5m2

def fmtSize (f : Fmt) : Nat := fmtBits f / 8

/-- Convert an FP32 word under the invocation's control (Table 2.13 gives the index). -/
def fulConvert (r : InvRun) (f : Fmt) (idx v : Nat) : Nat :=
  let c := cvtOfBits (recCvt r.inv)
  convertTo f c (if c.rmode = 2 then srRandom (recSeed r.inv) idx else 0) (ofF32 v)

/-! ### Writing results (R196, R198) -/

/-- Write one element to a device address: here or, by Balis, on another device. None is a PROTECTION fault. -/
def fulWrite (n : Nat) (r : InvRun) (A : Nat) (f : Fmt) (v : Nat) (s : State) : Option State :=
  let data := leBytes (fmtSize f) (fulConvert r f (A % 2 ^ 48 / fmtSize f) v)
  match resolve s r.inv.tenant A with
  | .remote d a => some (writeRemote d a data r.inv.tenant (recCtx r.inv) (.invocation n) s)
  | _ => if writeOk s (recCtx r.inv) r.inv.tenant A data.length then some (writeCtx r.inv.tenant A data s) else none

/-- Replace or append position `k` of a list, filling with zeros. -/
def padSet (l : List Nat) (k v : Nat) : List Nat := if k < l.length then l.set k v else l ++ List.replicate (k - l.length) 0 ++ [v]

/-- Put a code into the activation store of one fuller; a store of another format starts anew. -/
def actPut (fmt v e code : Nat) (f : FullerSt) : FullerSt :=
  let act := if f.actFmt = fmt then f.act else []
  let act1 := if v < act.length then act else act ++ List.replicate (v + 1 - act.length) []
  { f with act := act1.modify v (fun l => padSet l e code), actFmt := fmt }

/-- Does the activation store hold this many vectors of this many elements (Table 8.1)? -/
def actFits (fmt vectors elements : Nat) : Bool :=
  decide (vectors ≤ 8) && decide (vectors * elements * fmtSize (outFmt fmt) ≤ 131072)

/-- Put a code into the activation stores of every present fuller of every gang member. -/
def gatherPut (r : InvRun) (fmt v e code : Nat) (s : State) : State :=
  r.gang.foldl (fun s m => (presentFullers s m).foldl (fun s i => modFuller m i (actPut fmt v e code) s) s) s

/-- The order that vector `v` delivers logits for (R268); none is a fault. -/
def vecOrder (s : State) (r : InvRun) (v : Nat) : Option Nat :=
  if recOslot r.inv then slotOrder s (recCtx r.inv) v else if v = 0 then recOrder s r.inv else none

/-- Write one output of RSTORE: its values by vector. The answer's number is a fault code, 0 when written. -/
def putOutput (n : Nat) (r : InvRun) (m : MergeOut) (vals : List Nat) (s : State) : State × Nat :=
  let f := outFmt m.fmt
  match m.dest with
  | 0 => vals.zipIdx.foldl (fun (a : State × Nat) p =>
      if a.2 ≠ 0 then a
      else match fulWrite n r (m.px + p.2 * m.pz + m.out * fmtSize f) f p.1 a.1 with
        | some s1 => (s1, 0)
        | none => (a.1, 5)) (s, 0)
  | 1 =>
    if m.fmt = 0 then (s, 4)
    else if !actFits m.fmt vals.length (m.px + m.out + 1) then (s, 3)
    else (vals.zipIdx.foldl (fun s p =>
      gatherPut r m.fmt p.2 (m.px + m.out) (fulConvert r f (p.2 * 2 ^ 32 + m.px + m.out) p.1) s) s, 0)
  | _ => vals.zipIdx.foldl (fun (a : State × Nat) p =>
      if a.2 ≠ 0 then a
      else match vecOrder a.1 r p.2 with
        | some o =>
          if m.out ≥ orderVocab a.1 o then (a.1, 3)
          else (deliverLogits o [(m.out, encodeFloat .fp32 .rne true false (decodeElem f (fulConvert r f (p.2 * 2 ^ 32 + m.out) p.1)))] false a.1, 0)
        | none => (a.1, 3)) (s, 0)

/-- Sum the parts of an output in ascending part order (R198). -/
def mergeParts (m : MergeOut) : List Nat :=
  let parts := (List.range m.parts).filterMap (fun k => (m.got.find? (fun g => decide (g.1 = k))).map Prod.snd)
  match parts with
  | [] => []
  | p :: t => t.foldl (fun a b => (a.zip b).map (fun x => fulAdd x.1 x.2)) p

/-! ### Tensor descriptors in memory (Tables 6.1 and 6.2) -/

def dimAt (l : List Byte) (d : Nat) : DimSplit :=
  let a := leAt l (64 + 24 * d) 8
  let c := leAt l (64 + 24 * d + 16) 8
  ⟨bitsOf a 39 0, leAt l (64 + 24 * d + 8) 8, bitsOf c 1 0, bitsOf c 13 2 + 1, bitsOf c 47 32, bitsOf c 15 14, bitsOf c 24 16 + 1, bitsOf c 63 48⟩

/-- A tensor descriptor's 256 bytes (R138). -/
def tensorDesc (l : List Byte) : TensorDesc :=
  let q := fun (k : Nat) => leAt l (8 * k) 8
  let rank := bitsOf (q 0) 42 40 + 1
  { magic := bitsOf (q 0) 31 0, target := bitsOf (q 0) 39 32, plane := bitOf (q 0) 43, fmt := bitsOf (q 0) 47 44
    home := bitsOf (q 0) 49 48, group := bitsOf (q 0) 61 50, base := q 1, partStride := q 2, kdim := bitsOf (q 3) 2 0
    segdir := bitsOf (q 3) 47 8, scaleDesc := q 4
    reserved := bitsOf (q 0) 63 62 != 0 || bitsOf (q 3) 7 3 != 0 || bitsOf (q 3) 63 48 != 0 || q 5 != 0 || q 6 != 0 || q 7 != 0
      || (List.range 8).any (fun d => if d < rank then bitsOf (leAt l (64 + 24 * d) 8) 63 40 != 0
          || bitsOf (leAt l (64 + 24 * d + 16) 8) 31 25 != 0 else (l.drop (64 + 24 * d)).take 24 != List.replicate 24 0)
    dims := (List.range rank).map (dimAt l), pin := none }

/-- A tensor's device-level part numbers on this member (R140): dimension 0 least significant. -/
def tensorParts (s : State) (d : TensorDesc) : List Nat :=
  let m := memberIndex s d.group
  (List.range d.dims.length).map (fun j =>
    let below := ((d.dims.take j).map (fun x => x.dparts)).foldl (· * ·) 1
    m / below % ((d.dims[j]?).map (fun x => x.dparts)).getD 1)

/-- Insert a row dimension by descending stride. -/
def insStride (d : TensorDesc) (j : Nat) : List Nat → List Nat
  | [] => [j]
  | k :: t =>
    if ((d.dims[j]?).map (fun x => x.stride)).getD 0 > ((d.dims[k]?).map (fun x => x.stride)).getD 0 then j :: k :: t
    else k :: insStride d j t

/-- The row dimensions, outermost first: those other than KDIM, in the order that the strides give. -/
def rowDims (d : TensorDesc) : List Nat := ((List.range d.dims.length).filter (fun j => decide (j ≠ d.kdim))).foldl (fun l j => insStride d j l) []

/-- A piece of a row on one unit part: the part, its row number there, the row's local length. -/
structure RowPiece where
  part : Nat
  row : Nat
  len : Nat
deriving DecidableEq, Repr

/-- The extent of a dimension's unit part `p` on this member. -/
def unitExt (parts : List Nat) (d : TensorDesc) (j p : Nat) : Nat :=
  match d.dims[j]? with
  | some x => localExt x.ukind x.uparts x.ublock (devExt x ((parts[j]?).getD 0)) p
  | none => 1

/-- The pieces of device-local row `r` (R139 to R141): one for each unit part that holds a copy or a part of its reduction. -/
def rowPieces (s : State) (d : TensorDesc) (r : Nat) : List RowPiece :=
  let parts := tensorParts s d
  let rd := rowDims d
  let ext := fun (j : Nat) => match d.dims[j]? with | some x => devExt x ((parts[j]?).getD 0) | none => 1
  let go := rd.reverse.foldl (fun (a : List (Nat × Nat) × Nat) j => ((j, a.2 % max 1 (ext j)) :: a.1, a.2 / max 1 (ext j))) ([], r)
  let idx := fun (j : Nat) => ((go.1.find? (fun p => decide (p.1 = j))).map Prod.snd).getD 0
  let choices := (List.range d.dims.length).map (fun j => match d.dims[j]? with
    | some x => if j = d.kdim ∨ x.ukind = 0 then List.range x.uparts else [partOf x.ukind x.uparts x.ublock (ext j) (idx j)]
    | none => [0])
  let combos := choices.foldl (fun (l : List (List Nat)) c => l.flatMap (fun a => c.map (fun p => a ++ [p]))) [[]]
  if go.2 ≠ 0 then []
  else combos.map (fun ps =>
    let u := (List.range ps.length).foldr (fun j acc => acc * ((d.dims[j]?).map (fun x => x.uparts)).getD 1 + (ps[j]?).getD 0) 0
    let row := rd.foldl (fun acc j => match d.dims[j]? with
      | some x => acc * unitExt parts d j 0 + localIdx x.ukind x.uparts x.ublock (ext j) (idx j)
      | none => acc) 0
    ⟨u, row, unitExt parts d d.kdim ((ps[d.kdim]?).getD 0)⟩)

/-! ### STREAM (R188, R198, R201) -/

/-- What a fuller has gathered over a row. -/
structure RowAcc where
  accs : List Nat
  block : Nat
  poison : Bool
  ok : Bool
  sectors : Nat
  relay : Nat
  planes : Nat
  wait : Nat
  /-- Addresses of invalid headers (R48). -/
  bad : List Nat
deriving DecidableEq, Repr

/-- Values of a slice of an activation vector: beyond its end, +0 (R145). -/
def actSlice (f : FullerSt) (v first : Nat) : List FVal :=
  let codes := ((f.act[v]?).getD [])
  (List.range 256).map (fun k => match codes[first + k]? with
    | some c => decodeFloat (outFmt f.actFmt) c
    | none => .fin false 0 0)

/-- One segment of a row, at device address A with the block count its directory gives. -/
def streamSegment (s : State) (r : InvRun) (f : FullerSt) (pair A blocks : Nat) (a : RowAcc) : RowAcc :=
  let hsec := cdiv blocks 4
  match fulBytes s r A (64 * hsec) with
  | none => { a with ok := false }
  | some hb =>
    let hs := (List.range blocks).map (fun j => leAt (bytesOf hb) (16 * j) 16)
    let W := (hs.map (fun h => h % 8 + 1)).sum
    match fulBytes s r (A + 1024) (32 * W) with
    | none => { a with ok := false }
    | some pb =>
      let foreign := ((List.range (cdiv (32 * W) 64)).filter (fun q => match resolve s r.inv.tenant (A + 1024 + 64 * q) with
        | .stack k => decide (k / 65536 % 512 ≠ pair)
        | _ => false)).length
      let off := fun (j : Nat) => 32 * ((hs.take j).map (fun h => h % 8 + 1)).sum
      (List.range blocks).foldl (fun (a : RowAcc) j =>
        let h := (hs[j]?).getD 0
        let w := h % 8 + 1
        let raw := (pb.drop (off j)).take (32 * w)
        let dirty := anyPoison ((hb.drop (16 * j / 64 * 64)).take 64) || anyPoison raw
        let planes := (List.range w).map (fun p => (bytesOf raw).drop (32 * p) |>.take 32)
        { a with
          accs := a.accs.zipIdx.map (fun x =>
            accAdd x.1 (if dirty then .nan else fullerBlock h planes (actSlice f x.2 (256 * a.block))))
          block := a.block + 1, poison := a.poison || dirty
          bad := if planeHeaderOk h then a.bad else a.bad ++ [A + 16 * j] })
        { a with sectors := a.sectors + hsec + cdiv (32 * W) 64, relay := a.relay + foreign, planes := a.planes + 32 * W
                 wait := a.wait + cdiv (400 * hsec - 128 * W) 125 }

/-- The whole row piece: its segments from the directory (R144). -/
def streamPiece (s : State) (r : InvRun) (f : FullerSt) (d : TensorDesc) (k0 : Nat) (p : RowPiece) (pair vecs : Nat) : RowAcc :=
  let S := cdiv (cdiv k0 256) 64
  let base := d.base + p.part * d.partStride
  let init : RowAcc := ⟨List.replicate vecs 0, 0, false, true, 0, 0, 0, 0, []⟩
  (List.range (cdiv (cdiv p.len 256) 64)).foldl (fun a j =>
    match fulBytes s r (base + d.segdir + 8 * (p.row * S + j)) 8 with
    | none => { a with ok := false }
    | some e =>
      let w := ofLeBytes (bytesOf e)
      streamSegment s r f pair (base + bitsOf w 39 0) (bitsOf w 46 40) { a with poison := a.poison || anyPoison e }) init

/-- The stack and bank pair that hold the first byte of a row piece's first segment. -/
def pieceHome (s : State) (r : InvRun) (d : TensorDesc) (k0 : Nat) (p : RowPiece) : Option (Nat × Nat) :=
  let S := cdiv (cdiv k0 256) 64
  let base := d.base + p.part * d.partStride
  (fulBytes s r (base + d.segdir + 8 * p.row * S) 8).bind (fun e =>
    match resolve s r.inv.tenant (base + bitsOf (ofLeBytes (bytesOf e)) 39 0) with
    | .stack k => some (k / 2 ^ 36, k / 65536 % 512)
    | _ => none)

/-! ### Attention records (R224 to R227) -/

/-- Global index of local index `i` of part `p` at the device level (R139). -/
def globalIdx (x : DimSplit) (p i : Nat) : Nat :=
  match x.dkind with
  | 1 => cdiv x.extent x.dparts * p + i
  | 2 => i / x.dblock * (x.dblock * x.dparts) + p * x.dblock + i % x.dblock
  | _ => i

/-- The values of a key or value row, NaN in sectors that hold poison, and whether any did. -/
def kvRowVals (s : State) (kv : KvDesc) (key : Nat) : List FVal × Bool :=
  let e := kvElem kv
  let bad := (List.range (cdiv (kv.d * e) 64)).any (fun q => keyPoison s (key + 64 * q) != 0)
  ((List.range kv.d).map (fun i =>
    if keyPoison s (key + i * e) ≠ 0 then .nan
    else decodeFloat (kvFmt kv) (ofLeBytes ((List.range e).map (fun b => keyByte s (key + i * e + b))))), bad)

/-- The partial record of one vector over visible rows of a frame (R226): m, l, o. Rows: keys and values by position. -/
def partialRecord (scale d : Nat) (q : List FVal) (rows : List (List FVal × List FVal)) : List Nat :=
  let score := fun (k : List FVal) =>
    let dot := toF32Flush (((q.zip k).map (fun p => mulV p.1 p.2)).foldl addV (.fin false 0 0))
    fulMul scale dot
  let ss := rows.map (fun x => score x.1)
  match ss with
  | [] => (0xFF800000 : Nat) :: 0 :: List.replicate d 0
  | s0 :: t =>
    let m := t.foldl fulMax s0
    let es := ss.map (fun x => flushIn (expOp 1 true (fulAdd x (flushIn (m ^^^ 0x80000000)))))
    let l := es.foldl fulAdd 0
    let o := (es.zip rows).foldl (fun (acc : List Nat) p =>
      (acc.zip p.2.2).map (fun x => toF32Flush (addV (mulV (ofF32 p.1) x.2) (ofF32 x.1)))) (List.replicate d 0)
    m :: l :: o

/-- Is a record the identity: l = 0 and m = −infinity? -/
def recIdentity (a : List Nat) : Bool := (a.headD 0 == 0xFF800000) && ((a.drop 1).headD 0 % 2 ^ 31 == 0)

/-- Merge two records, A the earlier (R227). -/
def mergeRec (a b : List Nat) : List Nat :=
  if recIdentity a then b
  else if recIdentity b then a
  else
    let m := fulMax (a.headD 0) (b.headD 0)
    let neg := m ^^^ 0x80000000
    let ea := flushIn (expOp 1 true (fulAdd (a.headD 0) neg))
    let eb := flushIn (expOp 1 true (fulAdd (b.headD 0) neg))
    m :: ((a.drop 1).zip (b.drop 1)).map (fun x => fulAdd (fulMul x.1 ea) (fulMul x.2 eb))

/-- The fixed pairwise tree over records. -/
def mergeTree : Nat → List (List Nat) → List (List Nat)
  | 0, l => l
  | k + 1, l => mergeTree k ((groupsOf 2 l.length l).map (fun g => match g with
      | [a, b] => mergeRec a b
      | g => g.headD []))

/-- The record of a vector over a whole stack: the frame records by frame index, through the tree. -/
def stackRecord (s : State) (n d v : Nat) : List Nat :=
  let recs := (presentFullers s n).flatMap (fun i => ((fullerOf s n i).partials.filter (fun p => decide (p.2.1 = v))).map (fun p => (p.1, p.2.2)))
  let sorted := recs.foldl (fun (t : Tbl (Option (List Nat))) p => tset none t p.1 (some p.2)) []
  ((mergeTree 17 (sorted.filterMap (fun p => p.2))).head?).getD ((0xFF800000 : Nat) :: 0 :: List.replicate d 0)

end Sys2Proof.Machine
end

