-- ==== Sys2Proof/Machine/Fullers.lean ====
section
/-! DEFINITION. Invocations and the fuller micro-instructions (R192 to R208, R224). A command of a micro-instruction names the
fuller that runs it; the instruction is the one at the fuller's position in the invocation's routine. -/

namespace Sys2Proof.Machine

/-! ### Records and starts (R192, R193, R589) -/

/-- Does a record pass its check (R192): reserved fields zero, VALID, a loaded routine of the library or the tenant's own, and for
ATTEND the reserved bits of its arguments (R229)? -/
def recordOk (s : State) (ten : Option Nat) (gang : List Nat) (w : List Nat) : Bool :=
  let q := fun (i : Nat) => (w[i]?).getD 0
  let slot := bitsOf (q 0) 7 0
  let arg := fun (k : Nat) => q (8 + k)
  bitOf (q 0) 8 && bitsOf (q 0) 15 12 == 0 && (!bitOf (q 0) 11 || bitsOf (q 0) 63 48 == 0)
  && ((w.drop 2).take 6).all (fun x => bitsOf x 63 49 == 0)
  && gang.all (fun n => match tget none (fulOf s n).slots slot with
      | some (own, _) => decide (slot < 0x40) || decide (own = ten)
      | none => false)
  && (slot != 4 || (bitsOf (arg 0) 63 37 == 0 && (!bitOf (arg 0) 36 || bitsOf (arg 0) 15 0 == 0) && bitsOf (arg 2) 63 36 == 0
      && bitsOf (arg 3) 63 32 == 0 && bitsOf (arg 4) 63 32 == 0 && bitsOf (arg 5) 1 0 != 3 && bitsOf (arg 5) 7 4 == 0
      && bitsOf (arg 5) 63 24 == 0 && arg 7 == 0))

/-- A fault of a record before its invocation starts: recorded on the lowest-numbered stack of its gang with FULLER 0 (R589). -/
def recordFault (n code ctx slot : Nat) (s : State) : State :=
  ctxFaults ctx code 0 (workEvents ctx code 0 0 0 0 (unitWord 4 n 0) (stackFaultRec n code 0 ctx slot 0 s))

/-- The scheduler writes an admitted candidate's record into the command register area of every stack of its gang, filling GANG,
SEQ, CONTEXT and the class (R192); the checks of R192 and R589 come first, and the waits go to the tally unit. -/
def placeInvocation (c : Cand) (s : State) : State :=
  match c.ctx, c.gang.head? with
  | some ctx, some n0 =>
    let (res, s1) := readCtx ctx c.tenant c.addr 128 s
    let raw := (List.range 16).map (fun i => leAt res.data (8 * i) 8)
    let seq := s1.sched.nextId
    let q0 := setBits (setBits (setBits (raw.headD 0) 9 9 (b2n c.lc)) 31 16 ctx) 43 32 (maskOf c.gang)
    let w := (raw.set 0 q0).set 1 (setBits ((raw[1]?).getD 0) 63 32 seq)
    let s2 := { s1 with sched := { s1.sched with nextId := seq + 1 } }
    if !res.ok || res.poison != 0 || !recordOk s2 c.tenant c.gang w then recordFault n0 2 ctx (bitsOf q0 7 0) s2
    else if !tallyWordsOk s2 c.tenant ((w.drop 2).take 6) then recordFault n0 9 ctx (bitsOf q0 7 0) s2
    else
      let (m, s3) := postWaits ctx c.tenant (.invocation n0 seq) ((w.drop 2).take 4) s2
      c.gang.foldl (fun s n => modFul n (fun x => { x with records := x.records ++ [⟨seq, c.id, w, c.tenant, m, false⟩] }) s) s3
  | _, _ => s

/-- Is a record eligible on its stacks (R193): its waits hold, every stack of its gang holds it and is present, and its candidate
is admitted? -/
def recEligible (s : State) (r : InvRec) : Bool :=
  waitsHold (recWaits r) r.waited
  && (recGang r).all (fun n => stackPresent s n && (fulOf s n).records.any (fun x => decide (x.id = r.id)))
  && (s.sched.cands.find? (fun c => decide (c.id = r.cand))).any (fun c => decide (c.admitted > 0))
  && !(fulOf s ((recGang r).headD 0)).records.any (fun x => decide (recCtx x = recCtx r ∧ x.id < r.id))

/-- The lowest SEQ of the eligible records of a class held by a stack. -/
def lowestSeq (s : State) (n : Nat) (lc : Bool) : Option Nat :=
  (((fulOf s n).records.filter (fun r => bitOf (recWord r 0) 9 == lc && recEligible s r)).map (fun r => r.id)).foldl
    (fun a x => match a with | some y => some (min x y) | none => some x) none

/-- The record an idle stack commits to (R193). -/
def committed (s : State) (n : Nat) : Option Nat := (lowestSeq s n true).orElse (fun _ => lowestSeq s n false)

/-- Clear the fullers of a stack for an invocation; the activation stores stay for an invocation of the same context. -/
def clearFullers (n : Nat) (keepAct : Bool) (s : State) : State :=
  { s with fullers := tmap FullerSt.reset s.fullers (fun k f =>
      if k / 512 = n then (if keepAct then { FullerSt.reset with act := f.act, actFmt := f.actFmt } else FullerSt.reset) else f) }

/-- INVOCATION_START (R193): every member of the gang is idle and commits to the record of this SEQ; all start it together. -/
def execInvocationStart (seq : Nat) (s : State) : Res :=
  .next (match (s.fulStacks.flatMap (fun p => p.2.records)).find? (fun r => decide (r.id = seq)) with
    | none => s
    | some r =>
      let gang := recGang r
      if gang.all (fun n => (runOf s n).isNone && decide (committed s n = some seq)) then
        let s1 := gang.foldl (fun s n => modFul n (fun x => { x with
            records := x.records.filter (fun y => decide (y.id ≠ seq))
            run := some ⟨r, s.bell, gang, false, none, [], []⟩, lastCtx := some (recCtx r), merger := [], fetch := none })
          (clearFullers n (decide ((fulOf s n).lastCtx = some (recCtx r))) s)) s
        match s1.sched.cands.find? (fun c => decide (c.id = r.cand)) with
        | some c => { tileStarts c 1 (gang.headD 0) 40 s1 with sched := { (tileStarts c 1 (gang.headD 0) 40 s1).sched with
            running := (tileStarts c 1 (gang.headD 0) 40 s1).sched.running
              ++ (gang.drop 1).map (fun n => ⟨c.id, 1, n, 0, s1.now, s1.now + c.cycles⟩) } }
        | none => s1
      else s)

/-- End an invocation on every member: nothing of it stays but the activation stores of a completed one. -/
def endInvocation (r : InvRun) (completed : Bool) (s : State) : State :=
  let s1 := r.gang.foldl (fun s n => tileEnds r.inv.cand 1 n
    (clearFullers n completed (modFul n (fun x => { x with run := none, merger := [], fetch := none }) s))) s
  candGone r.inv.cand s1

/-- Has every fuller of every member halted, and every write of the invocation been performed? -/
def invDone (s : State) (r : InvRun) : Bool :=
  r.gang.all (fun n => (presentFullers s n).all (fun i => !fullerRuns s n i)
    && !s.bal.reqs.any (fun q => decide (q.issuer = .invocation n)))

/-- INVOCATION_COMPLETE (R194): it sends its signals. An output whose parts do not all lie on one stack is a SHAPE fault (R198). -/
def execInvocationComplete (stack : Nat) (s : State) : Res :=
  .next (match runOf s stack with
    | none => s
    | some r =>
      if r.stopping || !invDone s r || r.gang.any (fun n => (fulOf s n).merger.any (fun m => decide (m.got.length ≥ m.parts))) then s
      else match r.gang.find? (fun n => !(fulOf s n).merger.isEmpty) with
        | some n => invFault n 0 3 0 s
        | none =>
          let s1 := sendSignals (recCtx r.inv) r.inv.tenant (recSigs r.inv) s
          endInvocation r true (r.gang.foldl (fun s n => bump (stkC n 0x170) 1 s) s1))

/-! ### Pointer, scratch and vector operations -/

/-- MICRO_NOP. -/
def execMicroNop (stack fuller : Nat) (s : State) : Res := .next (microStep stack fuller 0 (fun _ _ s => advance stack fuller s) s)

/-- A sign-extended immediate. -/
def miSImm (w : Nat) : Int := signedOf 32 (miImm w)

/-- SETP: pPX = IMM, plus ARG[N] when FN = 1, plus pPY when FN = 2. -/
def execSetp (stack fuller : Nat) (s : State) : Res :=
  .next (microStep stack fuller 1 (fun r w s =>
    let add := match miFn w with | 1 => recArg r.inv (miN w) | 2 => pGet (fullerOf s stack fuller) (miPy w) | _ => 0
    advance stack fuller (modFuller stack fuller (fun f => { f with
      p := tset (0 : BitVec 64) f.p (miPx w) (BitVec.ofInt 64 (miSImm w + add)) }) s)) s)

/-- Is a range of scratch words inside the scratch? -/
def scratchOk (a k : Nat) : Bool := decide (a + k ≤ 8192)

/-- One word of a VOP by its FN (Table 8.7): words of Y, Z and X. -/
def vopWord (fn : Nat) (ovf : Bool) (a b c : Nat) : Nat :=
  match fn with
  | 0 => fulAdd a b
  | 1 | 8 => fulMul a b
  | 2 => fulFma a b c
  | 3 => fulMax a b
  | 4 => flushIn (expOp 1 ovf (flushIn a))
  | 5 => flushIn (rsqOp 1 (flushIn a))
  | 6 => flushIn (rcpOp 1 (flushIn a))
  | _ => flushIn (a ^^^ 0x80000000)

/-- VOP over IMM scratch words (Table 8.7). -/
def vopRun (n i : Nat) (r : InvRun) (w : Nat) (s : State) : State :=
  let f := fullerOf s n i
  let k := miImm w
  let x := pGet f (miPx w)
  let y := pGet f (miPy w)
  let z := pGet f (miPz w)
  let fn := miFn w
  let zlen := if fn ≤ 3 then k else if fn = 8 then 1 else 0
  if !(scratchOk x k && scratchOk y k && (zlen == 0 || scratchOk z zlen)) then invFault n i 3 0 s
  else
    let ys := scratchGet f y k
    let zs := if fn = 8 then List.replicate k ((scratchGet f z 1).headD 0) else scratchGet f z (if zlen = 0 then 0 else k)
    let xs := scratchGet f x k
    let ovf := bitOf (recCvt r.inv) 2
    let out := ys.zipIdx.map (fun p => vopWord fn ovf p.1 ((zs[p.2]?).getD 0) ((xs[p.2]?).getD 0))
    advance n i (modFuller n i (scratchPut x out) s)

def execVop (stack fuller : Nat) (s : State) : Res := .next (microStep stack fuller 5 (vopRun stack fuller) s)

/-- VSUM: the sum of IMM words in the order of R57, or their maximum. -/
def vsumRun (n i : Nat) (_r : InvRun) (w : Nat) (s : State) : State :=
  let f := fullerOf s n i
  let k := miImm w
  let x := pGet f (miPx w)
  let y := pGet f (miPy w)
  if !(scratchOk x 1 && scratchOk y k) || k == 0 then invFault n i 3 0 s
  else
    let l := scratchGet f y k
    let v := if miFn w = 0 then fullerSum l else (l.drop 1).foldl fulMax (flushIn (l.headD 0))
    advance n i (modFuller n i (scratchPut x [v]) s)

def execVsum (stack fuller : Nat) (s : State) : Res := .next (microStep stack fuller 6 (vsumRun stack fuller) s)

/-! ### Loads -/

/-- The bytes of one ALOAD source, when they are at hand: here now, or from the fetch of another device. -/
def aloadBytes (s : State) (n : Nat) (r : InvRun) (A base len : Nat) : Option (List (Byte × Bool)) :=
  match resolve s r.inv.tenant A with
  | .remote _ a => ((fulOf s n).fetch).map (fun x => (List.range len).map (fun k => chunkByte (a - base) x.chunks (base + k)))
  | _ => (fulBytes s r A len).map (fun l => l.map (fun p => (p.1, decide (p.2 ≠ 0))))

/-- ALOAD (R196): activation vectors into the activation stores of every fuller of the stack, or FP32 words into this fuller's
scratch. A poisoned source loads nothing and is a POISON fault (R201). A source on another device is asked for first. -/
def aloadRun (n i : Nat) (r : InvRun) (w : Nat) (s : State) : State :=
  let f := fullerOf s n i
  let k := miImm w
  let vecs := miN w + 1
  let fmt := miFn w % 4
  let es := fmtSize (outFmt fmt)
  let wide := bitOf (miFn w) 3
  let src := pGet f (miPy w)
  let stride := pGet f (miPz w)
  let first := if wide then i * k * es else 0
  let addr := fun (v : Nat) => (src + v * stride + first) % 2 ^ 64
  let x := pGet f (miPx w)
  let remote := (List.range vecs).any (fun v => match resolve s r.inv.tenant (addr v) with | .remote _ _ => true | _ => false)
  if vecs > 8 || (!wide && !actFits fmt vecs k) || (wide && !scratchOk x (vecs * k)) then invFault n i 3 0 s
  else if (List.range vecs).any (fun v => homeInReset s (resolve s r.inv.tenant (addr v))) then retried s
  else if remote && ((fulOf s n).fetch).isNone then
    let s1 := (List.range vecs).foldl (fun s v => match resolve s r.inv.tenant (addr v) with
      | .remote d a => (piecesOf a (k * es)).foldl (fun s p =>
          sendReq (mkPacket 1 d (a + p.1) (cdiv p.2 32) 0 []) r.inv.tenant (recCtx r.inv) (.invocation n) (v * k * es + p.1) s) s
      | _ => s) s
    modFul n (fun y => { y with fetch := some ⟨i, newReqs s s1, []⟩ }) s1
  else if remote && ((fulOf s n).fetch).any (fun y => decide (y.fuller ≠ i) || !y.need.isEmpty) then s
  else
    let rows := (List.range vecs).map (fun v => aloadBytes s n r (addr v) (v * k * es) (k * es))
    if rows.any Option.isNone then invFault n i 5 0 s
    else
      let data := rows.map (fun o => o.getD [])
      let s0 := if remote then modFul n (fun y => { y with fetch := none }) s else s
      let s1 := (List.range vecs).foldl (fun s v =>
        (sectorsOf s r.inv.tenant (addr v) (k * es)).foldl (fun s sk => bump (stkC (sk / 2 ^ 30) 0x110) 1 s) s) s0
      if data.any (fun l => l.any Prod.snd) then invFault n i 6 0 s1
      else
        let codes := data.map (fun l => (List.range k).map (fun j => elemCode (outFmt fmt) (l.map Prod.fst) j))
        let s2 := if wide then
            modFuller n i (fun f => codes.zipIdx.foldl (fun f p => scratchPut (x + p.2 * k)
              (p.1.map (fun c => encodeFloat .fp32 .rne true false (decodeFloat (outFmt fmt) c))) f) f) s1
          else (presentFullers s1 n).foldl (fun s j => modFuller n j (fun f => { f with act := codes, actFmt := fmt }) s) s1
        advance n i s2

def execAload (stack fuller : Nat) (s : State) : Res := .next (microStep stack fuller 2 (aloadRun stack fuller) s)

/-! ### STREAM (R188, R198, R201) -/

/-- Words that the result list takes in the scratch. -/
def resultWords (f : FullerSt) : Nat := (f.results.map (fun e => 1 + e.2.length)).sum

/-- The checks of a STREAM and the row pieces whose first byte lies in a bank pair that this fuller serves: a fault code, 0 when it may run, and row, piece
and pair (R187, R188, R198). -/
def streamMine (s : State) (n i : Nat) (r : InvRun) (w : Nat) : Nat × List (Nat × RowPiece × Nat) :=
  let f := fullerOf s n i
  match fulBytes s r (pGet f (miPx w)) 256 with
  | none => (5, [])
  | some db =>
    let d := tensorDesc (bytesOf db)
    if anyPoison db then (6, [])
    else if d.magic ≠ 0x43534454 ∨ d.target ≠ 0xA1 ∨ d.plane = false ∨ d.reserved = true ∨ d.kdim ≥ d.dims.length then (3, [])
    else
      let k0 := unitExt (tensorParts s d) d d.kdim 0
      let first := pGet f (miPy w)
      let pieces := (List.range (miImm w)).flatMap (fun q => (rowPieces s d (first + q)).map (fun p => (first + q, p, pieceHome s r d k0 p)))
      let here := pieces.filterMap (fun p => p.2.2.bind (fun h => if h.1 = n then some (p.1, p.2.1, h.2) else none))
      if pieces.any (fun p => p.2.2.isNone) then (5, [])
      else if here.any (fun p => (serverOf s n p.2.2).isNone) then (3, [])
      else
        let mine := here.filter (fun p => decide (serverOf s n p.2.2 = some i))
        if mine.any (fun p => (List.range (miN w + 1)).any (fun v => decide (((f.act[v]?).getD []).length < p.2.1.len))) then (3, [])
        else (0, mine)

/-- The rows a STREAM sums, in order, up to the first that meets poison or may not be read. -/
def streamRows (s : State) (n i : Nat) (r : InvRun) (w : Nat) : List (Nat × Nat × RowAcc) :=
  let f := fullerOf s n i
  let d := tensorDesc (bytesOf ((fulBytes s r (pGet f (miPx w)) 256).getD []))
  let k0 := unitExt (tensorParts s d) d d.kdim 0
  let step := fun (a : List (Nat × Nat × RowAcc) × Bool) (p : Nat × RowPiece × Nat) =>
    if a.2 then a
    else
      let x := streamPiece s r f d k0 p.2.1 p.2.2 (miN w + 1)
      (a.1 ++ [(p.1, p.2.2, x)], x.poison || !x.ok)
  ((streamMine s n i r w).2.foldl step ([], false)).1

/-- The counters of a STREAM, and the headers it found invalid. -/
def streamCounts (n i : Nat) (rows : List (Nat × Nat × RowAcc)) (s : State) : State :=
  let k := ((stackOf s n).step)
  let sum := fun (g : RowAcc → Nat) => (rows.map (fun x => g x.2.2)).sum
  let served := (rows.map (fun x => if x.2.1 = i then x.2.2.relay else x.2.2.sectors)).sum
  let s1 := bump (stkC n 0x110) (sum (fun a => a.sectors)) (bump (stkC n 0x180) (cdiv (sum (fun a => a.planes) * 4 * 8) (125 * (8 - k))) s)
  let s2 := (if sum (fun a => a.wait) = 0 then id else bump (stkC n 0x188) (sum (fun a => a.wait)))
    ((if served = 0 then id else bump (stkC n 0x190) served) s1)
  let bad := rows.flatMap (fun x => x.2.2.bad)
  { s2 with ras := { s2.ras with fmtErrors := bad.map (fun b => (unitWord 5 n i, b)) ++ s2.ras.fmtErrors } }

/-- STREAM over the rows of a plane tensor. -/
def streamRun (n i : Nat) (r : InvRun) (w : Nat) (s : State) : State :=
  match (streamMine s n i r w).1 with
  | 0 =>
    let rows := streamRows s n i r w
    let s4 := modFuller n i (fun f => { f with results := f.results ++ rows.map (fun x => (x.1, x.2.2.accs)) }) (streamCounts n i rows s)
    if rows.any (fun x => !x.2.2.ok) then invFault n i 5 0 s4
    else if resultWords (fullerOf s4 n i) > 8192 then invFault n i 3 0 s4
    else if rows.any (fun x => x.2.2.poison) then invFault n i 6 0 s4
    else advance n i s4
  | code => invFault n i code 0 s

def execStream (stack fuller : Nat) (s : State) : Res := .next (microStep stack fuller 3 (streamRun stack fuller) s)

/-! ### KVREAD (R224 to R226) -/

/-- The global position of vector `v` of a KVREAD. -/
def kvreadPos (f : FullerSt) (w v : Nat) : Nat :=
  let q0 := bitsOf (pGet f (miPz w)) 63 32
  if bitOf (miFn w) 0 then q0 + v else q0

/-- Do a KVREAD's operands fit (R224)? -/
def kvreadOk (s : State) (n i : Nat) (w o : Nat) (kv : KvDesc) : Bool :=
  let f := fullerOf s n i
  let y := pGet f (miPy w)
  let vecs := miN w + 1
  decide (vecs ≤ 8 ∧ bitsOf y 31 20 = 0 ∧ bitsOf y 11 0 < kv.layers.extent ∧ bitsOf y 19 12 < kv.heads.extent ∧ vecs * (kv.d + 2) ≤ 4096)
  && (List.range vecs).all (fun v => decide (kvreadPos f w v < (orderOf s o).n)) && scratchOk (pGet f (miPx w)) (vecs * (kv.d + 2))
  && (List.range vecs).all (fun v => decide (miImm w + kv.d ≤ ((f.act[v]?).getD []).length))

/-- The frames of a KVREAD that this fuller serves and that hold visible positions: the frame's index in the cache, the partial record of each vector, how
many positions some vector sees, and whether a row of them holds poison (R224 to R226). -/
def kvreadWork (s : State) (n i : Nat) (w o : Nat) (kv : KvDesc) : List (Nat × List (List Nat) × Nat × Bool) :=
  let f := fullerOf s n i
  let y := pGet f (miPy w)
  let vecs := miN w + 1
  let W := bitsOf y 63 32
  let qOf := kvreadPos f w
  let off := miImm w
  let parts := kvParts s kv
  let ll := devLocal kv.layers (bitsOf y 11 0)
  let hh := devLocal kv.heads (bitsOf y 19 12)
  let C := (kvLocal s kv).2.2
  let T := kvT kv
  let F := kvF kv
  let qs := (List.range vecs).map (fun v => (List.range kv.d).map (fun e =>
    decodeFloat (outFmt f.actFmt) ((((f.act[v]?).getD [])[off + e]?).getD 0)))
  let frames := (List.range (cdiv C 256)).flatMap (fun k => (List.range F).filterMap (fun fr =>
    (pageFrame s o ll hh k fr).bind (fun fk =>
      if fk / 2 ^ 20 = n ∧ serverOf s n (fk % 512) = some i then some (k, fr, fk) else none)))
  let work := frames.map (fun x =>
    let pos := (List.range T).map (fun j => (j, globalIdx kv.pos parts.2.2 (x.1 * 256 + x.2.1 * T + j)))
    let vis := fun (v : Nat) => pos.filter (fun p => decide (p.2 < (orderOf s o).n ∧ p.2 ≤ qOf v ∧ (W = 0 ∨ p.2 + W > qOf v)))
    let any := pos.filter (fun p => (List.range vecs).any (fun v => (vis v).contains p))
    let row := fun (j sel : Nat) => kvRowVals s kv (x.2.2 * 65536 + sel * 32768 + j * kvStride kv)
    let recs := (List.range vecs).map (fun v => partialRecord (bitsOf (pGet f (miPz w)) 31 0) kv.d ((qs[v]?).getD [])
      ((vis v).map (fun p => ((row p.1 0).1, (row p.1 1).1))))
    (x.1 * F + x.2.1, recs, any.length, any.any (fun p => (row p.1 0).2 || (row p.1 1).2)))
  work.filter (fun x => decide (x.2.2.1 ≠ 0))

/-- KVREAD: partial records of the frames, of one local layer and head of the invocation's order, in bank pairs that this fuller
serves. The words of the last frame's records lie in its scratch. -/
def kvreadRun (n i : Nat) (r : InvRun) (w : Nat) (s : State) : State :=
  let f := fullerOf s n i
  let y := pGet f (miPy w)
  match (recOrder s r.inv).bind (fun o => (orderKv s o).map (fun kv => (o, kv))) with
  | none => invFault n i 5 0 s
  | some (o, kv) =>
    let parts := kvParts s kv
    if !kvreadOk s n i w o kv then invFault n i 3 0 s
    else if !(devHolds kv.layers parts.1 (bitsOf y 11 0) && devHolds kv.heads parts.2.1 (bitsOf y 19 12)) then advance n i s
    else
      let used := kvreadWork s n i w o kv
      let rows := 2 * (used.map (fun x => x.2.2.1)).sum
      let last := ((used.getLast?).map (fun x => x.2.1.flatten)).getD
        ((List.range (miN w + 1)).flatMap (fun _ => (0xFF800000 : Nat) :: 0 :: List.replicate kv.d 0))
      let s1 := (if rows = 0 then id else fun s => bump (stkC n 0x1B0) rows (bump (stkC n 0x110) (rows * cdiv (kv.d * kvElem kv) 64) s)) s
      let s2 := modFuller n i (fun f => { scratchPut (pGet f (miPx w)) last f with
        partials := f.partials ++ used.flatMap (fun u => u.2.1.zipIdx.map (fun p => (u.1, p.2, p.1))) }) s1
      if used.any (fun u => u.2.2.2) then invFault n i 6 0 s2 else advance n i s2

def execKvread (stack fuller : Nat) (s : State) : Res := .next (microStep stack fuller 4 (kvreadRun stack fuller) s)

/-! ### COMBINE, SYNC, LOOP, HALT (R199) -/

/-- COMBINE: the fuller offers N + 1 words and waits; the last to arrive completes it. -/
def execCombine (stack fuller : Nat) (s : State) : Res :=
  .next (microStep stack fuller 7 (fun _ w s =>
    let f := fullerOf s stack fuller
    let y := pGet f (miPy w)
    let x := pGet f (miPx w)
    if !(scratchOk y (miN w + 1) && scratchOk x (miN w + 1)) then invFault stack fuller 3 0 s
    else barrierCheck stack (modInvRun stack (fun r => { r with waiting := fuller :: r.waiting })
      (modFuller stack fuller (fun f => { f with offer := scratchGet f y (miN w + 1), offerTo := x }) s))) s)

/-- SYNC: the fuller waits for the stack's fullers, or the gang's. -/
def execSync (stack fuller : Nat) (s : State) : Res :=
  .next (microStep stack fuller 0xB (fun _ _ s =>
    barrierCheck stack (modInvRun stack (fun r => { r with waiting := fuller :: r.waiting }) s)) s)

/-- MICRO_LOOP: the next N + 1 instructions run IMM times, or pPY times when FN = 1; none is skipped over. -/
def execMicroLoop (stack fuller : Nat) (s : State) : Res :=
  .next (microStep stack fuller 0xC (fun _ w s =>
    let f := fullerOf s stack fuller
    let count := if miFn w = 1 then pGet f (miPy w) else miImm w
    let stop := f.pc + 1 + miN w + 1
    if count = 0 then modFuller stack fuller (fun f => { f with pc := stop }) s
    else modFuller stack fuller (fun f => { f with pc := f.pc + 1, loops := (f.pc + 1, stop, count) :: f.loops }) s) s)

/-- ATTEND's end on a stack (R227, R229): the combine unit has the frame records; the result is delivered as ARG5 selects. The
answer's number is a fault code, 0 when delivered. -/
def attendDeliver (n : Nat) (r : InvRun) (s : State) : State × Nat :=
  let a := recArg r.inv
  let order := if bitOf (a 0) 36 then recOrder s r.inv else recOrder s r.inv |>.bind (fun o => if o = bitsOf (a 0) 15 0 then some o else none)
  match order.bind (fun o => (orderKv s o).map (fun kv => (o, kv))) with
  | none => (s, 5)
  | some (o, kv) =>
    let l := bitsOf (a 0) 27 16
    let h := bitsOf (a 0) 35 28
    let parts := kvParts s kv
    let vecs := bitsOf (a 2) 35 33 + 1
    let mine := devHolds kv.layers parts.1 l && devHolds kv.heads parts.2.1 h
      && decide (((orderOf s o).parts[kvUnit s kv (devLocal kv.layers l) (devLocal kv.heads h)]?) = some n)
    if !mine then (s, 0)
    else
      let recs := (List.range vecs).map (stackRecord s n kv.d)
      let words := vecs * (kv.d + 2)
      let slotAt := fun (k : Nat) => a 6 + k * words * 4
      if bitsOf (a 5) 1 0 = 1 then
        (recs.flatten.zipIdx.foldl (fun (acc : State × Nat) p =>
          if acc.2 ≠ 0 then acc
          else
            let A := slotAt (bitsOf (a 5) 23 16) + 4 * p.2
            match resolve acc.1 r.inv.tenant A with
            | .remote d b => (writeRemote d b (leBytes 4 p.1) r.inv.tenant (recCtx r.inv) (.invocation n) acc.1, 0)
            | _ => if writeOk acc.1 (recCtx r.inv) r.inv.tenant A 4 then (writeCtx r.inv.tenant A (leBytes 4 p.1) acc.1, 0)
              else (acc.1, 5)) (s, 0))
      else
        let M := bitsOf (a 5) 15 8
        let merged := if bitsOf (a 5) 1 0 = 2 then
            (List.range M).map (fun k => if k = bitsOf (a 5) 23 16 then some recs
              else (fulBytes s r (slotAt k) (words * 4)).map (fun b => (List.range vecs).map (fun v =>
                (List.range (kv.d + 2)).map (fun j => leAt (bytesOf b) (4 * (v * (kv.d + 2) + j)) 4))))
          else [some recs]
        if merged.any Option.isNone then (s, 5)
        else
          let all := merged.map (fun x => x.getD [])
          let outs := (List.range vecs).map (fun v =>
            let t := all.map (fun x => (x[v]?).getD [])
            (t.drop 1).foldl mergeRec (t.headD []))
          let fmt := bitsOf (a 5) 3 2
          if fmt = 0 then (s, 4)
          else if !actFits fmt 1 (a 4 + vecs * kv.d) then (s, 3)
          else (outs.zipIdx.foldl (fun s p =>
            let inv := flushIn (rcpOp 1 ((p.1.drop 1).headD 0))
            (p.1.drop 2).zipIdx.foldl (fun s q =>
              let e := a 4 + p.2 * kv.d + q.2
              gatherPut r fmt p.2 e (fulConvert r (outFmt fmt) (p.2 * 2 ^ 32 + e) (fulMul q.1 inv)) s) s) s, 0)

/-- MICRO_HALT: ends the routine on this fuller; the last fuller of a stack to halt in ATTEND delivers its result. -/
def execMicroHalt (stack fuller : Nat) (s : State) : Res :=
  .next (microStep stack fuller 0xD (fun r _ s =>
    let s1 := haltFuller stack fuller s
    let s2 := if recSlot r.inv = 4 ∧ r.stopping = false ∧ (presentFullers s1 stack).all (fun i => !fullerRuns s1 stack i) = true then
        (match attendDeliver stack r s1 with
          | (t, 0) => t
          | (t, code) => invFault stack fuller code 0 t)
      else s1
    barrierCheck stack s2) s)

/-! ### Results (R198, R200) -/

/-- Insert a result by row. -/
def insRow (e : Nat × List Nat) : List (Nat × List Nat) → List (Nat × List Nat)
  | [] => [e]
  | x :: t => if e.1 < x.1 then e :: x :: t else x :: insRow e t

/-- Put a part into the merger. -/
def mergerPut (m : MergeOut) (part : Nat) (vals : List Nat) (l : List MergeOut) : List MergeOut :=
  if l.any (fun x => decide (x.dest = m.dest ∧ x.px = m.px ∧ x.pz = m.pz ∧ x.out = m.out)) then
    l.map (fun x => if x.dest = m.dest ∧ x.px = m.px ∧ x.pz = m.pz ∧ x.out = m.out then { x with got := x.got ++ [(part, vals)] } else x)
  else l ++ [{ m with got := [(part, vals)] }]

/-- FP32 sums that the merger holds. -/
def mergerWords (l : List MergeOut) : Nat := (l.map (fun m => (m.got.map (fun g => g.2.length)).sum)).sum

/-- RSTORE: up to IMM entries of the result list, in row order; outputs of one part are written at once, others wait in the
merger, which takes them while it has room. -/
def rstoreRun (n i : Nat) (r : InvRun) (w : Nat) (s : State) : State :=
  let f := fullerOf s n i
  let P := miN w + 1
  let fn := miFn w
  let sorted := f.results.foldl (fun l e => insRow e l) []
  let out := sorted.take (miImm w)
  let px := if fn % 4 = 2 then 0 else pGet f (miPx w)
  let pz := if fn % 4 = 0 then pGet f (miPz w) else 0
  let mk := fun (row : Nat) => (⟨fn % 4, px, pz, fn / 4, P, row / P, []⟩ : MergeOut)
  let kept := modFuller n i (fun f => { f with results := sorted.drop (miImm w) }) s
  if P = 1 then
    let go := out.foldl (fun (a : State × Nat) e => if a.2 ≠ 0 then a else putOutput n r (mk e.1) e.2 a.1) (kept, 0)
    if go.2 ≠ 0 then invFault n i go.2 0 go.1 else advance n i go.1
  else
    let m1 := out.foldl (fun l e => mergerPut (mk e.1) (e.1 % P) e.2 l) (fulOf s n).merger
    if mergerWords m1 > 65536 then s
    else advance n i (modFul n (fun x => { x with merger := m1 }) kept)

def execRstore (stack fuller : Nat) (s : State) : Res := .next (microStep stack fuller 8 (rstoreRun stack fuller) s)

/-- MERGE_RESULT_WRITE (R198): the first output whose parts have all arrived is summed in ascending part order and written once. -/
def execMergeResultWrite (stack : Nat) (s : State) : Res :=
  .next (match runOf s stack, (fulOf s stack).merger.find? (fun m => decide (m.got.length ≥ m.parts)) with
    | some r, some m =>
      let s1 := modFul stack (fun x => { x with merger := x.merger.erase m }) s
      (match putOutput stack r m (mergeParts m) s1 with
        | (t, 0) => t
        | (t, code) => invFault stack 0 code 0 t)
    | _, _ => s)

/-- MSTORE: IMM scratch words to a device address. -/
def mstoreRun (n i : Nat) (r : InvRun) (w : Nat) (s : State) : State :=
  let f := fullerOf s n i
  let y := pGet f (miPy w)
  let x := pGet f (miPx w)
  let fm := outFmt (miFn w / 4)
  if !scratchOk y (miImm w) then invFault n i 3 0 s
  else
    let go := (scratchGet f y (miImm w)).zipIdx.foldl (fun (a : State × Bool) p =>
      if a.2 then a
      else match fulWrite n r (x + p.2 * fmtSize fm) fm p.1 a.1 with
        | some t => (t, false)
        | none => (a.1, true)) (s, false)
    if go.2 then invFault n i 5 0 go.1 else advance n i go.1

def execMstore (stack fuller : Nat) (s : State) : Res := .next (microStep stack fuller 9 (mstoreRun stack fuller) s)

/-- APPEND (R200, R222): one token's key row and value row into the invocation order's page, here or at the owning member. -/
def appendRun (n i : Nat) (r : InvRun) (w : Nat) (s : State) : State :=
  let f := fullerOf s n i
  let k := miImm w
  let p := pGet f (miPx w)
  let y := pGet f (miPy w)
  let z := pGet f (miPz w)
  let l := bitsOf z 11 0
  let h := bitsOf z 19 12
  match (recOrder s r.inv).bind (fun o => (orderKv s o).map (fun kv => (o, kv))) with
  | none => invFault n i 5 0 s
  | some (o, kv) =>
    if !scratchOk y (2 * k) then invFault n i 3 0 s
    else match kvCheck s o l h p 1 k 0 kv.fmt with
      | 0 =>
        let row := fun (sel : Nat) => packElems (kvFmt kv) ((scratchGet f (y + sel * k) k).zipIdx.map (fun v =>
          fulConvert r (kvFmt kv) (kvElemIndex kv l h p sel v.2) v.1))
        let iss := Issuer.invocation n
        advance n i (bump (stkC n 0x198) 1
          (placeKvRow o l h p 1 (row 1) r.inv.tenant (recCtx r.inv) iss
            (placeKvRow o l h p 0 (row 0) r.inv.tenant (recCtx r.inv) iss s)))
      | code => invFault n i code 0 s

def execAppend (stack fuller : Nat) (s : State) : Res := .next (microStep stack fuller 0xA (appendRun stack fuller) s)

/-! ### Stops, errors and the library (R201, R204, R208) -/

/-- INVOCATION_STOP_REQUEST (R204): a stop request reaches the controllers of the running invocation's gang. -/
def execInvocationStopRequest (stack : Nat) (s : State) : Res := .next (stopInvocation stack s)

/-- INVOCATION_STOPPED (R204, R205): every fuller has left or completed its segment and the issued writes are complete; the
invocation ends without signals. -/
def execInvocationStopped (stack : Nat) (s : State) : Res :=
  .next (match runOf s stack with
    | some r =>
      if r.stopping && invDone s r then
        endInvocation r false (r.gang.foldl (fun s n => bump (stkC n 0x178) 1 s) s)
      else s
    | none => s)

/-- Retire a fuller (R187, R201): the spare of its die takes its number, or it is marked absent; the operator hears of it. -/
def retireFuller (n i : Nat) (s : State) : State :=
  let die := i / 32
  if (fulOf s n).sparesUsed.contains die then
    unitAbsent (unitWord 5 n i) 1 (modFul n (fun x => { x with absent := x.absent ++ [i] }) s)
  else bump 0x1400140 1 (rasLog 0x0C 3 (unitWord 5 n i) 0 0 ownerDev 32 (modFul n (fun x => { x with sparesUsed := x.sparesUsed ++ [die] }) s))

/-- FULLER_UNCORRECTABLE_ERROR (R201): the fuller is retired and the invocation stops: rerun once from its start on every member
when IDEM is 1, otherwise ended with RESET_LOST. -/
def execFullerUncorrectableError (stack fuller : Nat) (s : State) : Res :=
  .next (if !fullerPresent s stack fuller then s
    else match runOf s stack with
      | none => retireFuller stack fuller s
      | some r =>
        let s1 := retireFuller stack fuller s
        if r.stopping then haltFuller stack fuller s1
        else if bitOf (recWord r.inv 0) 10 && !r.inv.rerun then
          r.gang.foldl (fun s n => modFul n (fun x => { x with
              run := some { r with inv := { r.inv with rerun := true }, halted := [], waiting := [] }, merger := [], fetch := none })
            (clearFullers n false s)) s1
        else invFault stack fuller 0xA 0 s1)

/-- Load library routines into slots 0x00 to 0x3F, replacing the old ones. -/
def takeLibrary (n : Nat) (v c : Nat) (imgs : List RoutineImg) (s : State) : State :=
  modFul n (fun x => { x with
    slots := imgs.foldl (fun t g => tset none t g.slot (some (none, g.code))) (x.slots.filter (fun p => decide (0x40 ≤ p.1)))
    libVersion := v, libCrc := c, libPending := none }) s

/-- At a boundary at which no invocation runs on a stack it takes its pending library; one that needs more units than are free is not
applied, and FULLER_LIB completes with SPACE (R190, R208). -/
def takePendingLib (stack : Nat) (s : State) : State :=
  match (fulOf s stack).libPending with
  | none => s
  | some (v, c, imgs) =>
    if (runOf s stack).isSome then s
    else if (imgs.map (fun g => routineUnits g.code)).sum + storeUsed s stack false > 1024 then
      fwTaken true stack 5 (modFul stack (fun x => { x with libPending := none }) s)
    else fwTaken true stack 0 (takeLibrary stack v c imgs s)

/-- FULLER_LIB_TAKE (R190, R208). -/
def execFullerLibTake (stack : Nat) (s : State) : Res := .next (takePendingLib stack s)

end Sys2Proof.Machine
end

