-- ==== Sys2Proof/Machine/OrdOps.lean ====
section
/-! DEFINITION. Shared operations of the order book (chapter 10), KV reservation (R215 to R220), the cellar pool (R252 to R257)
and the pattern book (R259 to R262); ending a context everywhere (R129). -/

namespace Sys2Proof.Machine

/-! ### Ending a context (R129, R134, R204) -/

/-- Does any unit still hold work of a context? -/
def ctxBusy (s : State) (c : Nat) : Bool :=
  s.shops.any (fun p => p.2.engines.any (fun e => e.queue.any (fun x => decide (x.ctx = c)) || e.runs.any (fun x => decide (x.cmd.ctx = c)))
      || p.2.banks.any (fun b => decide (b.st ≠ 0 ∧ b.ctx = c)) || p.2.loads.any (fun l => decide (l.ctx = c))
      || p.2.lists.any (fun l => decide (l.ctx = c)) || p.2.preempted.any (fun x => decide (x.ctx = c))
      || p.2.array.passes.any (fun x => decide (x.cmd.ctx = c)) || p.2.launches.any (fun l => decide (l.cmd.ctx = c)))
  || s.fulStacks.any (fun p => p.2.records.any (fun r => decide (recCtx r = c)) || (p.2.run.map (fun r => decide (recCtx r.inv = c))).getD false)
  || s.bal.colls.any (fun x => decide (x.ctx = c))
  || s.sched.cands.any (fun k => decide (k.ctx = some c))

/-- End a context on every unit: shops as R129, invocations as R204; its waiting candidates and collectives go. -/
def endContext (c : Nat) (s : State) : State :=
  let s1 := (s.shops.map Prod.fst).foldl (fun s n => cancelShop c n s) s
  let s2 := (s1.fulStacks.map Prod.fst).foldl (fun s n =>
    let s3 := modFul n (fun x => { x with records := x.records.filter (fun r => decide (recCtx r ≠ c)) }) s
    if ((runOf s3 n).map (fun r => decide (recCtx r.inv = c))).getD false then stopInvocation n s3 else s3) s1
  let running := s2.fulStacks.filterMap (fun p => (p.2.run).map (fun r => r.inv.cand))
  dropColls (fun x => decide (x.ctx = c)) true { s2 with
    sched := { s2.sched with cands := s2.sched.cands.filter (fun k => decide (k.ctx ≠ some c) || running.contains k.id)
                             running := s2.sched.running.filter (fun r => !(decide (r.unitKind = 2) && s2.sched.cands.any (fun k => decide (k.id = r.cand ∧ k.ctx = some c)))) }
    tal := { s2.tal with waits := s2.tal.waits.filter (fun w => decide (w.ctx ≠ c)) } }

/-! ### Events of orders (R242, R243, Table 17.11) -/

/-- The EVMASK bit of an optional event (Table 10.3). -/
def eventBit (kind : Nat) : Option Nat :=
  match kind with
  | 0x02 => some 0 | 0x03 => some 1 | 0x05 => some 2 | 0x06 => some 3 | 0x08 => some 4 | 0x09 => some 5
  | 0x0F => some 6 | 0x11 => some 7 | _ => none

/-- An ORDER event of an order: CODE, AUX (the TAG of the command that Table 10.3 gives as its cause, otherwise 0) and payload word q6; to its tenant when always delivered or asked for, FAULTED and
EXPIRED to the operator too. -/
def ordEvent (o kind code aux q6 : Nat) (s : State) : State :=
  let r := orderOf s o
  let want := match eventBit kind with | some b => bitOf r.evmask b | none => true
  let e := mkRec s 0x01 kind code aux (some (o, r.gen)) [r.state, r.n, r.generated, r.fed, q6, 0]
  let s1 := if want then emit r.tenant e s else s
  if kind = 0x0A ∨ kind = 0x0B then emit opRing e s1 else s1

/-- A refused order command (Table 17.4): REFUSED with its cause, counted. The order's own words are shown only to its owner. -/
def refuseCmd (ring tag op : Nat) (order : Option (Nat × Nat)) (cause : Nat) (s : State) : State :=
  let own := order.filter (fun p => decide ((orderOf s p.1).tenant = ring ∧ (orderOf s p.1).gen = p.2 ∧ (orderOf s p.1).state ≠ 0))
  let words := match own with
    | some p => let r := orderOf s p.1; [r.state, r.n, r.generated, r.fed, op, 0]
    | none => [0, 0, 0, 0, op, 0]
  let s1 := bump 0x600108 1 (if cause = 1 then bump 0x600158 1 s else s)
  emit ring (mkRec s1 0x01 0x0D cause tag order words) s1

/-- A COMPLETION with status OK for an accepted order command whose entry set CPL (R437); it names the order that it concerns. -/
def acceptCmd (ring tag op : Nat) (cpl : Bool) (order : Option (Nat × Nat)) (s : State) : State :=
  if cpl then orderCompletion ring op 0 tag order s else s

/-- The entry words of an order (Table 10.1). -/
def entryWords (r : OrderRec) : List Nat :=
  [r.state + b2n r.lc * 2 ^ 4 + b2n r.noCellar * 2 ^ 5 + r.prior * 2 ^ 6 + r.tenant * 2 ^ 8 + r.model * 2 ^ 20 + r.grammar * 2 ^ 32
     + b2n r.grammarEn * 2 ^ 42 + r.gen * 2 ^ 48,
   r.n + r.pendingTok * 2 ^ 25 + b2n r.pendValid * 2 ^ 45 + r.deadline * 2 ^ 46,
   r.root + r.stateFrame * 2 ^ 24 + r.fault * 2 ^ 48 + r.reason * 2 ^ 56,
   r.cellar + r.evmask * 2 ^ 48,
   r.ttl + r.cellarAfter * 2 ^ 32,
   r.expire / 1000000 % 2 ^ 48,
   r.generated + r.fed * 2 ^ 32,
   r.cellarings + r.misses * 2 ^ 16 + r.frames * 2 ^ 32]

/-! ### Quotas in use (Table 10.7) -/

/-- Quota k of a tenant in force: 0 orders, 1 frames, 2 cellar units, 3 nodes, 4 LC_OK. -/
def quotaOf (s : State) (t k : Nat) : Nat :=
  match k with
  | 0 => forceField s (0x600060 + t * 2 ^ 32) 16 0
  | 1 => forceField s (0x600068 + t * 2 ^ 32) 31 0
  | 2 => forceField s (0x600070 + t * 2 ^ 32) 31 0
  | 3 => forceField s (0x600078 + t * 2 ^ 32) 20 0
  | _ => forceField s (0x600060 + t * 2 ^ 32) 63 63

/-- The orders of a tenant in a state other than FREE. -/
def tenantOrders (s : State) (t : Nat) : List Nat :=
  (s.book.orders.filter (fun p => decide (p.2.tenant = t ∧ p.2.state ≠ 0))).map Prod.fst

/-- Frames a page takes in an order's cache. -/
def orderF (s : State) (o : Nat) : Nat := ((orderKv s o).map kvF).getD 0

/-- Stack frames that an order holds or has reserved. -/
def framesHeld (s : State) (o : Nat) : Nat :=
  let r := orderOf s o
  r.pages.length * orderF s o + r.blocks.length + (if r.root ≠ 0 then 2 else 0) + (r.copy.map (fun c => c.granules.length)).getD 0

def framesUsed (s : State) (t : Nat) : Nat := ((tenantOrders s t).map (framesHeld s)).sum

/-- Cellar units of an order: its image and an image being written. -/
def orderUnits (r : OrderRec) : List (Nat × Nat) :=
  ((r.image.map (fun i => i.units)).getD []) ++ ((r.copy.map (fun c => c.units)).getD [])

def cellarUsed (s : State) (t : Nat) : Nat := ((tenantOrders s t).map (fun o => (orderUnits (orderOf s o)).length)).sum

def nodesUsed (s : State) (t : Nat) : Nat := (s.book.nodes.filter (fun p => decide ((p.2.map (fun n => n.tenant)) = some t))).length

/-- Set FRAMES of an order to what it holds (outside a recall). -/
def setFrames (o : Nat) (s : State) : State := modOrder o (fun r => { r with frames := framesHeld s o }) s

/-! ### Granules and frames -/

/-- The lowest granule from which `k` granules in a row are unbound; granule 0 is never taken, so that 0 can mean none. -/
def freeGranules (s : State) (k : Nat) : Nat :=
  ((List.range (s.mem.map.length * k + 1)).map (· + 1)).find? (fun g =>
    (List.range k).all (fun i => (tget Option.none s.mem.map (g + i)).isNone)) |>.getD 1

/-- The lowest free frame of a stack whose bank pair is not in a list, else the lowest free frame (R215). -/
def pickFrame (s : State) (n : Nat) (avoid : List Nat) : Option Nat :=
  ((List.range (min (2 ^ 20) (searchBound s n 1 * 512))).find? (fun f =>
    frameFree (frameOf s (n * 2 ^ 20 + f)) && !avoid.contains (f % 512))).orElse (fun _ => nextFree s n 0)

/-- Allocate one state-class frame of a stack and bind it to a granule. -/
def allocState (n g : Nat) (avoid : List Nat) (use : FrameUse) (tenant model order : Option Nat) (s : State) : State :=
  match pickFrame s n avoid with
  | none => s
  | some f => bindGranule g (n * 2 ^ 20 + f) true false tenant model order (takeFrame (n * 2 ^ 20 + f) true use s)

/-- Abort a running migration of a granule for a cause of Table 12.4: the destination frame is freed, the source stays (R302). -/
def abortMigration (cause g : Nat) (s : State) : State :=
  match tget Option.none s.mem.map g with
  | none => s
  | some e =>
    if e.migrating then
      let s1 := freeFrame (e.dest * 2 ^ 20 + e.destFrame) s
      let p := s1.sched.plc
      bump 0x500110 1 { s1 with
        mem := { s1.mem with map := tset Option.none s1.mem.map g (some { e with migrating := false, dest := 0, destFrame := 0, copied := false }) }
        sched := { s1.sched with
          plc := { p with aborts := tset 0 p.aborts cause (tget 0 p.aborts cause + 1) }
          cands := s1.sched.cands.filter (fun c => !(decide (c.kind = .copy ∧ c.idx = 4 ∧ c.addr = g))) } }
    else s

/-- Free the frame bound to a granule; a migration of it is aborted first (R302). -/
def freeGranule (g : Nat) (s : State) : State :=
  let s1 := abortMigration 6 g s
  match tget Option.none s1.mem.map g with
  | none => s1
  | some e => freeFrame (e.stack * 2 ^ 20 + e.frame) s1

/-- The stack with the most free frames among some, ties to the lower number. -/
def mostFree (s : State) (among : List Nat) : Option Nat :=
  among.foldl (fun b n => match b with
    | none => some n
    | some m => if freeFrames s n > freeFrames s m then some n else some m) none

/-- Copy a frame's contents to another frame: written sectors and poison with its cause (R175). -/
def copyFrame (src dst : Nat) (s : State) : State :=
  let bytes := (s.mem.bytes.filter (fun p => decide (p.1 / 65536 = src ∧ p.1 < 0xC000000000))).map (fun p => (dst * 65536 + p.1 % 65536, p.2))
  let secs := (s.mem.sector.filter (fun p => decide (p.1 / 1024 = src))).map (fun p => (dst * 1024 + p.1 % 1024, p.2))
  let s1 := wipeFrame dst s
  summarise dst { s1 with mem := { s1.mem with
    bytes := bytes.foldl (fun m p => tset (0 : Byte) m p.1 p.2) s1.mem.bytes
    sector := secs.foldl (fun m p => tset 0 m p.1 p.2) s1.mem.sector } }

/-! ### Pattern-book nodes (R259 to R262) -/

def nodeOf (s : State) (k : Nat) : Option NodeRec := tget none s.book.nodes k

/-- All granules of a node's pages: F for each first granule. -/
def nodeGranules (s : State) (x : NodeRec) : List Nat :=
  let f := (((modelOf s x.model).bind (fun m => m.kv)).map kvF).getD 1
  x.granules.flatMap (fun g => (List.range f).map (fun i => g + i))

/-- Release a node: its frames are freed on every stack; counted (R262). -/
def releaseNode (k : Nat) (s : State) : State :=
  match nodeOf s k with
  | none => s
  | some x => bump 0x600148 1
      { (nodeGranules s x).foldl (fun s g => freeGranule g s) s with
        book := { ((nodeGranules s x).foldl (fun s g => freeGranule g s) s).book with
          nodes := tset none ((nodeGranules s x).foldl (fun s g => freeGranule g s) s).book.nodes k none } }

/-- Leaves that may be released for a stack: no child, not in use by a copy, with a frame there. -/
def leavesOn (s : State) (n : Nat) : List (Nat × NodeRec) :=
  s.book.nodes.filterMap (fun p => p.2.bind (fun x =>
    if x.busy = 0 ∧ !s.book.nodes.any (fun q => (q.2.map (fun y => decide (y.parent = p.1 + 1))).getD false)
        ∧ (nodeGranules s x).any (fun g => ((tget Option.none s.mem.map g).map (fun e => decide (e.stack = n))).getD false) then
      some (p.1, x) else none))

/-- Release stored prefixes on a short stack, the least recently matched leaf first, until it has `need` free frames (R219). -/
def releaseFor : Nat → Nat → Nat → State → State
  | 0, _, _, s => s
  | k + 1, n, need, s =>
    if freeFrames s n ≥ need then s
    else
      match (leavesOn s n).foldl (fun (b : Option (Nat × NodeRec)) p => match b with
          | none => some p
          | some q => if p.2.lastMatch < q.2.lastMatch then some p else some q) none with
      | none => s
      | some p => releaseFor k n need (releaseNode p.1 s)

/-- The child of a node (0: the root) with the given tokens. -/
def childOf (s : State) (tenant model parent : Nat) (toks : List Nat) : Option Nat :=
  (s.book.nodes.find? (fun p => (p.2.map (fun x => decide (x.tenant = tenant ∧ x.model = model ∧ x.parent = parent ∧ x.tokens = toks))).getD false)).map Prod.fst

/-- The nodes that match a token list from the root, at most `m` pages. -/
def matchNodes (s : State) (tenant model : Nat) : Nat → Nat → List Nat → List Nat
  | 0, _, _ => []
  | k + 1, parent, toks =>
    match childOf s tenant model parent (toks.take 256) with
    | some x => x :: matchNodes s tenant model k (x + 1) (toks.drop 256)
    | none => []

/-! ### Reservation (R219) -/

/-- Local page indices that positions t0 to e − 1 touch on this member. -/
def pagesTouched (s : State) (kv : KvDesc) (t0 e : Nat) : List Nat :=
  let p := (kvParts s kv).2.2
  (((List.range (e - t0)).map (· + t0)).filterMap (fun i =>
    if devHolds kv.pos p i then some (devLocal kv.pos i / 256) else none)).eraseDups

/-- Page entries that are not VALID among those of some local pages: index, layer, head. -/
def missingPages (s : State) (o : Nat) (kv : KvDesc) (ks : List Nat) : List (Nat × Nat × Nat) :=
  let q := kvLocal s kv
  ks.flatMap (fun k => (List.range q.1).flatMap (fun l => (List.range q.2.1).filterMap (fun h =>
    let i := (k * q.1 + l) * q.2.1 + h
    if tget 0 (orderOf s o).pages i = 0 then some (i, l, h) else none)))

/-- Page-list blocks that the pages need and that do not exist. -/
def missingBlocks (s : State) (o : Nat) (kv : KvDesc) (ks : List Nat) : List Nat :=
  ((ks.map (fun k => k / max 1 (kvG s kv))).eraseDups).filter (fun b => decide (tget 0 (orderOf s o).blocks b = 0))

/-- The stack of a local layer and head of an order. -/
def partStack (s : State) (o : Nat) (kv : KvDesc) (l h : Nat) : Nat := ((orderOf s o).parts[kvUnit s kv l h]?).getD 0

/-- Stack on which a block is allocated: the root's, or the one with the most free frames (R216). -/
def blockStack (s : State) (o : Nat) : Nat :=
  let r := (orderOf s o).parts.headD 0
  if freeFrames s r > 0 then r else (mostFree s (List.range 12)).getD r

/-- Bank pairs of a stack that hold frames of this layer and head of the order. -/
def pairsOf (s : State) (o : Nat) (kv : KvDesc) (l h : Nat) : List Nat :=
  let q := kvLocal s kv
  ((orderOf s o).pages.filter (fun p => decide (p.1 % (q.1 * q.2.1) = l * q.2.1 + h))).flatMap (fun p =>
    (List.range (kvF kv)).filterMap (fun f => (granuleKey s (p.2 - 1 + f)).map (fun k => k % 2 ^ 20 % 512)))

/-- Allocate one page: F frames on its stack, spread over bank pairs by R215. -/
def allocPage (o : Nat) (kv : KvDesc) (x : Nat × Nat × Nat) (s : State) : State :=
  let n := partStack s o kv x.2.1 x.2.2
  let g := freeGranules s (kvF kv)
  let r := orderOf s o
  let s1 := (List.range (kvF kv)).foldl (fun s f =>
    let held := pairsOf s o kv x.2.1 x.2.2 ++ (List.range f).filterMap (fun i => (granuleKey s (g + i)).map (fun k => k % 2 ^ 20 % 512))
    bump (stkC n 0x1B8) 1 (allocState n (g + f) held (.page o) (some r.tenant) (some r.model) (some o) s)) s
  modOrder o (fun r => { r with pages := tset 0 r.pages x.1 (g + 1) }) s1

/-- Allocate one page-list block. -/
def allocBlock (o b : Nat) (s : State) : State :=
  let n := blockStack s o
  let g := freeGranules s 1
  let r := orderOf s o
  modOrder o (fun r => { r with blocks := tset 0 r.blocks b (g + 1) })
    (bump (stkC n 0x1B8) 1 (allocState n g [] (.blockOf o) (some r.tenant) (some r.model) (some o) s))

/-- The first stack, ascending, that lacks the frames; stored prefixes are released first. The state carries the releases. -/
def fitStacks (need : Nat → Nat) (s : State) : State × Option Nat :=
  (List.range 12).foldl (fun (a : State × Option Nat) n =>
    if a.2.isSome || need n == 0 then a
    else
      let s1 := releaseFor s.book.nodes.length n (need n) a.1
      if freeFrames s1 n ≥ need n then (s1, none) else (s1, some n)) (s, none)

/-- Reserve the frames of positions t0 to e − 1 (R219). The answer is the state with the reservation, or a cause: 0 quota, or
1 space with the first short stack; then nothing is allocated. -/
def reserveKv (o t0 e : Nat) (s : State) : State × Option (Nat × Nat) :=
  match orderKv s o with
  | none => (s, none)
  | some kv =>
    let r := orderOf s o
    let ks := pagesTouched s kv t0 e
    let ps := missingPages s o kv ks
    let bs := missingBlocks s o kv ks
    let total := ps.length * kvF kv + bs.length
    if framesUsed s r.tenant + total > quotaOf s r.tenant 1 then (s, some (0, 0))
    else
      let root := r.parts.headD 0
      let need := fun n => (ps.filter (fun x => decide (partStack s o kv x.2.1 x.2.2 = n))).length * kvF kv
        + (if n = root ∧ freeFrames s n ≥ (ps.filter (fun x => decide (partStack s o kv x.2.1 x.2.2 = n))).length * kvF kv + bs.length then bs.length else 0)
      match fitStacks need s with
      | (s1, some n) => (bump (stkC n 0x1C8) 1 s1, some (1, n))
      | (s1, none) => (setFrames o (bs.foldl (fun s b => allocBlock o b s) (ps.foldl (fun s x => allocPage o kv x s) s1)), none)

/-- Free a page of an order and clear its entry. -/
def freePage (o i : Nat) (s : State) : State :=
  let e := tget 0 (orderOf s o).pages i
  if e = 0 then s
  else
    let s1 := (List.range (max 1 (orderF s o))).foldl (fun s f =>
      let n := ((granuleKey s (e - 1 + f)).getD 0) / 2 ^ 20
      bump (stkC n 0x1C0) 1 (freeGranule (e - 1 + f) s)) s
    modOrder o (fun r => { r with pages := tset 0 r.pages i 0 }) s1

/-- Free a page-list block. -/
def freeBlock (o b : Nat) (s : State) : State :=
  let e := tget 0 (orderOf s o).blocks b
  if e = 0 then s
  else
    let n := ((granuleKey s (e - 1)).getD 0) / 2 ^ 20
    modOrder o (fun r => { r with blocks := tset 0 r.blocks b 0 }) (bump (stkC n 0x1C0) 1 (freeGranule (e - 1) s))

/-- Free every frame of an order (R174): pages, page list, order-state frame. -/
def freeOrderFrames (o : Nat) (s : State) : State :=
  let r := orderOf s o
  let s1 := r.blocks.foldl (fun s p => freeBlock o p.1 s) (r.pages.foldl (fun s p => freePage o p.1 s) s)
  let extra := (if r.root ≠ 0 then [r.root] else []) ++ (if r.stateFrame ≠ 0 then [r.stateFrame] else [])
    ++ (r.copy.map (fun c => c.granules)).getD []
  modOrder o (fun r => { r with root := 0, stateFrame := 0, frames := 0 })
    (extra.foldl (fun s g => freeGranule g s) s1)

/-- Free pages whose first position lies at or above n, and blocks that then name no page (R220). -/
def cutPages (o : Nat) (s : State) : State :=
  match orderKv s o with
  | none => s
  | some kv =>
    let r := orderOf s o
    let q := kvLocal s kv
    let part := (kvParts s kv).2.2
    let yh := max 1 (q.1 * q.2.1)
    let gone := r.pages.filter (fun p => decide (globalIdx kv.pos part (p.1 / yh * 256) ≥ r.n))
    let s1 := gone.foldl (fun s p => freePage o p.1 s) s
    let g := max 1 (kvG s kv)
    let s2 := (orderOf s1 o).blocks.foldl (fun s b =>
      if (orderOf s o).pages.any (fun p => decide (p.1 / yh / g = b.1)) then s else freeBlock o b.1 s) s1
    setFrames o (modOrder o (fun r => { r with cutPend := false }) s2)

/-- A node without a copy that uses it, when DROP_PREFIXES asked for its release. -/
def dropNode (k : Nat) (s : State) : State :=
  match nodeOf s k with
  | some x => if x.busy = 0 ∧ x.drop = true then releaseNode k s else s
  | none => s

/-- Nodes that a copy of an order used become free again. -/
def unbusy (ns : List Nat) (s : State) : State :=
  ns.foldl (fun s k => dropNode k { s with book := { s.book with
    nodes := tset none s.book.nodes k ((tget none s.book.nodes k).map (fun x => { x with busy := x.busy - 1 })) } }) s

/-- Drop an order's copy: nodes that a prefix store created and that have not been committed go with it. -/
def dropCopy (o : Nat) (s : State) : State :=
  match (orderOf s o).copy with
  | none => s
  | some c =>
    let s1 := unbusy c.nodes s
    let s2 := if c.kind = 3 then c.nodes.foldl (fun s k => match nodeOf s k with
        | some x => if x.busy = 0 ∧ x.lastMatch = 2 ^ 48 then releaseNode k s else s
        | none => s) s1 else s1
    modOrder o (fun r => { r with copy := none }) s2

/-! ### Steps (R218, R249) -/

/-- The chunk that the next prefill step appends. -/
def chunkLen (r : OrderRec) : Nat := min 4096 r.feed.length

/-- Prepare the next step of a generation: a prefill chunk, or a decode step. -/
def nextStep (o : Nat) (s : State) : State :=
  modOrder o (fun r =>
    let k := if r.feed.isEmpty then 1 else chunkLen r
    { r with step := some { t0 := r.n, e := r.n + k, selects := decide (r.feed.length ≤ 4096 ∧ (r.maxNew ≠ 0 ∨ r.feed = [])), attach := false
                            admitted := false, ctx := 0, bell := 0, missed := false, took := [], selected := false
                            unexpected := false, batch := [o] } }) s

/-- End the generation: GEN_DONE with its reason, in a state. Unreported tokens go out first (R288). -/
def reportTokens (o : Nat) (s : State) : State :=
  let r := orderOf s o
  let groups := groupsOf 12 r.unreported.length r.unreported
  let s1 := groups.zipIdx.foldl (fun s g =>
    let words := (List.range 6).map (fun i => ((g.1[2 * i]?).getD 0) + ((g.1[2 * i + 1]?).getD 0) * 2 ^ 32)
    emit r.tenant (mkRec s 0x02 0x01 g.1.length (r.unrepAt + 12 * g.2) (some (o, r.gen)) words) s) s
  modOrder o (fun r => { r with unreported := [] }) s1

/-- Generation ends in a state with a reason (R249, R286). -/
def genDone (o state reason : Nat) (s : State) : State :=
  let s1 := reportTokens o s
  ordEvent o 0x04 reason 0 0 (modOrder o (fun r => { r with
    state := state, reason := reason, step := none, feed := [], genEnd := none, stopAsked := false, idle := 0 }) s1)

/-- The state that a generation of an order falls back to when a step is refused or ends: the one its FEED found, while prefilling. -/
def fallState (r : OrderRec) : Nat := if r.state = 2 then r.found else 4

/-- Free the frames that a step's reservation allocated, clearing their entries (R218). -/
def returnStep (o : Nat) (x : StepRec) (s : State) : State :=
  let r := orderOf s o
  let s1 := (r.pages.filter (fun p => x.took.contains (p.2 - 1))).foldl (fun s p => freePage o p.1 s) s
  let s2 := (r.blocks.filter (fun p => x.took.contains (p.2 - 1))).foldl (fun s p => freeBlock o p.1 s) s1
  modOrder o (fun r => { r with n := x.t0, step := none }) s2

/-- Return the context tag of an order's step once no unit and no other order of the batch holds it (R588). -/
def releaseCtx (o c : Nat) (s : State) : State :=
  if ctxBusy s c || s.book.orders.any (fun p => decide (p.1 ≠ o) && (p.2.step.map (fun y => y.admitted && decide (y.ctx = c))).getD false) then s
  else { s with sched := { s.sched with ctxs := tset none s.sched.ctxs c none } }

/-- Candidates of an order that no unit runs go with its step or copy. -/
def dropCands (o : Nat) (s : State) : State :=
  { s with sched := { s.sched with cands := s.sched.cands.filter (fun c =>
      !(decide ((c.order.map Prod.fst) = some o)) || s.sched.running.any (fun r => decide (r.cand = c.id))) } }

/-- A step ends without completing (R218): n returns to t0 and what it took is freed. An attach ends its FEED with ENDED too. -/
def stepEnds (o : Nat) (s : State) : State :=
  match (orderOf s o).step with
  | none => s
  | some x =>
    let s2 := dropCands o (if x.admitted then releaseCtx o x.ctx (returnStep o x s) else s)
    setFrames o (genDone o (fallState (orderOf s o)) 9 (forgetSel o (dropCopy o s2)))

/-- A step completes (R218, R249): n stays; the next chunk, the next decode step, or the end of the generation follows. -/
def stepCompletes (o : Nat) (s : State) : State :=
  match (orderOf s o).step with
  | none => s
  | some x =>
    let s0 := releaseCtx o x.ctx s
    let prefilling := decide ((orderOf s o).state = 2)
    let s1 := modOrder o (fun r => { r with step := none, feed := if prefilling then r.feed.drop (x.e - x.t0) else r.feed })
      (bumpTenant (some (orderOf s o).tenant) 2 1 s0)
    let r := orderOf s1 o
    let c := ((orderKv s1 o).map (fun kv => (kvLocal s1 kv).2.2)).getD (2 ^ 25 - 1)
    if prefilling && !r.feed.isEmpty then
      (if r.stopAsked then genDone o 4 5 s1 else nextStep o s1)
    else if prefilling && r.maxNew == 0 then genDone o 4 (if r.stopAsked then 5 else 1) s1
    else
      let s2 := if prefilling then ordEvent o 0x03 0 0 0 (modOrder o (fun r => { r with state := 3 }) s1) else s1
      match r.genEnd with
      | some reason => genDone o 4 reason s2
      | none =>
        if r.n ≥ c then genDone o 4 6 s2
        else if r.stopAsked then genDone o 4 5 s2
        else nextStep o s2

/-- The step of an order is refused for want of frames (R219): KV_REFUSED and GEN_DONE; a refused attach runs without it. -/
def stepRefused (o cause stack : Nat) (s : State) : State :=
  match (orderOf s o).step with
  | none => s
  | some x =>
    if x.attach then nextStep o (dropCopy o (dropCands o s))
    else
      let r := orderOf s o
      let s1 := groupTell (orderGroup s o) [5, o, r.gen, cause] <| emit r.tenant (mkRec s 0x01 0x12 0 0 (some (o, r.gen)) [r.state, r.n, r.generated, r.fed, cause + stack * 2 ^ 8, 0]) (dropCands o s)
      genDone o (fallState r) 7 (forgetSel o s1)

/-! ### The cellar pool (R252, R454) -/

def farPort (s : State) (p : Nat) : FarPort := tget FarPort.reset s.book.far p

/-- A pool entry in force: port, base, units; none when not VALID. -/
def poolEntry (s : State) (e : Nat) : Option (Nat × Nat × Nat) :=
  let w := inForce s (0x1200040 + 8 * e)
  if bitOf w 2 then some (bitsOf w 1 0, bitsOf w 29 3, bitsOf w 56 30) else none

/-- The pool's entries, in entry order. -/
def poolEntries (s : State) : List (Nat × Nat × Nat) := (List.range 4).filterMap (poolEntry s)

/-- Is the pool configured (R454): every port ready, every entry within CAPACITY, no overlap? -/
def poolUsable (s : State) : Bool :=
  let es := poolEntries s
  !es.isEmpty && es.all (fun e => (farPort s e.1).state == 3 && decide (e.2.1 + e.2.2 ≤ (farPort s e.1).capacity))
  && (List.range es.length).all (fun i => (List.range i).all (fun j =>
      let a := (es[i]?).getD (0, 0, 0)
      let b := (es[j]?).getD (0, 0, 0)
      decide (a.1 ≠ b.1 ∨ a.2.1 + a.2.2 ≤ b.2.1 ∨ b.2.1 + b.2.2 ≤ a.2.1)))

/-- Units held by images of any order, and retired units (R477). -/
def unitsHeld (s : State) : List (Nat × Nat) :=
  s.book.orders.flatMap (fun p => orderUnits p.2) ++ s.ras.farRetired.flatMap (fun p => p.2.map (fun u => (p.1, u)))

/-- Allocate `k` units, unit u on the port of entry u mod P (R252): none when the pool cannot hold them. -/
def allocUnits (s : State) : Nat → Nat → List (Nat × Nat) → Option (List (Nat × Nat))
  | 0, _, acc => some acc.reverse
  | k + 1, u, acc =>
    let es := poolEntries s
    match es[u % max 1 es.length]? with
    | none => none
    | some (p, base, units) =>
      let held := unitsHeld s ++ acc
      match (List.range (min units (held.length + 1))).find? (fun i => !held.contains (p, base + i)) with
      | some i => allocUnits s k (u + 1) ((p, base + i) :: acc)
      | none => none

/-- Frames an order's image copies, in page-list order: page entry index × 16 + frame, and the memory frame. -/
def imageFrames (s : State) (o : Nat) : List (Nat × Nat) :=
  let r := orderOf s o
  r.pages.flatMap (fun p => (List.range (orderF s o)).filterMap (fun f => (granuleKey s (p.2 - 1 + f)).map (fun k => (p.1 * 16 + f, k))))
  ++ ((granuleKey s r.stateFrame).map (fun k => (2 ^ 40, k))).toList

/-- Poisoned sectors of a frame. -/
def poisonSectors (s : State) (k : Nat) : List Nat := (List.range 1024).filter (fun i => decide (sectorPoison s (k * 1024 + i) ≠ 0))

/-- Units of an order's image: the manifest in whole units, then the frames (R252). -/
def imageUnits (s : State) (o : Nat) : Nat :=
  let fs := imageFrames s o
  let bad := (fs.filter (fun f => s.mem.sector.any (fun p => decide (p.1 / 1024 = f.2 ∧ p.2 = 2)))).length
  cdiv (64 + 16 * fs.length + 128 * bad) 65536 + fs.length

/-- The address shown in CELLAR: bit 47 set, then the port and number of the image's first unit. -/
def cellarAddr (units : List (Nat × Nat)) : Nat := match units.head? with | some (p, u) => 2 ^ 47 + p + u * 4 | none => 0

/-- The content of an image (R252). -/
def imageContent (s : State) (o : Nat) : List (Nat × List (Nat × Byte) × List Nat) :=
  (imageFrames s o).map (fun f => (f.1,
    (s.mem.bytes.filter (fun p => decide (p.1 / 65536 = f.2 ∧ p.1 < 0xC000000000))).map (fun p => (p.1 % 65536, p.2)), poisonSectors s f.2))

/-! ### Ends of orders (R241, R257, R258, R263) -/

/-- Release everything an order holds: its step's work, its copy, image, frames, held FEED and place in the selector. A running step ends
by cancel, so n returns to its t0 (R218). -/
def releaseOrder (o : Nat) (s : State) : State :=
  let r := orderOf s o
  let s1 := match r.step with
    | some x => if x.admitted then endContext x.ctx s else s
    | none => s
  let s2 := dropCopy o (freeOrderFrames o (forgetSel o (dropCands o s1)))
  modOrder o (fun r => { r with n := (r.step.map (fun x => x.t0)).getD r.n, step := none, feed := [], genEnd := none, held := none, recallAsked := false, recallTag := none
                                recallWait := 0, cellarAsked := false, image := none, cellar := 0, expire := 0, copy := none
                                faultPend := none, cutPend := false, stopAsked := false }) s2

/-- An order faults (R241, R243): its resources go, its entry stays with FAULT; both rings hear of it. -/
def faultOrder (o cause code sub : Nat) (s : State) : State :=
  let r := orderOf s o
  if r.state = 0 ∨ r.state = 8 ∨ r.state = 9 then s
  else
    let s1 := releaseOrder o (reportTokens o s)
    bump 0x600128 1 (ordEvent o 0x0B cause 0 (code + sub * 2 ^ 8) (modOrder o (fun r => { r with state := 9, fault := cause }) s1))

/-- An order goes to CLOSED (R263). -/
def closeOrder (o : Nat) (s : State) : State :=
  modOrder o (fun r => { r with state := 8 }) (releaseOrder o s)

/-- An order becomes FREE; its GEN stays for the check of R240. -/
def freeOrder (o : Nat) (s : State) : State := modOrder o (fun r => { OrderRec.reset with gen := r.gen }) s

/-- A CLOSED order of which nothing remains goes to FREE with CLOSED, whose STATE afterwards is FREE (R242, Table 17.11). -/
def finishClose (o : Nat) (s : State) : State :=
  if (orderOf s o).state = 8 ∧ !s.sched.ctxs.any (fun p => (p.2.map (fun x => decide ((x.order.map Prod.fst) = some o))).getD false && ctxBusy s p.1) then
    freeOrder o (ordEvent o 0x0C 0 0 0 (modOrder o (fun r => { r with state := 0 }) s))
  else s

/-! ### Candidates of copies (R323, R325) -/

/-- Enter a copy as a candidate: tiles of at most 1 MiB, each charged its share of the energy (pJ). -/
def addCopy (idx addr : Nat) (tenant : Option Nat) (lc device : Bool) (order : Option (Nat × Nat)) (ring tag : Nat) (gang : List Nat)
    (bytes energy job : Nat) (s : State) : State :=
  let n := max 1 (cdiv bytes (2 ^ 20))
  let c : Cand := ⟨s.sched.nextId, .copy, none, tenant, lc, device, order, ring, tag, addr, idx, gang, 0, none, none, n, 0, 0, cdiv energy n, 0, 0, none, none, job⟩
  { s with sched := { s.sched with cands := s.sched.cands ++ [c], nextId := s.sched.nextId + 1 } }

/-- The charge of a copy of the device's own: 9.2 pJ a byte, and 35 pJ for a byte that crosses a far port. -/
def copyEnergy (bytes far : Nat) : Nat := bytes * 92 / 10 + far * 35

/-- Stacks of an order's frames. -/
def orderStacks (s : State) (o : Nat) : List Nat := ((imageFrames s o).map (fun f => f.2 / 2 ^ 20)).eraseDups

/-- Enter the copy that an order has just started; copies for an LC order rank as LC work (R329). -/
def enterOrderCopy (o : Nat) (s : State) : State :=
  let r := orderOf s o
  match r.copy with
  | none => s
  | some c =>
    let f := (orderKv s o).map (fun kv => let q := kvLocal s kv; q.1 * q.2.1 * kvF kv)
    let frames := match c.kind with
      | 0 => (imageFrames s o).length
      | 1 => ((r.image.map (fun i => i.frames.length)).getD 0)
      | 2 => c.total * f.getD 0
      | _ => c.nodes.length * f.getD 0
    let bytes := frames * 65536
    addCopy c.kind o (some r.tenant) r.lc true (some (o, r.gen)) r.tenant 0 (orderStacks s o) bytes
      (copyEnergy bytes (if c.kind ≤ 1 then bytes else 0)) 0 s

end Sys2Proof.Machine
end

