-- ==== Sys2Proof/Machine/OrdCmd.lean ====
section
/-! DEFINITION. The order commands (R244 to R263), the copies of orders and their commits: what the rows of chapter 10 and the
order-book work of a bell boundary (R246) share. -/

namespace Sys2Proof.Machine

/-! ### Rings (R437) -/

/-- The rings that may send an opcode (Table 17.4): none where the opcode is not listed; otherwise tenants, operator. -/
def opRings (op : Nat) : Option (Bool × Bool) :=
  if 0x01 ≤ op ∧ op ≤ 0x0B then some (true, false)
  else if op = 0x0C then some (false, true)
  else match op with
    | 0x10 | 0x11 | 0x1A | 0x1B | 0x20 | 0x21 => some (true, true)
    | 0x12 | 0x13 | 0x18 | 0x19 => some (true, false)
    | 0x30 | 0x31 | 0x32 | 0x33 => some (false, true)
    | _ => none

/-- An opcode that is unknown, or sent on a ring that may not send it, is answered so and nothing else happens (R437). -/
def guardRing (ring op tag : Nat) (f : State → State) (s : State) : State :=
  match opRings op with
  | none => completion ring op 2 tag 0 0 0 s
  | some (t, o) => if (if ring = opRing then o else t) then f s else completion ring op 3 tag 0 0 0 s

/-! ### Orders over a device group (R264) -/

/-- The words q0 to q3 of an order entry (Table 17.4). -/
def cmdWords (op tag : Nat) (cpl lc : Bool) (q1 q2 q3 : Nat) : List Nat :=
  [op + b2n cpl * 2 ^ 8 + b2n lc * 2 ^ 9 + tag % 2 ^ 32 * 2 ^ 32, q1, q2, q3]

/-- Member 0 of a group forwards an order command to the other members at the same boundary: the ring and the entry's words as a message. -/
def forwardEntry (ring : Nat) (words : List Nat) (s : State) : State :=
  let op := (words.headD 0) % 256
  let q1 := (words[1]?).getD 0
  let g := if op = 1 then ((((modelOf s (q1 % 2 ^ 12)).bind (fun m => m.kv)).map (fun kv => kv.group)).getD 0)
    else if op = 9 then 0 else orderGroup s (q1 % 2 ^ 16)
  if 1 ≤ op ∧ op ≤ 0x0B ∧ op ≠ 0x0A ∧ g ≠ 0 ∧ memberIndex s g = 0 then groupTell g ([3, ring] ++ words) s else s

/-! ### Selector parameters (R270) -/

/-- The parameter block of Table 11.1 from its 64 bytes. -/
def paramsOf (l : List Byte) : SelParams :=
  let q := fun i => leAt l (8 * i) 8
  let stops := [bitsOf (q 6) 31 0, bitsOf (q 6) 63 32, bitsOf (q 7) 31 0, bitsOf (q 7) 63 32]
  ⟨bitsOf (q 0) 31 0, bitsOf (q 0) 63 32, bitsOf (q 1) 31 0, bitsOf (q 1) 63 32, bitsOf (q 2) 10 0, bitsOf (q 2) 24 12,
   bitOf (q 2) 25, bitsOf (q 2) 29 26, q 3, q 4, bitsOf (q 5) 16 0, stops.filter (fun t => decide (t ≠ 0xFFFFFFFF)),
   bitOf (q 2) 11 || decide (bitsOf (q 2) 63 30 ≠ 0 ∨ bitsOf (q 5) 63 17 ≠ 0)⟩

/-- Is every field of the block in its range, for a vocabulary of `v` tokens? Both zeros count as 0; a penalty is a finite number. -/
def paramsOk (v : Nat) (p : SelParams) : Bool :=
  decide (p.temp = 0x80000000 ∨ p.temp < 0x7F800000)
  && decide (0 < p.topP ∧ p.topP ≤ 0x3F800000)
  && decide (p.minP = 0x80000000 ∨ p.minP < 0x3F800000)
  && decide (0x3F800000 ≤ p.repPen ∧ p.repPen < 0x7F800000)
  && decide (p.topK ≤ 1024 ∧ p.repWin ≤ 4096 ∧ 1 ≤ p.batch ∧ p.batch ≤ 12)
  && (if p.listEn then decide (1 ≤ p.listCount ∧ p.listCount ≤ 65536) else decide (p.list = 0 ∧ p.listCount = 0))
  && p.stops.all (fun t => decide (t < v)) && !p.reserved

/-! ### Binding (R311, R312) -/

/-- Is a token selector absent or in the reset of its quarter? -/
def selDown (s : State) (q : Nat) : Bool := (selOf s q).absent || unitInReset s 1 q

/-- The selector of a new order: fewest LC orders, then fewest orders, then the lowest number, among those present (R311). -/
def bindSelector (s : State) : Nat :=
  let on := fun q => s.book.orders.filter (fun p => decide (p.2.state ≠ 0 ∧ p.2.selector = q))
  let key : Nat → Nat := fun q => ((on q).filter (fun p => p.2.lc)).length * 2 ^ 20 + (on q).length
  let cand := (List.range 4).filter (fun q => !selDown s q)
  cand.foldl (fun b q => if key q < key b then q else b) (cand.headD 0)

/-- The stacks of the unit parts of an order of a model (R312): the part's own stack where it has frames, otherwise the one with
the most free frames among the stacks without another part of the order. -/
def bindParts (s : State) (m : ModelRec) : List Nat :=
  let units := match m.kv with | some kv => max 1 (kvUnits kv) | none => 1
  (List.range units).foldl (fun acc u =>
    let pref := ((m.parts[u]?).getD none).filter (fun n => decide (freeFrames s n > 0))
    let all := (List.range 12).filter (stackPresent s)
    let rest := all.filter (fun n => !acc.contains n)
    acc ++ [pref.getD ((mostFree s (if rest.isEmpty then all else rest)).getD 0)]) []

/-! ### OPEN (R247) -/

/-- The operands of an OPEN entry (Table 17.5). -/
structure OpenArgs where
  model : Nat
  lc : Bool
  noCellar : Bool
  grammarEn : Bool
  grammar : Nat
  evmask : Nat
  deadline : Nat
  ttl : Nat
  cellarAfter : Nat
  params : Nat
deriving DecidableEq, Repr

/-- Check 1 of R247. -/
def openParamOk (ring : Nat) (a : OpenArgs) (s : State) : Bool :=
  match modelOf s a.model with
  | none => false
  | some m =>
    let blk := peekDev s (some ring) a.params 64
    decide (m.tenant = ring) && !m.loading && !m.unloading && decide (a.ttl ≤ 86400 ∧ a.evmask < 256 ∧ a.model < 4096 ∧ a.grammar < 1024)
    && blk.ok && decide (blk.poison = 0) && paramsOk m.vocab (paramsOf blk.data)
    && (!a.grammarEn || (match grammarOf s a.grammar with
        | some g => decide (g.tenant = ring ∧ g.state = 2 ∧ g.vocab = m.vocab)
        | none => false))

/-- The lowest FREE entry, if the book has one. -/
def freeEntry (s : State) : Option Nat :=
  (List.range (min 65536 (s.book.orders.length + 1))).find? (fun o => decide ((orderOf s o).state = 0))

/-- The first check of R247 that fails, as a cause of Table 10.4. -/
def openCause (ring : Nat) (a : OpenArgs) (s : State) : Option Nat :=
  if !openParamOk ring a s then some 6
  else if a.lc ∧ quotaOf s ring 4 = 0 then some 7
  else if (tenantOrders s ring).length ≥ quotaOf s ring 0 then some 4
  else if freeEntry s = none then some 5
  else if framesUsed s ring + 2 > quotaOf s ring 1 then some 4
  else
    let n := (((modelOf s a.model).map (bindParts s)).getD []).headD 0
    if freeFrames s n < 2 then some 9 else none

/-- OPEN reads its parameter block once, when its model is loaded and the ring's (Table 17.5). -/
def openRead (ring : Nat) (a : OpenArgs) (s : State) : State :=
  if ((modelOf s a.model).map (fun m => decide (m.tenant = ring))).getD false then readFx (some ring) a.params 64 s else s

/-- Apply an OPEN of a ring (R247): REFUSED with the first failing cause, or the lowest FREE entry is taken with OPENED. -/
def applyOpen (ring tag : Nat) (cpl : Bool) (a : OpenArgs) (s : State) : State :=
  let u := openRead ring a s
  match openCause ring a s with
  | some c => refuseCmd ring tag 0x01 none c u
  | none =>
    let o := (freeEntry s).getD 0
    let parts := ((modelOf s a.model).map (bindParts s)).getD []
    let n := parts.headD 0
    let g := freeGranules s 2
    let rec0 : OrderRec := { OrderRec.reset with
      state := 1, lc := a.lc, noCellar := a.noCellar, tenant := ring, model := a.model
      grammar := if a.grammarEn then a.grammar else 0, grammarEn := a.grammarEn
      gen := ((orderOf s o).gen + 1) % 2 ^ 16, deadline := a.deadline, root := g, stateFrame := g + 1, evmask := a.evmask
      ttl := if a.ttl = 0 then rfield s 0x600000 16 0 else a.ttl, cellarAfter := a.cellarAfter, frames := 2
      params := paramsOf (peekDev s (some ring) a.params 64).data
      parts := parts, selector := bindSelector s }
    let s1 := allocState n (g + 1) [] (.orderState o) (some ring) (some a.model) (some o)
      (allocState n g [] (.blockOf o) (some ring) (some a.model) (some o) u)
    let s2 := bump 0x600100 1 (modOrder o (fun _ => rec0) s1)
    acceptCmd ring tag 0x01 cpl (some (o, rec0.gen)) (ordEvent o 0x01 0 tag 0 s2)

/-! ### The check of every command that names an order (R240, R244) -/

/-- STALE unless the order is the ring's, in use, with this GEN. -/
def orderStale (s : State) (ring o gen : Nat) : Bool :=
  let r := orderOf s o
  decide (r.state = 0 ∨ r.tenant ≠ ring ∨ r.gen ≠ gen)

/-- Apply a command of an order in some states: STALE, then STATE, then PARAM; else the effect, and a COMPLETION where asked. -/
def withOrder (ring tag op : Nat) (cpl : Bool) (o gen : Nat) (states : List Nat) (inRange : Bool) (effect : State → State) (s : State) : State :=
  if orderStale s ring o gen then refuseCmd ring tag op (some (o, gen)) 1 s
  else if !states.contains (orderOf s o).state then refuseCmd ring tag op (some (o, gen)) 2 s
  else if !inRange then refuseCmd ring tag op (some (o, gen)) 6 s
  else acceptCmd ring tag op cpl (some (o, gen)) (effect s)

/-! ### FEED (R249, R261) -/

/-- The context limit C of an order. -/
def orderLimit (s : State) (o : Nat) : Nat := ((orderKv s o).map (fun kv => (kvLocal s kv).2.2)).getD (2 ^ 25 - 1)

/-- The stacks that the nodes' frames suggest for an attaching order's unit parts (R261). -/
def attachParts (s : State) (o : Nat) (nodes : List Nat) : List Nat :=
  match orderKv s o, (nodes.head?).bind (nodeOf s) with
  | some kv, some x =>
    let q := kvLocal s kv
    (orderOf s o).parts.zipIdx.map (fun p =>
      let home := ((List.range (q.1 * q.2.1)).find? (fun i => decide (kvUnit s kv (i / max 1 q.2.1) (i % max 1 q.2.1) = p.2))).bind
        (fun i => (x.granules[i]?).bind (fun g => (granuleKey s g).map (fun k => k / 2 ^ 20)))
      match home with | some n => if freeFrames s n > 0 then n else p.1 | none => p.1)
  | _, _ => (orderOf s o).parts

/-- Start the attach step of m matched nodes: they are in use, and their last match is now. -/
def startAttach (o : Nat) (nodes : List Nat) (s : State) : State :=
  let s1 := { s with book := { s.book with nodes := nodes.foldl (fun t k => tset none t k ((tget none t k).map
      (fun x => { x with busy := x.busy + 1, lastMatch := nowMs s }))) s.book.nodes } }
  modOrder o (fun r => { r with
    parts := attachParts s o nodes
    step := some ⟨0, 256 * nodes.length, false, true, false, 0, 0, false, [], false, false, [o]⟩
    copy := some ⟨2, nodes.length, false, 0, [], nodes, [], r.feedTag⟩ }) s1

/-- Apply a FEED to an order in ADMITTED or TOOL_WAIT (R249). -/
def feedNow (o : Nat) (f : FeedRec) (s : State) : State :=
  let r := orderOf s o
  let toks := (if r.pendValid then [r.pendingTok] else []) ++ f.tokens
  if r.n + toks.length > orderLimit s o then refuseCmd f.ring f.tag 0x02 (some (o, r.gen)) 6 s
  else
    let nodes := if f.isMatch ∧ r.n = 0 ∧ !r.pendValid ∧ bitOf (rget s 0x600000) 32 then
        matchNodes s r.tenant r.model ((f.tokens.length - 1) / 256) 0 f.tokens else []
    let start := match if r.grammarEn then grammarOf s r.grammar else none with | some g => g.start | none => 0
    let s1 := modOrder o (fun r => { r with
      state := 2, found := r.state, pendValid := false, feed := toks, maxNew := f.maxNew, made := 0, feedTag := f.tag
      stopAsked := false, genEnd := none, cellarAsked := false, idle := 0, fed := (r.fed + f.tokens.length) % 2 ^ 32
      autState := if f.maxNew ≠ 0 then start else r.autState, autStack := if f.maxNew ≠ 0 then [] else r.autStack }) s
    let s2 := bumpTenant (some r.tenant) 1 f.tokens.length (ordEvent o 0x02 0 f.tag 0 (if f.maxNew ≠ 0 then queueMask o s1 else s1))
    if nodes.isEmpty then nextStep o s2 else enterOrderCopy o (startAttach o nodes s2)

/-- Hold a FEED: one at most, BUSY otherwise. On a CELLARED order it asks for a recall (R256). -/
def holdFeed (o : Nat) (f : FeedRec) (s : State) : State :=
  let r := orderOf s o
  if r.held.isSome then refuseCmd f.ring f.tag 0x02 (some (o, r.gen)) 3 s
  else modOrder o (fun r => { r with
    held := some f
    recallWait := if r.state = 6 ∧ !r.recallAsked then rfield s 0x600000 31 20 else r.recallWait
    recallAsked := r.recallAsked || r.state == 6 }) s

/-- A cellaring ends without a commit (R255): its units go, the order returns to PRIOR with CELLAR_ABORTED. -/
def abortCellar (o tag : Nat) (s : State) : State :=
  ordEvent o 0x07 0 tag 0 (modOrder o (fun r => { r with state := if r.prior = 0 then 1 else 4, cellarAsked := false, idle := 0 }) (dropCopy o s))

/-- A prefix store is copying. -/
def storing (r : OrderRec) : Bool := (r.copy.map (fun c => decide (c.kind = 3))).getD false

/-- Apply a FEED (Table 10.5). -/
def applyFeed (ring tag : Nat) (cpl : Bool) (o gen list count maxNew : Nat) (isMatch : Bool) (scan : Nat) (s : State) : State :=
  let blk := peekDev s (some ring) list (4 * count)
  let ok := blk.ok && decide (blk.poison = 0)
  let f : FeedRec := ⟨(List.range count).map (fun i => leAt blk.data (4 * i) 4), maxNew, isMatch, ring, tag, scan⟩
  let r := orderOf s o
  if orderStale s ring o gen then refuseCmd ring tag 0x02 (some (o, gen)) 1 s
  else if !([1, 4, 5, 6, 7] : List Nat).contains r.state then refuseCmd ring tag 0x02 (some (o, gen)) 2 s
  else if ¬(1 ≤ count ∧ count ≤ 2 ^ 20 ∧ maxNew ≤ 2 ^ 20) then refuseCmd ring tag 0x02 (some (o, gen)) 6 s
  else
    let s := readFx (some ring) list (4 * count) s
    let held := r.state == 6 || r.state == 7 || storing r || (r.state == 5 && (r.copy.map (fun c => c.done && c.failed == 0)).getD false)
    if !ok then refuseCmd ring tag 0x02 (some (o, gen)) 6 s
    else if held && r.held.isSome then refuseCmd ring tag 0x02 (some (o, gen)) 3 s
    else if held then acceptCmd ring tag 0x02 cpl (some (o, gen)) (holdFeed o f s)
    else
      let s1 := if r.state = 5 then abortCellar o tag s else s
      let toks := (if r.pendValid then 1 else 0) + count
      if r.n + toks > orderLimit s o then feedNow o f s1 else acceptCmd ring tag 0x02 cpl (some (o, gen)) (feedNow o f s1)

/-! ### The other order commands (Table 10.5) -/

def applyStop (ring tag : Nat) (cpl : Bool) (o gen : Nat) (s : State) : State :=
  withOrder ring tag 0x03 cpl o gen [2, 3] true (modOrder o (fun r => { r with stopAsked := true })) s

def applyTruncate (ring tag : Nat) (cpl : Bool) (o gen len : Nat) (s : State) : State :=
  let r := orderOf s o
  withOrder ring tag 0x04 cpl o gen (if storing r then [] else [1, 4]) (decide (len ≤ r.n))
    (modOrder o (fun r => { r with n := len, pendValid := false, cutPend := true })) s

/-- CELLAR: NO_CELLAR without a pool or with NO_CELLAR set; QUOTA where the quota or the pool cannot hold the image (R251). -/
def applyCellar (ring tag : Nat) (cpl : Bool) (o gen : Nat) (s : State) : State :=
  let r := orderOf s o
  if orderStale s ring o gen then refuseCmd ring tag 0x05 (some (o, gen)) 1 s
  else if r.state ≠ 1 ∧ r.state ≠ 4 then refuseCmd ring tag 0x05 (some (o, gen)) 2 s
  else if r.noCellar || !poolUsable s then refuseCmd ring tag 0x05 (some (o, gen)) 8 s
  else if cellarUsed s r.tenant + imageUnits s o > quotaOf s r.tenant 2 ∨ allocUnits s (imageUnits s o) 0 [] = none then
    refuseCmd ring tag 0x05 (some (o, gen)) 4 s
  else acceptCmd ring tag 0x05 cpl (some (o, gen)) (modOrder o (fun r => { r with cellarAsked := true }) s)

/-- RECALL asks for a recall at step 4 (R256). -/
def applyRecall (ring tag : Nat) (cpl : Bool) (o gen : Nat) (s : State) : State :=
  withOrder ring tag 0x06 cpl o gen [6] true (modOrder o (fun r => { r with
    recallWait := if r.recallAsked then r.recallWait else rfield s 0x600000 31 20
    recallAsked := true, recallTag := some tag })) s

def applySetTtl (ring tag : Nat) (cpl : Bool) (o gen secs scan : Nat) (s : State) : State :=
  withOrder ring tag 0x07 cpl o gen [1, 2, 3, 4, 5, 6, 7] (decide (1 ≤ secs ∧ secs ≤ 86400))
    (modOrder o (fun r => { r with ttl := secs, expire := if r.state = 6 then scan - s.sys.readyAt + secs * 10 ^ 9 else r.expire })) s

/-- Allocate one node frame group and its granules: F frames for every local layer and head, on the stacks of the order's parts. -/
def allocNodePages (o node : Nat) (kv : KvDesc) (s : State) : State × Option (List Nat) :=
  let q := kvLocal s kv
  let lh := (List.range q.1).flatMap (fun l => (List.range q.2.1).map (fun h => (l, h)))
  let need := fun n => (lh.filter (fun x => decide (partStack s o kv x.1 x.2 = n))).length * kvF kv
  if (List.range 12).any (fun n => decide (need n > 0 ∧ need n > freeFrames s n)) then (s, none)
  else
    let r := orderOf s o
    let res := lh.foldl (fun (a : State × List Nat) x =>
      let g := freeGranules a.1 (kvF kv)
      let n := partStack s o kv x.1 x.2
      ((List.range (kvF kv)).foldl (fun s f => allocState n (g + f) [] (.node node) (some r.tenant) (some r.model) none s) a.1, a.2 ++ [g])) (s, [])
    (res.1, some res.2)

/-- The walk of STORE_PREFIX (R260): pages present or created, and the nodes created, until a limit stops it. -/
def storeWalk (o : Nat) (kv : KvDesc) : Nat → Nat → List Nat → Nat → List Nat → State → Nat × List Nat × State
  | 0, _, _, stored, made, s => (stored, made, s)
  | k + 1, parent, toks, stored, made, s =>
    let r := orderOf s o
    match childOf s r.tenant r.model parent (toks.take 256) with
    | some x => storeWalk o kv k (x + 1) (toks.drop 256) (stored + 1) made s
    | none =>
      let id := ((List.range (s.book.nodes.length + 1)).find? (fun i => (nodeOf s i).isNone)).getD 0
      if nodesUsed s r.tenant ≥ quotaOf s r.tenant 3 ∨ id ≥ 1048576 then (stored, made, s)
      else match allocNodePages o id kv s with
        | (_, none) => (stored, made, s)
        | (s1, some gs) =>
          let node : NodeRec := ⟨r.tenant, r.model, parent, toks.take 256, 2 ^ 48, gs, 1, false⟩
          storeWalk o kv k (id + 1) (toks.drop 256) (stored + 1) (made ++ [id])
            { s1 with book := { s1.book with nodes := tset none s1.book.nodes id (some node) } }

/-- STORE_PREFIX: a walk that finds every page stored has nothing to copy and commits at the next boundary. -/
def applyStorePrefix (ring tag : Nat) (cpl : Bool) (o gen list k : Nat) (s : State) : State :=
  let r := orderOf s o
  let blk := peekDev s (some ring) list (1024 * k)
  let states : List Nat := if storing r then [] else [1, 4]
  let reads := !orderStale s ring o gen && states.contains r.state && decide (1 ≤ k ∧ k ≤ r.n / 256)
  withOrder ring tag 0x08 cpl o gen states (decide (1 ≤ k ∧ k ≤ r.n / 256) && blk.ok && decide (blk.poison = 0))
    (fun s => match orderKv s o with
      | none => s
      | some kv =>
        let w := storeWalk o kv k 0 ((List.range (256 * k)).map (fun i => leAt blk.data (4 * i) 4)) 0 [] s
        let s1 := modOrder o (fun r => { r with copy := some ⟨3, w.1, w.2.1.isEmpty, 0, [], w.2.1, [], tag⟩ }) w.2.2
        if w.2.1.isEmpty then s1 else enterOrderCopy o s1) (if reads then readFx (some ring) list (1024 * k) s else s)

/-- DROP_PREFIXES: nodes in use by a copy go when it commits. -/
def dropPrefixes (tenant : Nat) (model : Option Nat) (s : State) : State :=
  s.book.nodes.foldl (fun s p => match p.2 with
    | none => s
    | some x =>
      if x.tenant ≠ tenant ∨ (match model with | some m => decide (x.model ≠ m) | none => false) = true then s
      else if x.busy = 0 then releaseNode p.1 s
      else { s with book := { s.book with nodes := tset none s.book.nodes p.1 (some { x with drop := true }) } }) s

def applyDropPrefixes (ring tag : Nat) (cpl : Bool) (model : Nat) (s : State) : State :=
  if model ≥ 4096 then refuseCmd ring tag 0x09 none 6 s
  else acceptCmd ring tag 0x09 cpl none (dropPrefixes ring (some model) s)

/-- QUERY: the entry as the pair of STATUS records (Table 17.11). -/
def applyQuery (ring tag : Nat) (cpl : Bool) (o gen : Nat) (s : State) : State :=
  withOrder ring tag 0x0A cpl o gen [1, 2, 3, 4, 5, 6, 7, 8, 9] true
    (fun s =>
      let r := orderOf s o
      let w := entryWords r
      emitPair ring (mkRec s 0x01 0x0E 0 tag (some (o, r.gen)) (w.take 6)) (mkRec s 0x01 0x0E 1 tag (some (o, r.gen)) (w.drop 6 ++ [0, 0, 0, 0])) s) s

def applyClose (ring tag : Nat) (cpl : Bool) (o gen : Nat) (s : State) : State :=
  withOrder ring tag 0x0B cpl o gen [1, 2, 3, 4, 5, 6, 7, 9] true (closeOrder o) s

/-- FORCE_CLOSE: always a COMPLETION; PARAM when the number is out of range, STATE when FREE or CLOSED. -/
def applyForceClose (tag o : Nat) (s : State) : State :=
  let st := (orderOf s o).state
  if o ≥ 65536 then completion opRing 0x0C 1 tag 0 0 0 s
  else if st = 0 ∨ st = 8 then completion opRing 0x0C 0x0F tag 0 0 0 s
  else orderCompletion opRing 0x0C 0 tag (some (o, (orderOf s o).gen)) (closeOrder o s)

/-! ### Cellaring and recall (R251 to R257) -/

/-- Has an order a migration of one of its frames in progress? -/
def orderMigrating (s : State) (o : Nat) : Bool :=
  s.mem.map.any (fun p => (p.2.map (fun e => e.migrating && decide (e.order = some o))).getD false)

/-- May the cellaring of an order start now (R251), the copy bandwidth apart? -/
def canCellar (s : State) (o : Nat) : Bool :=
  let r := orderOf s o
  decide (r.state = 1 ∨ r.state = 4) && !r.noCellar && poolUsable s && r.cellarAsked && r.step.isNone && r.copy.isNone
  && !orderMigrating s o && decide (cellarUsed s r.tenant + imageUnits s o ≤ quotaOf s r.tenant 2)
  && (allocUnits s (imageUnits s o) 0 []).isSome

/-- Start a cellaring that may start: units are taken, PRIOR records the state, CELLARING is written. -/
def startCellar (o : Nat) (s : State) : State :=
  if !canCellar s o then s
  else
    let units := (allocUnits s (imageUnits s o) 0 []).getD []
    enterOrderCopy o (ordEvent o 0x05 0 0 0 (modOrder o (fun r => { r with
      prior := if r.state = 1 then 0 else 1, state := 5
      copy := some ⟨0, 0, false, 0, units, [], [], 0⟩ }) s))

/-- Count an image's units of each port: 64 KiB written or read a unit. -/
def countUnits (base book : Nat) (units : List (Nat × Nat)) (s : State) : State :=
  bump book units.length (units.foldl (fun s u => bump (base + 0x20 * u.1) 65536 s) s)

/-- The commit of a cellaring (R254). -/
def commitCellar (o : Nat) (s : State) : State :=
  let r := orderOf s o
  match r.copy with
  | none => s
  | some c =>
    let img : CellarImg := ⟨c.units, r.n, imageContent s o, r.gen, r.cellarings + 1, devNs s⟩
    let s1 := freeOrderFrames o s
    let exp := devNs s + r.ttl * 10 ^ 9
    bump 0x600110 1 (ordEvent o 0x06 0 0 (exp / 1000000 % 2 ^ 48) (modOrder o (fun r => { r with
      state := 6, image := some img, cellar := cellarAddr c.units, cellarings := (r.cellarings + 1) % 2 ^ 16, expire := exp
      copy := none, cellarAsked := false, idle := 0 }) s1))

/-- Reserve the frames of a recall (R256): the pages that the image names, blocks, root and order-state frame. -/
def reserveRecall (o : Nat) (s : State) : State × Option (Nat × Nat) :=
  let r := orderOf s o
  let kv := orderKv s o
  let idx := ((r.image.map (fun i => (i.frames.filter (fun f => decide (f.1 < 2 ^ 40))).map (fun f => f.1 / 16))).getD []).eraseDups
  let ps := match kv with
    | none => []
    | some k => let q := kvLocal s k
      idx.map (fun i => (i, i / max 1 q.2.1 % max 1 q.1, i % max 1 q.2.1))
  let bs := match kv with
    | none => []
    | some k => let q := kvLocal s k
      (idx.map (fun i => i / max 1 (q.1 * q.2.1) / max 1 (kvG s k))).eraseDups
  let f := (kv.map kvF).getD 1
  let total := ps.length * f + bs.length + 2
  if framesUsed s r.tenant + total > quotaOf s r.tenant 1 then (s, some (4, 0))
  else
    let root := r.parts.headD 0
    let need := fun n => (match kv with
        | none => 0
        | some k => (ps.filter (fun x => decide (partStack s o k x.2.1 x.2.2 = n))).length * f)
      + (if n = root then bs.length + 2 else 0)
    match fitStacks need s with
    | (s1, some n) => (bump (stkC n 0x1C8) 1 s1, some (9, n))
    | (s1, none) =>
      let s2 := match kv with
        | none => s1
        | some k => bs.foldl (fun s b => allocBlock o b s) (ps.foldl (fun s x => allocPage o k x s) s1)
      let g := freeGranules s2 2
      let s3 := allocState root (g + 1) [] (.orderState o) (some r.tenant) (some r.model) (some o)
        (allocState root g [] (.blockOf o) (some r.tenant) (some r.model) (some o) s2)
      (modOrder o (fun r => { r with copy := some ⟨1, 0, false, 0, [], [], [g, g + 1], 0⟩ }) s3, none)

/-- Try the recall of a CELLARED order at step 4 (R256, R257): it starts with RECALLING, or keeps its cause and one bell less. -/
def tryRecall (o : Nat) (s : State) : State :=
  if (orderOf s o).state ≠ 6 then s
  else match reserveRecall o s with
    | (s1, none) =>
      enterOrderCopy o (ordEvent o 0x08 0 0 0 (modOrder o (fun r => { r with state := 7 }) s1))
    | (s1, some c) => modOrder o (fun r => { r with recallCause := c.1, recallWait := r.recallWait - 1 }) s1

/-- The wait of a held recall has ended (R257): the RECALL and the held FEED are refused. -/
def refuseRecall (o : Nat) (s : State) : State :=
  let r := orderOf s o
  if r.state = 6 ∧ r.recallAsked ∧ r.recallWait = 0 then
    let s1 := match r.recallTag with
      | some t => refuseCmd r.tenant t 0x06 (some (o, r.gen)) r.recallCause s
      | none => s
    let s2 := match r.held with
      | some f => refuseCmd r.tenant f.tag 0x02 (some (o, r.gen)) r.recallCause s1
      | none => s1
    modOrder o (fun r => { r with recallAsked := false, recallTag := none, held := none }) s2
  else s

/-- Write a frame whole from an image: every sector valid, those of the poison map poisoned (R256). -/
def writeWhole (k : Nat) (bytes : List (Nat × Byte)) (poison : List Nat) (s : State) : State :=
  let s1 := wipeFrame k s
  summarise k { s1 with mem := { s1.mem with
    bytes := bytes.foldl (fun m p => tset (0 : Byte) m (k * 65536 + p.1) p.2) s1.mem.bytes
    sector := (List.range 1024).foldl (fun m i => tset 0 m (k * 1024 + i) (if poison.contains i then 2 else 1)) s1.mem.sector } }

/-- The frame that a recall reserved for a frame of the image. -/
def imageTarget (s : State) (o : Nat) (f : Nat) : Option Nat :=
  let r := orderOf s o
  granuleKey s (if f < 2 ^ 40 then tget 0 r.pages (f / 16) - 1 + f % 16 else ((r.copy.map (fun c => c.granules)).getD [])[1]?.getD 0)

/-- Write the frames of a recalled image into the frames reserved for them. -/
def restoreFrames (o : Nat) (s : State) : State :=
  (((orderOf s o).image.map (fun i => i.frames)).getD []).foldl (fun t f =>
    match imageTarget s o f.1 with
    | some k => writeWhole k f.2.1 f.2.2 t
    | none => t) s

/-- The commit of a recall (R256): the order returns to PRIOR. -/
def commitRecall (o : Nat) (s : State) : State :=
  let r := orderOf s o
  match r.copy with
  | none => s
  | some c =>
    let s1 := modOrder o (fun r => { r with
      state := if r.prior = 0 then 1 else 4, root := c.granules.headD 0, stateFrame := (c.granules[1]?).getD 0
      image := none, cellar := 0, expire := 0, copy := none, recallAsked := false, recallTag := none, recallWait := 0, idle := 0 }) s
    bump 0x600118 1 (ordEvent o 0x09 0 0 0 (setFrames o s1))

/-! ### Attach and prefix-store copies (R260, R261) -/

/-- The frames of pattern-book nodes and the order's frames of the same page, layer and head: node at depth k lies beside page `first` + k. -/
def nodePairs (s : State) (o : Nat) (nodes : List Nat) (first : Nat) (kv : KvDesc) : List (Nat × Nat) :=
  let q := kvLocal s kv
  nodes.zipIdx.flatMap (fun p => match nodeOf s p.1 with
    | none => []
    | some x => x.granules.zipIdx.flatMap (fun gi =>
      let e := tget 0 (orderOf s o).pages ((first + p.2) * (q.1 * q.2.1) + gi.2)
      (List.range (kvF kv)).filterMap (fun f =>
        match granuleKey s (gi.1 + f), if e = 0 then none else granuleKey s (e - 1 + f) with
        | some a, some b => some (a, b)
        | _, _ => none)))

/-- Copy the matched nodes' frames into the order's frames of the same page, layer and head. -/
def attachFrames (o : Nat) (nodes : List Nat) (kv : KvDesc) (s : State) : State :=
  (nodePairs s o nodes 0 kv).foldl (fun s p => bump 0x600140 1 (copyFrame p.1 p.2 s)) s

/-- Copy the order's page frames into the frames of the nodes that a prefix store created. -/
def prefixFrames (o : Nat) (nodes : List Nat) (first : Nat) (kv : KvDesc) (s : State) : State :=
  (nodePairs s o nodes first kv).foldl (fun s p => copyFrame p.2 p.1 s) s

/-- An attach commits: ATTACHED with m, and the prefill of the tokens that follow. -/
def commitAttach (o : Nat) (s : State) : State :=
  match (orderOf s o).copy with
  | none => s
  | some c =>
    let ctx := ((orderOf s o).step.map (fun x => x.ctx)).getD 0
    let s1 := releaseCtx o ctx (unbusy c.nodes (modOrder o (fun r => { r with copy := none, step := none, feed := r.feed.drop (256 * c.total) }) s))
    let s2 := ordEvent o 0x11 0 c.tag c.total s1
    if (orderOf s2 o).stopAsked then genDone o 4 5 s2 else nextStep o s2

/-- A prefix store commits: PREFIX_STORED with its pages. -/
def commitPrefix (o : Nat) (s : State) : State :=
  match (orderOf s o).copy with
  | none => s
  | some c =>
    let s1 := { s with book := { s.book with nodes := c.nodes.foldl (fun t k => tset none t k ((tget none t k).map
        (fun x => { x with lastMatch := nowMs s }))) s.book.nodes } }
    ordEvent o 0x10 0 c.tag c.total (modOrder o (fun r => { r with copy := none }) (unbusy c.nodes s1))

/-- Step 1 of Table 10.6 for one order: commit its finished copy, or end it by its failure. -/
def commitCopy (o : Nat) (s : State) : State :=
  match (orderOf s o).copy with
  | none => s
  | some c =>
    if c.failed = 3 ∨ c.failed = 4 then faultOrder o c.failed 0 0 s
    else if c.failed ≠ 0 ∧ c.kind = 0 then abortCellar o 0 s
    else if !c.done then s
    else match c.kind with
      | 0 => commitCellar o s
      | 1 => commitRecall o s
      | 2 => commitAttach o s
      | _ => commitPrefix o s

/-- A held FEED of an order that is in ADMITTED or TOOL_WAIT again is applied at step 3 (R256). -/
def applyHeld (o : Nat) (s : State) : State :=
  let r := orderOf s o
  match r.held with
  | none => s
  | some f => if (r.state = 1 ∨ r.state = 4) ∧ r.copy.isNone = true then feedNow o f (modOrder o (fun r => { r with held := none }) s) else s

/-! ### Time to live, idle bells and deadlines (R250, R258) -/

/-- Does one of the order's commands with a scan time before EXPIRE await application (R246 step 2)? FEED, RECALL, SET_TTL,
CLOSE and FORCE_CLOSE count; a command that will be STALE does not. -/
def awaitsCommand (s : State) (o : Nat) : Bool :=
  let r := orderOf s o
  s.host.waiting.any (fun e =>
    let op := (e.words.headD 0) % 256
    let q1 := (e.words[1]?).getD 0
    decide (e.scan < s.sys.readyAt + r.expire ∧ q1 % 65536 = o)
    && ((decide (e.ring = opRing) && op == 0x0C)
        || (decide (e.ring = r.tenant ∧ bitsOf q1 31 16 = r.gen) && ([0x02, 0x06, 0x07, 0x0B] : List Nat).contains op)))

/-- Step 2 of Table 10.6 for one order: a CELLARED order at or past EXPIRE becomes FREE with EXPIRED. A held recall keeps it. -/
def expireOrder (o : Nat) (s : State) : State :=
  let r := orderOf s o
  if r.state = 6 ∧ r.expire ≤ devNs s ∧ r.recallAsked = false ∧ r.held.isNone = true ∧ awaitsCommand s o = false then
    let s1 := modOrder o (fun r => { r with state := 0 }) (releaseOrder o s)
    freeOrder o (bump 0x600120 1 (ordEvent o 0x0A 0 0 0 s1))
  else s

/-- An order that has waited CELLAR_AFTER bells in TOOL_WAIT becomes a cellaring candidate. -/
def idleCandidate (o : Nat) (s : State) : State :=
  let r := orderOf s o
  if r.state = 4 ∧ r.cellarAfter ≠ 0 ∧ r.cellarAfter ≤ r.idle ∧ r.noCellar = false then
    modOrder o (fun r => { r with cellarAsked := true }) s
  else s

/-- A step not completed DEADLINE bells after its admission: counted and reported once. -/
def missDeadline (o : Nat) (s : State) : State :=
  let r := orderOf s o
  match r.step with
  | none => s
  | some x =>
    if x.admitted ∧ !x.missed ∧ r.deadline ≠ 0 ∧ s.bell - x.bell ≥ r.deadline then
      bump 0x600150 1 (bumpTenant (some r.tenant) 8 1 <| ordEvent o 0x0F 0 0 (s.bell - x.bell) (modOrder o (fun r => { r with
        misses := min 0xFFFF (r.misses + 1), step := r.step.map (fun x => { x with missed := true }) }) s))
    else s

end Sys2Proof.Machine
end

