-- ==== Sys2Proof/Machine/Orders.lean ====
section
/-! DEFINITION. Meanings of the order-book rows (chapter 10) and of a read through the KV aperture (R232). An order command's row is
its application at step 3 of Table 10.6; the copies' rows end them, and a later boundary commits. -/

namespace Sys2Proof.Machine

/-- KV_APERTURE_READ (R232): resolved through the slot order's page list; an unbound slot or a place outside the cache is a
PROTECTION work fault of the reader's shop. -/
def execKvApertureRead (shop ctx off len : Nat) (s : State) : Res :=
  let l := (List.range len).map (fun i => kvByte s ctx (off + i))
  if l.all Option.isSome then
    let keys := ((List.range len).filterMap (fun i =>
      let b := (off + i) / 2 ^ 36
      if b = 63 then none
      else (slotOrder s ctx b).bind (fun o => (orderKv s o).bind (fun kv =>
        let q := kvLocal s kv
        let r := (off + i) % 2 ^ 36
        let page := r / 65536 / kvF kv
        let pn := max 1 (cdiv q.2.2 256)
        (pageFrame s o (page / (max 1 q.2.1 * pn)) (page / pn % max 1 q.2.1) (page % pn) (r / 65536 % kvF kv)).map
          (fun fk => (fk * 65536 + r % 65536) / 64))))).eraseDups
    .next (answerBytes (l.map (fun o => (o.getD (0, 0)).1)) (keys.foldl (fun s sk => touchRead sk s) s))
  else .next (workFault shop 5 0 1 ctx 0 0 s)

/-- OPEN (R247). -/
def execOpenOrder (ring tag : Nat) (cpl lc noCellar grammarEn : Bool) (model grammar evmask deadline ttl cellarAfter params : Nat) (s : State) : Res :=
  .next (guardRing ring 0x01 tag (fun s => forwardEntry ring (cmdWords 0x01 tag cpl lc (model + b2n noCellar * 2 ^ 12 + b2n grammarEn * 2 ^ 13 + grammar * 2 ^ 14 + evmask * 2 ^ 24 + deadline * 2 ^ 40) (ttl + cellarAfter * 2 ^ 32) (params))
    (applyOpen ring tag cpl ⟨model, lc, noCellar, grammarEn, grammar, evmask, deadline, ttl, cellarAfter, params⟩ s)) s)

/-- FEED (R249, R261). -/
def execFeed (ring tag : Nat) (cpl : Bool) (order gen list count maxNew : Nat) (isMatch : Bool) (scan : Nat) (s : State) : Res :=
  .next (guardRing ring 0x02 tag (fun s => forwardEntry ring (cmdWords 0x02 tag cpl false (order + gen * 2 ^ 16) (list) (count + maxNew * 2 ^ 21 + b2n isMatch * 2 ^ 42))
    (applyFeed ring tag cpl order gen list count maxNew isMatch scan s)) s)

/-- STOP (R244). -/
def execStop (ring tag : Nat) (cpl : Bool) (order gen : Nat) (s : State) : Res := .next (guardRing ring 0x03 tag (fun s => forwardEntry ring (cmdWords 0x03 tag cpl false (order + gen * 2 ^ 16) (0) (0))
    (applyStop ring tag cpl order gen s)) s)

/-- TRUNCATE (R220). -/
def execTruncate (ring tag : Nat) (cpl : Bool) (order gen length : Nat) (s : State) : Res :=
  .next (guardRing ring 0x04 tag (fun s => forwardEntry ring (cmdWords 0x04 tag cpl false (order + gen * 2 ^ 16) (length) (0))
    (applyTruncate ring tag cpl order gen length s)) s)

/-- CELLAR (R251). -/
def execCellar (ring tag : Nat) (cpl : Bool) (order gen : Nat) (s : State) : Res := .next (guardRing ring 0x05 tag (fun s => forwardEntry ring (cmdWords 0x05 tag cpl false (order + gen * 2 ^ 16) (0) (0))
    (applyCellar ring tag cpl order gen s)) s)

/-- RECALL (R256). -/
def execRecall (ring tag : Nat) (cpl : Bool) (order gen : Nat) (s : State) : Res := .next (guardRing ring 0x06 tag (fun s => forwardEntry ring (cmdWords 0x06 tag cpl false (order + gen * 2 ^ 16) (0) (0))
    (applyRecall ring tag cpl order gen s)) s)

/-- SET_TTL (R244). -/
def execSetTtl (ring tag : Nat) (cpl : Bool) (order gen seconds scan : Nat) (s : State) : Res :=
  .next (guardRing ring 0x07 tag (fun s => forwardEntry ring (cmdWords 0x07 tag cpl false (order + gen * 2 ^ 16) (seconds) (0))
    (applySetTtl ring tag cpl order gen seconds scan s)) s)

/-- STORE_PREFIX (R260). -/
def execStorePrefix (ring tag : Nat) (cpl : Bool) (order gen list pages : Nat) (s : State) : Res :=
  .next (guardRing ring 0x08 tag (fun s => forwardEntry ring (cmdWords 0x08 tag cpl false (order + gen * 2 ^ 16) (list) (pages))
    (applyStorePrefix ring tag cpl order gen list pages s)) s)

/-- DROP_PREFIXES (R244). -/
def execDropPrefixes (ring tag : Nat) (cpl : Bool) (model : Nat) (s : State) : Res := .next (guardRing ring 0x09 tag (applyDropPrefixes ring tag cpl model) s)

/-- QUERY (R244). -/
def execQuery (ring tag : Nat) (cpl : Bool) (order gen : Nat) (s : State) : Res := .next (guardRing ring 0x0A tag (applyQuery ring tag cpl order gen) s)

/-- CLOSE (R263). -/
def execClose (ring tag : Nat) (cpl : Bool) (order gen : Nat) (s : State) : Res := .next (guardRing ring 0x0B tag (fun s => forwardEntry ring (cmdWords 0x0B tag cpl false (order + gen * 2 ^ 16) (0) (0))
    (applyClose ring tag cpl order gen s)) s)

/-- FORCE_CLOSE (R244). -/
def execForceClose (tag order : Nat) (s : State) : Res := .next (applyForceClose tag order s)

/-- Mark an order's copy as complete: it waits for the commit of a boundary. -/
def copyDone (order : Nat) (s : State) : State :=
  modOrder order (fun r => { r with copy := r.copy.map (fun c => { c with done := true }) }) s

/-- Is a copy of a kind running for an order, with every tile of it admitted (R325)? -/
def copyRuns (s : State) (order kind : Nat) : Bool :=
  ((orderOf s order).copy.map (fun c => c.kind == kind && !c.done && c.failed == 0)).getD false
  && !s.sched.cands.any (fun c => decide (c.kind = .copy ∧ c.idx = kind ∧ (c.order.map Prod.fst) = some order))

/-- CELLARING_COPY_DONE (R254): every unit is written and acknowledged; the next boundary commits. -/
def execCellaringCopyDone (order : Nat) (s : State) : Res :=
  if (orderOf s order).state = 5 ∧ copyRuns s order 0 then
    .next (countUnits 0x1200108 0x600130 (((orderOf s order).copy.map (fun c => c.units)).getD []) (copyDone order s))
  else .next s

/-- CELLAR_WRITE_ERROR (R255): the cellaring aborts at the next boundary. -/
def execCellarWriteError (order : Nat) (s : State) : Res :=
  if (orderOf s order).state = 5 then
    .next (modOrder order (fun r => { r with copy := r.copy.map (fun c => { c with failed := 1 }) }) s)
  else .next s

/-- RECALL_COPY_DONE (R256): the last frame is decrypted, checked and written whole. -/
def execRecallCopyDone (order : Nat) (s : State) : Res :=
  if (orderOf s order).state = 7 ∧ copyRuns s order 1 then
    .next (countUnits 0x1200100 0x600138 (((orderOf s order).image.map (fun i => i.units)).getD []) (copyDone order (restoreFrames order s)))
  else .next s

/-- CELLAR_UNIT_READ (R257): a unit that returns as poison (3) or with a failed frame CRC (4) stops the recall; a sound one changes
nothing yet. FAR_POISON is counted and logged (R477, Table 18.7). -/
def execCellarUnitRead (order unit failure : Nat) (s : State) : Res :=
  let r := orderOf s order
  let running := r.state == 7 && (r.copy.map (fun c => c.failed == 0 && !c.done)).getD false
  if running ∧ (failure = 3 ∨ failure = 4) then
    let s1 := modOrder order (fun r => { r with copy := r.copy.map (fun c => { c with failed := failure }) }) s
    let u := ((r.image.bind (fun i => i.units[unit]?))).getD (0, 0)
    if failure = 3 then
      .next (rasLog 0x10 2 (unitWord 7 u.1 0) (u.1 + u.2 * 4) 0 (ownerWord (some r.tenant) (some order) 0) (order + r.gen * 65536)
        (bump (0x1200110 + 0x20 * u.1) 1 s1))
    else .next s1
  else .next s

/-- RECALL_WAIT_EXPIRY (R257). -/
def execRecallWaitExpiry (order : Nat) (s : State) : Res := .next (refuseRecall order s)

/-- TTL_EXPIRY (R258). -/
def execTtlExpiry (order : Nat) (s : State) : Res := .next (expireOrder order s)

/-- CELLAR_AFTER_EXPIRY (R250). -/
def execCellarAfterExpiry (order : Nat) (s : State) : Res := .next (idleCandidate order s)

/-- DEADLINE_MISS (R250). -/
def execDeadlineMiss (order : Nat) (s : State) : Res := .next (missDeadline order s)

/-- ATTACH_COPY_DONE (R261): every matched node frame is in the order; the next boundary writes ATTACHED. -/
def execAttachCopyDone (order : Nat) (s : State) : Res :=
  match (orderOf s order).copy, orderKv s order with
  | some c, some kv =>
    if copyRuns s order 2 ∧ ((orderOf s order).step.map (fun x => x.admitted)).getD false = true then
      .next (copyDone order (attachFrames order c.nodes kv s))
    else .next s
  | _, _ => .next s

/-- PREFIX_STORE_COPY_DONE (R260): the order's pages are in the new nodes; the next boundary writes PREFIX_STORED. -/
def execPrefixStoreCopyDone (order : Nat) (s : State) : Res :=
  match (orderOf s order).copy, orderKv s order with
  | some c, some kv =>
    if copyRuns s order 3 then .next (copyDone order (prefixFrames order c.nodes (c.total - c.nodes.length) kv s))
    else .next s
  | _, _ => .next s

end Sys2Proof.Machine
end

