-- ==== Sys2Proof/Machine/Select.lean ====
section
/-! DEFINITION. The selection pipeline (R271 to R275) and the rows of chapter 11: deliveries, selections, masks and a failed
selector. -/

namespace Sys2Proof.Machine

/-! ### FP32 arithmetic of the selector -/

/-- Quotient rounded to FP32, saturating and flushed: 60 quotient bits with a sticky bit, then one rounding. Division of an
infinity keeps it; the divisor is a nonzero finite number here. -/
def divF32 (a b : FVal) : Nat :=
  match a, b with
  | .fin n m e, .fin k p d =>
    if p = 0 then encodeFloat .fp32 .rne false true (.inf (n != k))
    else
      let sh := Nat.log2 p + 60
      let q := m * 2 ^ sh / p
      let st := if m * 2 ^ sh % p = 0 then 0 else 1
      encodeFloat .fp32 .rne false true (.fin (n != k) (2 * q + st) (e - d - sh - 1))
  | .inf n, .fin k _ _ => signCode .fp32 (n != k) + infCode .fp32
  | _, _ => nanCode .fp32

/-- Product rounded to FP32, saturating when finite, flushed. -/
def mulSatF32 (a b : FVal) : Nat := encodeFloat .fp32 .rne false true (mulV a b)

/-- Sum of FP32 codes in list order. -/
def selSumF32 (l : List Nat) : Nat := l.foldl (fun a c => toF32Flush (addV (ofF32 a) (ofF32 c))) 0

/-- Is one FP32 code's value less than another's? -/
def ltF32 (a b : Nat) : Bool := ltV (ofF32 a) (ofF32 b)

/-- −infinity. -/
def negInf : Nat := 0xFF800000

/-! ### The pipeline (R271) -/

/-- Step 1: a NaN logit reads as −infinity, +infinity as the largest finite value. -/
def readLogit (c : Nat) : Nat :=
  match ofF32 c with
  | .nan => negInf
  | .inf false => maxCode .fp32
  | _ => c

/-- Does step 1 count the logit? -/
def badLogit (c : Nat) : Bool :=
  match ofF32 c with
  | .nan => true
  | .inf false => true
  | _ => false

/-- Step 3 on one logit: divided by the penalty when above 0, multiplied otherwise. -/
def penalise (theta z : Nat) : Nat :=
  if ltF32 0 z then divF32 (ofF32 z) (ofF32 theta) else mulSatF32 (ofF32 z) (ofF32 theta)

/-- Insert into a list sorted by value, largest first, a lower ID first among equals. -/
def insertTok (x : Nat × Nat) : List (Nat × Nat) → List (Nat × Nat)
  | [] => [x]
  | y :: t => if ltF32 y.2 x.2 ∨ (ltF32 x.2 y.2 = false ∧ x.1 < y.1) then x :: y :: t else y :: insertTok x t

/-- Tokens sorted by value, largest first. -/
def sortToks (l : List (Nat × Nat)) : List (Nat × Nat) := l.foldr insertTok []

/-- Step 7's weight of a logit below the largest. -/
def weightOf (z zmax : Nat) : Nat :=
  let d := toF32Flush (addV (ofF32 z) (negV (ofF32 zmax)))
  if d % 2 ^ 31 = 0 then 0x3F800000 else expOp 0 true d

/-- The shortest leading run whose running sum reaches a threshold; none when no run does. -/
def leadingRun (thr : Nat) : Nat → List (Nat × Nat) → List (Nat × Nat) → Option (List (Nat × Nat))
  | _, acc, [] => if acc.isEmpty then some [] else none
  | sum, acc, x :: t =>
    let s1 := toF32Flush (addV (ofF32 sum) (ofF32 x.2))
    if ltF32 s1 thr then leadingRun thr s1 (acc ++ [x]) t else some (acc ++ [x])

/-- Step 9 (R272): the kept tokens in ascending ID order, and whether the 1,024 limit clipped them. -/
def topPKeep (topP : Nat) (l : List (Nat × Nat)) : List (Nat × Nat) × Bool :=
  if topP = 0x3F800000 then (l, false)
  else
    let thr := toF32Flush (mulV (ofF32 topP) (ofF32 (selSumF32 (l.map Prod.snd))))
    let sorted := sortToks l
    let head := sorted.take 1024
    match leadingRun thr 0 [] head with
    | some run => (l.filter (fun x => run.contains x), false)
    | none => (l.filter (fun x => head.contains x), decide (l.length > 1024))

/-- The draw: the first token in ascending ID order whose running sum exceeds the target, else the last. -/
def drawTok (target : Nat) : Nat → List (Nat × Nat) → Nat
  | _, [] => 0
  | _, [x] => x.1
  | sum, x :: y :: t =>
    let s1 := toF32Flush (addV (ofF32 sum) (ofF32 x.2))
    if ltF32 target s1 then x.1 else drawTok target s1 (y :: t)

/-- u of R275: the generator's word at the position, as an FP32 code. -/
def drawU (seed pos : Nat) : Nat := toF32Flush (.fin false (philoxX0 seed pos 0 2 0 / 256) (-24))

/-- What a selection answers. -/
structure SelRes where
  tok : Nat
  /-- R273 applied; top-p clipped. -/
  allInf : Bool
  clip : Bool
deriving DecidableEq, Repr

/-- The pipeline of R271 on the row's codes, for a nonempty ascending list of allowed tokens; `pen` are the tokens of the penalty
window. -/
def selectTok (code : Nat → Nat) (allowed : List Nat) (p : SelParams) (pen : List Nat) (pos : Nat) : SelRes :=
  let z3 := allowed.map (fun t =>
    let z := readLogit (code t)
    (t, if pen.contains t then penalise p.repPen z else z))
  if z3.all (fun x => decide (x.2 = negInf)) then ⟨allowed.headD 0, true, false⟩
  else if p.temp % 2 ^ 31 = 0 then ⟨((sortToks z3).headD (0, 0)).1, false, false⟩
  else
    let z5 := z3.map (fun x => (x.1, divF32 (ofF32 x.2) (ofF32 p.temp)))
    let z6 := if p.topK = 0 then z5 else
      let keep := (sortToks z5).take p.topK
      z5.filter (fun x => keep.contains x)
    let zmax := ((sortToks z6).headD (0, negInf)).2
    let w7 := (z6.map (fun x => (x.1, weightOf x.2 zmax))).filter (fun x => decide (x.2 ≠ 0))
    let w8 := w7.filter (fun x => !ltF32 x.2 p.minP)
    let (w9, clip) := topPKeep p.topP w8
    let target := toF32Flush (mulV (ofF32 (drawU p.seed pos)) (ofF32 (selSumF32 (w9.map Prod.snd))))
    ⟨drawTok target 0 w9, false, clip⟩

/-! ### One selection (R271, R273, R286, R287) -/

/-- The penalty window: tokens of the history at positions max(0, n − REP_WIN) to n − 1. -/
def penaltyToks (r : OrderRec) : List Nat :=
  ((r.history.filter (fun h => decide (r.n - r.params.repWin ≤ h.1 ∧ h.1 < r.n))).map Prod.snd).eraseDups

/-- The first of GRAMMAR, STOP_TOKEN, MAX_NEW, CONTEXT and STOP that a selection met (R286). -/
def endReason (s : State) (o tok : Nat) : Option Nat :=
  let r := orderOf s o
  let accept := r.grammarEn && ((grammarOf s r.grammar).map (fun g => autEnd g r.autState r.autStack)).getD false
  if accept then some 2
  else if r.params.stops.contains tok then some 3
  else if r.made ≥ r.maxNew then some 4
  else if r.n ≥ orderLimit s o then some 6
  else if r.stopAsked then some 5 else none

/-- Release an order's row, mask and place in its selector. -/
def releaseRow (q o : Nat) (s : State) : State :=
  modSel q (fun x => { x with rows := x.rows.filter (fun r => decide (r.order ≠ o)), ready := x.ready.filter (fun k => decide (k ≠ o))
                              masks := x.masks.filter (fun m => decide (m.1 ≠ o)) }) s

/-- Record a selected token: PENDING, history at n, the automaton's move, the token report, the end, the next mask. -/
def takeToken (o tok : Nat) (s : State) : State :=
  let r := orderOf s o
  let aut := match if r.grammarEn then grammarOf s r.grammar else none with
    | some g => autStep g r.autState r.autStack tok
    | none => (r.autState, r.autStack)
  let s1 := modOrder o (fun r => { r with
    pendingTok := tok, pendValid := true, generated := (r.generated + 1) % 2 ^ 32, made := r.made + 1
    history := ((r.n, tok) :: r.history).take 4096
    unrepAt := if r.unreported.isEmpty then r.n else r.unrepAt, unreported := r.unreported ++ [tok]
    autState := aut.1, autStack := aut.2, step := r.step.map (fun x => { x with selected := true }) }) s
  let e := endReason s1 o tok
  let g := orderGroup s o
  let s1 := if g ≠ 0 ∧ memberIndex s g = 0 then groupTell g [4, o, r.gen, tok] s1 else s1
  let s2 := modOrder o (fun r => { r with genEnd := e }) s1
  let s3 := if e.isSome ∨ (orderOf s2 o).unreported.length ≥ r.params.batch then reportTokens o s2 else s2
  if e.isSome then s3 else queueMask o s3

/-- The selection on an order's complete row with its mask (none: every token). -/
def selectOrder (q o : Nat) (mask : Option (List Nat)) (s : State) : State :=
  let r := orderOf s o
  match (selOf s q).rows.find? (fun x => decide (x.order = o)) with
  | none => s
  | some row =>
    let code := fun t => tget 0 row.vals t - 1
    let bad := ((List.range (orderVocab s o)).filter (fun t => badLogit (code t))).length
    let s1 := bump (tsl 0x120) bad (releaseRow q o s)
    let allowed := mask.getD (List.range (orderVocab s o))
    if allowed.isEmpty then
      bump (tsl 0x118) 1 (reportTokens o (modOrder o (fun r => { r with
        pendValid := false, genEnd := some 8, step := r.step.map (fun x => { x with selected := true }) }) s1))
    else
      let res := selectTok code allowed r.params (if r.params.repWin = 0 then [] else penaltyToks r) r.n
      let s2 := if res.allInf then bump (tsl 0x120) 1 s1 else s1
      let s3 := if res.clip then bump (tsl 0x130) 1 s2 else s2
      takeToken o res.tok (bumpTenant (some r.tenant) 0 1 (bump (tsl 0x100) 1 s3))

/-! ### Masks (R277, R280, R283, R284) -/

/-- Round up to 64. -/
def pad64 (n : Nat) : Nat := (n + 63) / 64 * 64

/-- Byte ranges of a grammar image that a mask in a state reads: the class map, the state's entry, its transitions (Table 11.3). -/
def maskReads (g : GrammarRec) (st : Nat) : List (Nat × Nat) :=
  let cls := 64
  let sts := cls + pad64 (2 * g.vocab)
  let trs := sts + pad64 (8 * g.states.length)
  [(cls, 2 * g.vocab), (sts + 8 * st, 8), (trs + 16 * (g.firsts[st]?).getD 0, 16 * (((g.states[st]?).map Prod.fst).getD []).length)]

/-- The stack sectors of byte ranges of a grammar image. -/
def imageSectors (s : State) (g : GrammarRec) (l : List (Nat × Nat)) : List Nat :=
  (l.flatMap (fun p => if p.2 = 0 then [] else (List.range ((p.1 + p.2 - 1) / 64 + 1 - p.1 / 64)).map (fun i => p.1 / 64 + i))).filterMap
    (fun x => ((g.frames[x / 1024]?).bind (granuleKey s)).map (fun k => k * 1024 + x % 1024))

/-- Build the mask of the order at the head of a selector's queue. -/
def buildMask (q : Nat) (s : State) : State :=
  match (selOf s q).maskQueue with
  | [] => s
  | o :: rest =>
    let r := orderOf s o
    let s0 := modSel q (fun x => { x with maskQueue := rest }) s
    let gram := if r.grammarEn then grammarOf s r.grammar else none
    let secs := (gram.map (fun g => imageSectors s g (maskReads g r.autState))).getD []
    let s1 := secs.foldl (fun s k => touchRead k s) s0
    let badG := secs.any (fun k => decide (sectorPoison s k ≠ 0))
    let lst := if r.params.listEn then some (readList s o) else none
    let s1 := if r.params.listEn then readFx (some r.tenant) r.params.list (4 * r.params.listCount) s1 else s1
    let badL := (lst.map (fun l => l.2.2)).getD false
    let s2 := bump (tsl 0x128) ((lst.map (fun l => l.2.1)).getD 0) s1
    if badG || badL then
      let s3 := if badG then { s2 with grammars := tset none s2.grammars r.grammar (gram.map (fun g => { g with state := 4 })) } else s2
      modOrder o (fun r => { r with faultPend := some (r.faultPend.getD (1, 6, 0)) }) s3
    else
      let m1 := gram.map (fun g => grammarMask g r.autState r.autStack)
      let mask := match m1, lst with
        | some a, some l => a.filter (fun t => l.1.contains t)
        | some a, none => a
        | none, some l => l.1
        | none, none => List.range (orderVocab s o)
      bump (tsl 0x138) ((gram.map (fun g => deepTrans g r.autState r.autStack)).getD 0)
        (modSel q (fun x => { x with masks := x.masks ++ [(o, mask)] }) s2)

/-! ### The rows -/

/-- LOGIT_DELIVERY (R268, R269): tokens of V or above do not reach a selector. -/
def execLogitDelivery (order : Nat) (values : List (Nat × Nat)) (poison : Bool) (s : State) : Res :=
  if values.all (fun v => decide (v.1 < orderVocab s order)) then .next (deliverLogits order values poison s) else .next s

/-- HELD_DELIVERY_ACCEPT (R267): the oldest held delivery whose row is claimed or fits now. -/
def execHeldDeliveryAccept (selector : Nat) (s : State) : Res :=
  let x := selOf s selector
  match x.held.findIdx? (fun h => x.rows.any (fun r => decide (r.order = h.order)) || rowFits s selector h.order || !stepSelects (orderOf s h.order)) with
  | none => .next s
  | some i =>
    match x.held[i]? with
    | none => .next s
    | some h =>
      let s1 := modSel selector (fun x => { x with held := x.held.eraseIdx i }) s
      if !stepSelects (orderOf s h.order) then .next (bump (tsl 0x148) 1 s1)
      else if x.rows.any (fun r => decide (r.order = h.order)) then .next (mergeRow selector h.order h.vals h.poison s1)
      else .next (mergeRow selector h.order h.vals h.poison
        (modSel selector (fun x => { x with rows := x.rows ++ [⟨h.order, [], false, false, false⟩] }) s1))

/-- SELECTION (R271, R274, R285): the row that completed first, once its mask is ready; `waited` are the cycles that it waited. -/
def execSelection (selector waited : Nat) (s : State) : Res :=
  let x := selOf s selector
  match x.ready with
  | [] => .next s
  | o :: _ =>
    let row := x.rows.find? (fun r => decide (r.order = o))
    let need := hasMask (orderOf s o)
    let mask := maskOfOrder s selector o
    if x.absent then .next s
    else if (row.map (fun r => r.poison)).getD false then .next (releaseRow selector o s)
    else if need && mask.isNone then .next s
    else
      let late := (row.map (fun r => r.late)).getD false
      let s1 := if late then bump (tsl 0x110) 1 (bump (tsl 0x108) waited s) else s
      .next (selectOrder selector o (if need then mask else none) s1)

/-- MASK_BUILD (R284). -/
def execMaskBuild (selector : Nat) (s : State) : Res := .next (buildMask selector s)

/-- The selections in flight on a selector end: their orders' steps end at the next boundary (R290). -/
def endSelections (q : Nat) (s : State) : State :=
  let os := (selOf s q).rows.map (fun r => r.order)
  let s1 := { s with sched := { s.sched with stepEnds := s.sched.stepEnds ++ os.map (fun o => (o, false)) } }
  modSel q (fun x => { x with rows := [], ready := [], masks := [], held := x.held.filter (fun h => !os.contains h.order) }) s1

/-- SELECTOR_FAIL (R290): selections in flight end, the selector is absent; the next boundary rebinds its orders. -/
def execSelectorFail (selector : Nat) (s : State) : Res :=
  if selector ≥ 4 ∨ (selOf s selector).absent = true then .next s
  else
    let s1 := modSel selector (fun x => { x with absent := true }) (endSelections selector s)
    .next (unitAbsent (unitWord 9 selector 0) 2 s1)

end Sys2Proof.Machine
end

