-- ==== Sys2Proof/Machine/Therm.lean ====
section
/-! DEFINITION. Temperature channels, levels, enforcement and the flash window (chapter 14). -/

namespace Sys2Proof.Machine

/-! ### Readings (R343 to R346, R590) -/

def chanOf (s : State) (c : Nat) : Chan := tget Chan.reset s.therm.chans c

def modChan (c : Nat) (f : Chan → Chan) (s : State) : State :=
  { s with therm := { s.therm with chans := tmod Chan.reset s.therm.chans c f } }

def unitOf (s : State) (u : Nat) : TUnit := tget TUnit.reset s.therm.units u

def modUnit (u : Nat) (f : TUnit → TUnit) (s : State) : State :=
  { s with therm := { s.therm with units := tmod TUnit.reset s.therm.units u f } }

/-- The thermal unit of a channel: stacks 0 to 11, quarters 12 to 15, external channels 16 to 31. -/
def chanUnit (c : Nat) : Nat := if c < 16 then 12 + c / 4 else if c < 40 then (c - 16) / 2 else 16 + (c - 40)

/-- The channels of a unit. -/
def unitChans (u : Nat) : List Nat :=
  if u < 12 then [16 + 2 * u, 17 + 2 * u] else if u < 16 then (List.range 4).map (fun i => 4 * (u - 12) + i) else [40 + (u - 16)]

/-- Limit L of a unit, in eighths of a degree (Table 14.2). -/
def unitLimit (s : State) (u : Nat) : Int :=
  if u < 12 then 95 * 8 else if u < 16 then 105 * 8
  else
    let i := u - 16
    ((inForce s (if i < 8 then 0x400008 else 0x400010) / 2 ^ (8 * (i % 8)) % 256 : Nat) : Int) * 8

def warnAt (s : State) (u : Nat) : Int := unitLimit s u - 80
def slowAt (s : State) (u : Nat) : Int := unitLimit s u - 40
def targetAt (s : State) (u : Nat) : Int := unitLimit s u - 96

/-- The reading that a channel gives (Table 14.3, R590): 0x7FFF on a wire fault, L + 1 °C on a converter fault. -/
def chanReading (s : State) (c : Nat) : Nat :=
  match (chanOf s c).state with
  | 1 => 0x7FFF
  | 2 => codeOf 16 (unitLimit s (chanUnit c) + 8)
  | _ => (chanOf s c).reading

/-- Is a channel enabled (Table 14.1)? -/
def chanEnabled (s : State) (c : Nat) : Bool := decide (c < 40) || (decide (c < 56) && bitOf (inForce s 0x400000) (16 + (c - 40)))

/-- The temperature of a unit, in eighths of a degree (R344). -/
def unitTemp (s : State) (u : Nat) : Int :=
  (unitChans u).foldl (fun m c => max m (signedOf 16 (chanReading s c))) (-32768)

/-- The UNIT word of a thermal unit. -/
def thermUnitWord (u : Nat) : Nat :=
  if u < 12 then unitWord 4 u 0 else if u < 16 then unitWord 1 (u - 12) 0 else unitWord 10 (40 + (u - 16)) 0

/-- The level of a unit as THM_CHAN shows it. -/
def unitLevel (s : State) (u : Nat) : Nat :=
  let x := unitOf s u
  if s.therm.tripLatch then 4 else if x.enforcing then 3 else if x.slow then 2 else if x.warn then 1 else 0

/-- A THERMAL event (R362): unit, reading, level and one more word. -/
def thermEvent (kind u : Nat) (more : List Nat) (s : State) : State :=
  emitOp 0x06 kind 0 ([thermUnitWord u, codeOf 16 (unitTemp s u), unitLevel s u] ++ more) s

/-! ### Levels (R345, R353) -/

/-- Move the warning level by the latest sample. -/
def moveWarn (u : Nat) (s : State) : State :=
  let x := unitOf s u
  let t := unitTemp s u
  if !x.warn && decide (t ≥ warnAt s u) then bump 0x400100 1 (thermEvent 0x01 u [] (modUnit u (fun x => { x with warn := true }) s))
  else if x.warn && decide (t < warnAt s u - 16) then thermEvent 0x02 u [] (modUnit u (fun x => { x with warn := false }) s)
  else s

/-- Move the slow-down level: a request with its deadline, or 0 while the unit enforces. -/
def moveSlow (u : Nat) (s : State) : State :=
  let x := unitOf s u
  let t := unitTemp s u
  if !x.slow && decide (t ≥ slowAt s u) then
    if x.enforcing then thermEvent 0x03 u [0] (modUnit u (fun x => { x with slow := true }) s)
    else
      let d := nowMs s + forceField s 0x400000 7 0
      bump 0x400108 1 (thermEvent 0x03 u [d] (modUnit u (fun x => { x with slow := true, deadline := some d }) s))
  else if x.slow && decide (t < slowAt s u - 16) then
    thermEvent 0x04 u [] (modUnit u (fun x => { x with slow := false, deadline := none, opened := false }) s)
  else s

/-- Levels and the decrease flag after a sample of a unit's channel. -/
def moveLevels (u : Nat) (s : State) : State :=
  let s1 := if unitTemp s u < warnAt s u then modUnit u (fun x => { x with cool := true }) s else s
  moveSlow u (moveWarn u s1)

/-- The sampling rate that a reading sets (R346). -/
def sampleRate (s : State) (c : Nat) : Nat :=
  let t := signedOf 16 (chanReading s c)
  let l := unitLimit s (chanUnit c)
  if t < l - 80 then 0 else if t < l - 24 then 1 else 2

/-- The stack's die temperature and sensor state follow its diodes. -/
def stackTemp (u : Nat) (s : State) : State :=
  if u < 12 then
    let t := unitTemp s u
    modStack u (fun st => { st with temp := (t / 8).toNat, sensorFail := (unitChans u).any (fun c => (chanOf s c).state == 2) }) s
  else s

/-- What every sample does once the channel's reading or state has changed. -/
def afterSample (c : Nat) (s : State) : State :=
  let r := chanReading s c
  let s1 := modChan c (fun x => { x with
    rate := sampleRate s c, peak := if signedOf 16 r > signedOf 16 x.peak then r else x.peak, sampled := s.now }) s
  moveLevels (chanUnit c) (stackTemp (chanUnit c) s1)

/-- A sample of a channel whose checks pass: SENSOR_OK after a failure (R348). A disabled channel is not sampled. -/
def sampleChan (c reading : Nat) (s : State) : State :=
  if !chanEnabled s c || decide (c ≥ 56) then s
  else
    let was := (chanOf s c).state
    let s1 := afterSample c (modChan c (fun x => { x with reading := reading % 65536, state := 0 }) s)
    if was ≠ 0 then emitOp 0x06 0x08 0 [unitWord 10 c 0, reading % 65536, unitLevel s1 (chanUnit c)] s1 else s1

/-- A sample or check that found a failure: 1 wiring, 2 converter; SENSOR_FAIL once for each episode. -/
def failChan (c kind : Nat) (s : State) : State :=
  if !chanEnabled s c || decide (c ≥ 56) then s
  else
    let was := (chanOf s c).state
    let s1 := bump 0x400118 1 (afterSample c (modChan c (fun x => { x with state := kind }) s))
    if was = 0 then emitOp 0x06 0x07 0 [unitWord 10 c 0, chanReading s1 c, unitLevel s1 (chanUnit c)] s1 else s1

/-! ### Enforcement (R353, R354, Table 14.6) -/

/-- The ceiling of a quarter: the lowest of its own and the external channels' enforcements. -/
def quarterCeil (s : State) (q : Nat) : Nat :=
  (List.range 16).foldl (fun m i => min m (unitOf s (16 + i)).ceil) (unitOf s (12 + q)).ceil

/-- The value that a unit's enforcement acts on: a stack's step, or a ceiling. -/
def enforceValue (s : State) (u : Nat) : Nat := if u < 12 then (stackOf s u).step else (unitOf s u).ceil

/-- One increase: k + 1 up to 7, or 100 MHz lower down to 0.6 GHz; the first writes ENFORCED. -/
def increase (u : Nat) (s : State) : State :=
  let said := (unitOf s u).said
  let s1 := if u < 12 then modStack u (fun st => { st with step := min 7 (st.step + 1) }) s
    else modUnit u (fun x => { x with ceil := max 12 (x.ceil - 2) }) s
  let s2 := modUnit u (fun x => { x with
    enforcing := true, said := true, deadline := none, opened := false, lastInc := some (codeOf 16 (unitTemp s u), s.now) }) s1
  if said then s2 else thermEvent 0x05 u [enforceValue s2 u] s2

/-- One decrease: k − 1, or 50 MHz higher; RELEASED at step 0 or 2.2 GHz ends the enforcement. -/
def decrease (u : Nat) (s : State) : State :=
  let s1 := if u < 12 then modStack u (fun st => { st with step := st.step - 1 }) s
    else modUnit u (fun x => { x with ceil := min 44 (x.ceil + 1) }) s
  let isOver := if u < 12 then (stackOf s1 u).step == 0 else (unitOf s1 u).ceil == 44
  if isOver then
    let s2 := modUnit u (fun x => { x with enforcing := false, said := false, lastInc := none }) s1
    thermEvent 0x06 u [enforceValue s2 u] s2
  else s1

/-- May an increase apply now: the sample at or above the threshold, not below that of the last increase, 1 ms since it? -/
def mayIncrease (s : State) (u : Nat) : Bool :=
  let t := unitTemp s u
  decide (t ≥ slowAt s u) && (match (unitOf s u).lastInc with
    | none => true
    | some (r, at_) => decide (signedOf 16 r ≤ t ∧ at_ + 1000000 ≤ s.now))

/-- The end of a grace time at a boundary: enforcement, or the request stays open (R353). -/
def graceEnds (u : Nat) (s : State) : State :=
  match (unitOf s u).deadline with
  | none => s
  | some d =>
    if d ≤ nowMs s then
      (if unitTemp s u ≥ slowAt s u then increase u s else modUnit u (fun x => { x with deadline := none, opened := true }) s)
    else s

/-- A unit's enforcement at a boundary; the latest sample decides. -/
def enforceUnit (u : Nat) (s : State) : State :=
  let x := unitOf s u
  let s1 :=
    if x.enforcing then
      if unitTemp s u ≥ slowAt s u then (if mayIncrease s u then increase u s else s)
      else if x.cool then decrease u s else s
    else if x.opened && decide (unitTemp s u ≥ slowAt s u) then increase u s
    else graceEnds u s
  modUnit u (fun x => { x with cool := false }) s1

/-- Every unit's thermal work at step 1 of a boundary. -/
def thermalBoundary (s : State) : State :=
  let s1 := (List.range 32).foldl (fun s u => enforceUnit u s) s
  if (List.range 32).any (fun u => (unitOf s1 u).enforcing) then bump 0x400110 1 s1 else s1

/-- ALERT_N is asserted (low) while any unit is at its slow-down level or enforcing, or an enabled channel has failed (R355). -/
def alertAsserted (s : State) : Bool :=
  (List.range 32).any (fun u => (unitOf s u).slow || (unitOf s u).enforcing)
  || (List.range 56).any (fun c => chanEnabled s c && (chanOf s c).state != 0)

/-! ### The flash window (R358) and the fuse window (R359) -/

/-- Write the held records in order. -/
def flushHeld (s : State) : State :=
  s.therm.held.foldl (fun s h => flashCommit h s) { s with therm := { s.therm with held := [] } }

/-- A sample of the flash die: open from 0 to 85 °C; once closed, it reopens from 2 to 83 °C. -/
def flashSample (reading : Nat) (s : State) : State :=
  let t := signedOf 16 reading
  let ok := if s.therm.flashOpen then decide (0 ≤ t ∧ t ≤ 85 * 8) else decide (16 ≤ t ∧ t ≤ 83 * 8)
  let s1 := { s with therm := { s.therm with flashTemp := reading % 65536, flashOpen := ok } }
  if ok && !s.therm.flashOpen then flushHeld s1 else s1

/-- Is a quarter within its fuse window: coolest diode at 15 °C or more, hottest at 85 °C or less? -/
def fuseOk (s : State) (q : Nat) : Bool :=
  (unitChans (12 + q)).all (fun c => decide (120 ≤ signedOf 16 (chanReading s c) ∧ signedOf 16 (chanReading s c) ≤ 680))

/-! ### The rows -/

/-- THERMAL_SAMPLE (R346). -/
def execThermalSample (channel reading time : Nat) (s : State) : Res := .next (sampleChan channel reading (atTime time s))

/-- GRACE_EXPIRY (R353) of a unit: at the first boundary at or after its deadline. -/
def execGraceExpiry (unit : Nat) (s : State) : Res := .next (if unit < 32 then graceEnds unit s else s)

/-- SENSOR_FAIL (R348): a wire fault, or a converter fault. -/
def execSensorFail (channel : Nat) (wire : Bool) (time : Nat) (s : State) : Res :=
  .next (failChan channel (if wire then 1 else 2) (atTime time s))

/-- FLASH_TEMP_SAMPLE (R358). -/
def execFlashTempSample (reading : Nat) (s : State) : Res := .next (flashSample reading s)

end Sys2Proof.Machine
end

