-- ==== Sys2Proof/Machine/Place.lean ====
section
/-! DEFINITION. The floorwalker (chapter 12): migrations, frame marks, early cellaring and recalls ahead, sides, absent units and
placement events. Its choices that the spec leaves to the policy come with a boundary's operands and are checked here. -/

namespace Sys2Proof.Machine

/-- A field of PLC_CONFIG in force. -/
def plcField (s : State) (hi lo : Nat) : Nat := forceField s 0x500000 hi lo

def modPlc (f : PlcSt → PlcSt) (s : State) : State := { s with sched := { s.sched with plc := f s.sched.plc } }

def mapEnt (s : State) (g : Nat) : Option MapEnt := tget Option.none s.mem.map g

/-- Write a granule's map entry. -/
def setMap (g : Nat) (e : MapEnt) (s : State) : State := { s with mem := { s.mem with map := tset Option.none s.mem.map g (some e) } }

/-- Granules migrating now. -/
def migrating (s : State) : List (Nat × MapEnt) :=
  s.mem.map.filterMap (fun p => p.2.bind (fun e => if e.migrating then some (p.1, e) else none))

/-! ### Migration (R298 to R303) -/

/-- 2^(h/8) from a HEAT, in thousandths: the sectors of the last ledger period (R295). -/
def heatCount (h : Nat) : Nat :=
  if h = 0 then 0 else 2 ^ (h / 8) * ((([1000, 1091, 1189, 1297, 1414, 1542, 1682, 1834] : List Nat)[h % 8]?).getD 1000) / 1000

/-- Power of a granule by its HEAT: interface sectors with one activation per 32, in µW (Table 7.8). -/
def granulePower (s : State) (e : MapEnt) : Nat :=
  heatCount e.heat * (200 + 600 / 32) * 1000 / max 1 (s.sched.ledger * s.sched.period * 10)

/-- R303: with the granules that move to it, stack D and the quarter that carries its shadow stay below their warning thresholds. -/
def projectionOk (s : State) (d : Nat) (e : MapEnt) : Bool :=
  let w : Int := ((((migrating s).filter (fun p => decide (p.2.dest = d))).map (fun p => granulePower s p.2)).sum + granulePower s e : Nat)
  decide (unitTemp s d * 10000000 + 48 * w < warnAt s d * 10000000)
  && decide (unitTemp s (12 + d / 3) * 100000000 + 16 * w < warnAt s (12 + d / 3) * 100000000)

/-- Is a granule's order copying, or its node a copy source (R298)? -/
def inOrderCopy (s : State) (e : MapEnt) (use : FrameUse) : Bool :=
  (match e.order with
    | some o => (orderOf s o).copy.isSome || (orderOf s o).state == 5 || (orderOf s o).state == 7
    | none => false)
  || (match use with | .node n => ((nodeOf s n).map (fun x => decide (x.busy > 0))).getD false | _ => false)

/-- Is it a page frame of an order with a step running? -/
def inRunningStep (s : State) (e : MapEnt) : Bool :=
  match e.order with
  | some o => ((orderOf s o).step.map (fun x => x.admitted)).getD false
  | none => false

/-- May a migration of a granule to a stack start (R298, R303)? -/
def mayMigrate (s : State) (g d : Nat) : Bool :=
  match mapEnt s g with
  | none => false
  | some e =>
    !e.pinned && !e.migrating && decide (d < 12 ∧ d ≠ e.stack) && stackPresent s d && stackPresent s e.stack
    && !inOrderCopy s e (frameOf s (e.stack * 2 ^ 20 + e.frame)).use && !inRunningStep s e
    && decide (plcField s 0 0 = 1) && (match e.model with | some m => decide (forceField s (0x500038 + m * 2 ^ 32) 1 1 = 0) | none => true)
    && decide ((migrating s).length < 65536) && decide ((stackOf s d).step = 0) && decide (freeFrames s d > 0) && projectionOk s d e

/-- Start the migration of a granule that the policy chose: a destination frame of the source's class is taken, the copy becomes a
candidate. A decision against a hint is counted (R306). -/
def startMigration (g d : Nat) (against : Bool) (s : State) : State :=
  if !mayMigrate s g d then s
  else match mapEnt s g, pickFrame s d [] with
    | some e, some f =>
      let s1 := takeFrame (d * 2 ^ 20 + f) e.stateCls (.copyDest g) s
      let s2 := modFrame (d * 2 ^ 20 + f) (fun x => { x with filling := false }) s1
      let s3 := setMap g { e with migrating := true, dest := d, destFrame := f, copied := false } s2
      let s4 := bump 0x500100 1 (if against then bump 0x500140 1 s3 else s3)
      addCopy 4 g none false true none 0 0 [e.stack, d] 65536 (copyEnergy 65536 0) 0 s4
    | _, _ => s

/-- Bytes of a granule's copy: the valid sectors of a state-class frame, the whole of a bulk frame. -/
def migBytes (s : State) (e : MapEnt) : Nat :=
  let k := e.stack * 2 ^ 20 + e.frame
  if e.stateCls then 64 * (s.mem.sector.filter (fun p => decide (p.1 / 1024 = k))).length else 65536

/-- A cause of Table 12.4 that meets the commit of a finished copy: the destination's step above the source's. -/
def commitMigration (g : Nat) (s : State) : State :=
  match mapEnt s g with
  | none => s
  | some e =>
    if !e.migrating || !e.copied then s
    else if (stackOf s e.dest).step > (stackOf s e.stack).step then abortMigration 3 g s
    else
      let src := e.stack * 2 ^ 20 + e.frame
      let dst := e.dest * 2 ^ 20 + e.destFrame
      let use := (frameOf s src).use
      let s1 := copyFrame src dst s
      let s2 := modFrame dst (fun x => { x with use := use, granule := some g })
        (modFrame src (fun x => { x with use := .copyDest g, granule := none }) s1)
      let s3 := setMap g { e with stack := e.dest, frame := e.destFrame, migrating := false, dest := 0, destFrame := 0, copied := false } s2
      bump 0x500108 1 { s3 with mem := { s3.mem with
        heat := tset 0 (tset 0 s3.mem.heat dst (tget 0 s3.mem.heat src)) src 0
        draining := s3.mem.draining ++ [src] } }

/-- Free the source frames whose requests under the old entries have drained (R301). -/
def freeDrained (s : State) : State :=
  s.mem.draining.foldl (fun s k => freeFrame k s) { s with mem := { s.mem with draining := [] } }

/-- Abort the migrations of granules that meet a condition. -/
def abortWhere (cause : Nat) (p : Nat → MapEnt → Bool) (s : State) : State :=
  ((migrating s).filter (fun x => p x.1 x.2)).foldl (fun s x => abortMigration cause x.1 s) s

/-- Abort migrations of an order's granules. -/
def abortOrderMig (cause o : Nat) (s : State) : State := abortWhere cause (fun _ e => decide (e.order = some o)) s

/-- Migrations that MIG_EN or NO_MIGRATE stops (Table 12.4). -/
def abortStopped (s : State) : State :=
  abortWhere 7 (fun _ e => decide (plcField s 0 0 = 0)
    || (match e.model with | some m => decide (forceField s (0x500038 + m * 2 ^ 32) 1 1 = 1) | none => false)) s

/-- MIG_ABORTED: one record for each cause with aborts in the bell. -/
def reportAborts (s : State) : State :=
  modPlc (fun p => { p with aborts := [] }) (s.sched.plc.aborts.foldl (fun s p => emitOp 0x05 0x05 0 [p.2, p.1] s) s)

/-! ### Free frames (R313, R315) -/

/-- FREE_LOW and FREE_HIGH of a stack, in frames. -/
def lowMark (s : State) : Nat := 1048576 * plcField s 23 16 / 1000
def highMark (s : State) : Nat := 1048576 * plcField s 31 24 / 1000

/-- Is a stack below FREE_LOW? -/
def stackLow (s : State) (n : Nat) : Bool := stackPresent s n && decide (freeFrames s n < lowMark s)

/-- SPACE_LOW when a stack falls below FREE_LOW and once per ledger period while it stays there. -/
def reportLow (s : State) : State :=
  (List.range 12).foldl (fun s n =>
    let p := s.sched.plc
    if stackLow s n then
      if p.low.contains n && p.lowSaid.contains n then s
      else emitOp 0x05 0x06 0 [unitWord 4 n 0, freeFrames s n]
        (modPlc (fun p => { p with low := if p.low.contains n then p.low else p.low ++ [n], lowSaid := p.lowSaid ++ [n] }) s)
    else modPlc (fun p => { p with low := p.low.filter (fun x => decide (x ≠ n)) }) s) s

/-- Frames of an order on a stack. -/
def framesOn (s : State) (o n : Nat) : Nat := ((imageFrames s o).filter (fun f => decide (f.2 / 2 ^ 20 = n))).length

/-- Insert by a key, smallest first, earlier ones first among equals. -/
def insertBy (key : Nat → Nat) (x : Nat) : List Nat → List Nat
  | [] => [x]
  | y :: t => if key x < key y then x :: y :: t else y :: insertBy key x t

def sortBy (key : Nat → Nat) (l : List Nat) : List Nat := l.foldl (fun a x => insertBy key x a) []

/-- Early cellaring candidates of a short stack (R313): BE before LC, the longest idle first, then the most frames there; until
their frames lift the stack to FREE_HIGH. -/
def earlyCandidates (n : Nat) (s : State) : State :=
  if !stackLow s n then s
  else
    let ok := fun (o : Nat) => let r := orderOf s o
      decide (r.state = 1 ∨ r.state = 4) && !r.noCellar && !r.cellarAsked && decide (r.idle ≥ plcField s 63 48) && decide (framesOn s o n > 0)
    let key : Nat → Nat := fun o => let r := orderOf s o
      (if r.lc then 2 ^ 64 else 0) + (2 ^ 32 - min r.idle (2 ^ 32 - 1)) * 2 ^ 24 + (2 ^ 24 - 1 - min (framesOn s o n) (2 ^ 24 - 1))
    let os := sortBy key ((s.book.orders.map Prod.fst).filter ok)
    (os.foldl (fun (a : State × Nat) o =>
      if a.2 ≥ highMark s then a
      else (bump 0x500128 1 (modOrder o (fun r => { r with cellarAsked := true }) a.1), a.2 + framesOn s o n)) (s, freeFrames s n)).1

/-- Recalls ahead of use (R313), most recently cellared first, while every stack stays above FREE_HIGH. -/
def recallsAhead (s : State) : State :=
  if plcField s 2 2 = 0 ∨ (List.range 12).any (fun n => stackPresent s n && decide (freeFrames s n ≤ highMark s)) then s
  else
    let key : Nat → Nat := fun o => let r := orderOf s o
      2 ^ 70 - (r.image.map (fun i => i.time)).getD 0
    let os := sortBy key ((s.book.orders.map Prod.fst).filter (fun o => (orderOf s o).state == 6 && !(orderOf s o).recallAsked))
    os.foldl (fun s o =>
      let fs := ((orderOf s o).image.map (fun i => i.frames.length)).getD 0
      if (List.range 12).any (fun n => stackPresent s n && decide (freeFrames s n < highMark s + fs)) then s
      else
        let s1 := tryRecall o s
        if (orderOf s1 o).state = 7 then bump 0x500130 1 s1 else s) s

/-! ### Pins, absent units, shadows (R308, R314, R21) -/

/-- Pinned granules of a stack. -/
def pinnedOn (s : State) (n : Nat) : Nat := (s.mem.map.filter (fun p => (p.2.map (fun e => e.pinned && decide (e.stack = n))).getD false)).length

/-- Does R308 hold on a stack: pinned granules, at or above its slow-down threshold? -/
def pinHot (s : State) (n : Nat) : Bool := stackPresent s n && decide (pinnedOn s n > 0) && decide (unitTemp s n ≥ slowAt s n)

/-- PIN_HOT for stacks with pinned granules at or above their slow-down threshold, at the first bell and once per ledger period. -/
def reportPinHot (s : State) : State :=
  (List.range 12).foldl (fun s n =>
    if pinHot s n then
      let s1 := bump 0x500138 1 s
      if s.sched.plc.hotSaid.contains n then s1
      else emitOp 0x05 0x03 0 [unitWord 4 n 0, pinnedOn s n, (stackOf s n).step] (modPlc (fun p => { p with hotSaid := p.hotSaid ++ [n] }) s1)
    else s) s

/-- The nearest present unit of a kind to an absent one: same quarter first, then the lowest number (R314). -/
def nearestUnit (s : State) (kind n : Nat) : Nat :=
  let ok := fun m => if kind = 2 then shopPresent s m else stackPresent s m
  let all := (List.range (if kind = 2 then 320 else 12)).filter ok
  let q := if kind = 2 then shopQuarter n else stackQuarter n
  ((all.filter (fun m => decide ((if kind = 2 then shopQuarter m else stackQuarter m) = q))).head?.orElse (fun _ => all.head?)).getD 0

/-- Hard pins of a model on an absent unit break: they become hints of weight 15 to a substitute, with PIN_BROKEN (R314). -/
def breakPins (kind n : Nat) (s : State) : State :=
  let sub := nearestUnit s kind n
  s.book.models.foldl (fun s p => match p.2 with
    | none => s
    | some m =>
      let hit := fun (d : DirRec) => d.hard && (if kind = 2 then d.kind == 2 && d.unit == n else d.kind == 0 && d.unit == n)
      let broken := m.directives.zipIdx.filter (fun x => hit x.1)
      if broken.isEmpty then s
      else
        let unpin := fun (w : WorkItem) => if kind = 2 ∧ w.pin = some n then { w with pin := none } else w
        let m1 : ModelRec := { m with
          directives := m.directives.map (fun d => if hit d then { d with hard := false, weight := 15, unit := sub } else d)
          prefill := m.prefill.map unpin, decode := m.decode.map unpin, entries := m.entries.map (fun l => l.map unpin) }
        let s1 := { s with book := { s.book with models := tset none s.book.models p.1 (some m1) } }
        let s2 := if kind = 4 then { s1 with mem := { s1.mem with map := s1.mem.map.map (fun q => (q.1, q.2.map (fun e =>
            if e.stack = n ∧ e.model = some p.1 then { e with pinned := false } else e))) } } else s1
        broken.foldl (fun s x => emitOp 0x05 0x04 0 [p.1, x.2, unitWord kind n 0, unitWord kind sub 0] s) s2) s

/-- From the boundary after a unit is marked absent (R314): UNIT_ROUTED, broken pins, rebound orders. -/
def routeAbsent (s : State) : State :=
  let us := s.sched.plc.absent
  us.foldl (fun s w =>
    let kind := w % 256
    let n := w / 256 % 2 ^ 24
    let s1 := emitOp 0x05 0x07 0 [w] s
    if kind = 2 ∨ kind = 4 then breakPins kind n s1 else s1) (modPlc (fun p => { p with absent := [] }) s)

/-- Rebind the orders of absent selectors that have no row claimed (R290, R311). -/
def rebindOrders (s : State) : State :=
  s.book.orders.foldl (fun s p =>
    let q := p.2.selector
    if p.2.state = 0 ∨ !selDown s q ∨ (selOf s q).rows.any (fun r => decide (r.order = p.1)) then s
    else
      let s1 := forgetSel p.1 s
      let s2 := modOrder p.1 (fun r => { r with selector := bindSelector s1 }) s1
      let held := ((selOf s q).held.filter (fun h => decide (h.order = p.1)))
      let s3 := modSel (orderOf s2 p.1).selector (fun x => { x with held := x.held ++ held }) s2
      if (orderOf s3 p.1).state = 2 ∨ (orderOf s3 p.1).state = 3 then queueMask p.1 s3 else s3) s

/-- SHADOW_CHANGED for the shops that a spare has moved into or out of a shadow (R21). -/
def reportShadows (s : State) : State :=
  let ms := s.sched.plc.moved
  ms.foldl (fun s m =>
    let new := (shopOf s m.1).shadow
    let s1 := if m.2 < 12 then emitOp 0x05 0x01 0 [unitWord 4 m.2 0, 0, unitWord 2 m.1 0] s else s
    if new < 12 then emitOp 0x05 0x01 0 [unitWord 4 new 0, unitWord 2 m.1 0, 0] s1 else s1) (modPlc (fun p => { p with moved := [] }) s)

/-! ### Sides (R309) -/

/-- Does any work of a model's layer run or wait with tiles started? -/
def layerRuns (s : State) (m l : Nat) : Bool :=
  s.sched.cands.any (fun c => decide (c.layer = some (m, l)) && (decide (c.started > 0 ∨ c.admitted > 0) || s.sched.running.any (fun r => decide (r.cand = c.id))))

/-- A layer changes side at a boundary at which none of its work runs: not with SPLIT_EN 0, LOCK_SIDE or a side pin. Cause 0 batch, 1
temperature. -/
def changeSide (m l : Nat) (fullers : Bool) (cause : Nat) (s : State) : State :=
  match modelOf s m with
  | none => s
  | some r =>
    match r.sides.find? (fun x => decide (x.layer = l)) with
    | none => s
    | some x =>
      if x.now = fullers ∨ x.pinned ∨ plcField s 1 1 = 0 ∨ forceField s (0x500038 + m * 2 ^ 32) 0 0 = 1 ∨ layerRuns s m l then s
      else
        let s1 := { s with book := { s.book with models := tset none s.book.models m (some { r with
          sides := r.sides.map (fun y => if y.layer = l then { y with now := fullers } else y) }) } }
        emitOp 0x05 0x02 0 [m, l, if fullers then 0 else 1, cause] (bump 0x500120 1 s1)

/-! ### HEAT (R295) -/

/-- HEAT of a count: the least h with 2^h at or above (c + 1)^8, at most 255. -/
def heatOf (c : Nat) : Nat :=
  let x := (c + 1) ^ 8
  let l := Nat.log2 x
  min 255 (if 2 ^ l = x then l else l + 1)

/-- At a ledger close every count becomes its frame's HEAT and restarts. -/
def closeHeat (s : State) : State :=
  { s with mem := { s.mem with
      map := s.mem.map.map (fun p => (p.1, p.2.map (fun e => { e with heat := heatOf (tget 0 s.mem.heat (e.stack * 2 ^ 20 + e.frame)) })))
      heat := [] } }

/-! ### The row -/

/-- MIGRATION_COPY_DONE (R299): the copy and every forwarded write are at the destination; the next boundary commits. -/
def execMigrationCopyDone (granule : Nat) (s : State) : Res :=
  match mapEnt s granule with
  | none => .next s
  | some e =>
    if e.migrating ∧ !e.copied ∧ !s.sched.cands.any (fun c => decide (c.kind = .copy ∧ c.idx = 4 ∧ c.addr = granule)) then
      let s1 := copyFrame (e.stack * 2 ^ 20 + e.frame) (e.dest * 2 ^ 20 + e.destFrame) s
      .next (bump 0x500118 (migBytes s e) (setMap granule { e with copied := true } s1))
    else .next s

end Sys2Proof.Machine
end

