-- ==== Sys2Proof/Machine/Sched.lean ====
section
/-! DEFINITION. The scheduler (chapter 13): entry and admission of candidates, the four passes of a plan, the round robin, clocks, and
admissions during a bell. Energies in pJ, times in ns, powers in mW. -/

namespace Sys2Proof.Machine

/-! ### Times -/

/-- The bell period in force, ns, and the end of the running bell. -/
def bellNs (s : State) : Nat := s.sched.period * 10000
def bellEnd (s : State) : Nat := s.sched.opened + bellNs s

/-- The throttle step of a shop: its shadow's stack's, or 0 (R336). -/
def shopStep (s : State) (n : Nat) : Nat := let k := (shopOf s n).shadow; if k < 12 then (stackOf s k).step else 0

/-- The largest step of a gang. -/
def gangStep (s : State) (g : List Nat) : Nat := g.foldl (fun m n => max m (stackOf s n).step) 0

/-- When a unit is free: after the work admitted to it. -/
def unitFree (s : State) (kind n : Nat) : Nat := max s.now (tget 0 s.sched.freeAt (kind * 512 + n))

/-- R327 for a tile of `c` cycles at step `k` and clock `f` (50 MHz units) on a unit free at a time. -/
def fitsTile (s : State) (c k f free : Nat) : Bool :=
  decide (160 * c ≤ (bellEnd s - free) * (8 - k) * f) && decide (160 * c ≤ 2 * bellNs s * (8 - k) * 12)

/-- Room under a thermal allowance: kinds 1 quarter, 2 shadow, 4 stack. -/
def thermalRoom (s : State) (kind n charge : Nat) : Bool :=
  decide (tget 0 s.sched.used (kind * 512 + n) + charge ≤ tget 0 s.therm.allow (kind * 512 + n))

/-! ### Entering an order step's work (R323) -/

/-- The items of a step whose side is the one in force. -/
def stepItems (s : State) (o : Nat) : List WorkItem :=
  let r := orderOf s o
  match modelOf s r.model with
  | none => []
  | some m => (if r.state = 2 then m.prefill else m.decode).filter (fun w => match w.layer with
    | none => true
    | some (l, f) => match m.sides.find? (fun x => decide (x.layer = l)) with
      | some x => x.now == f
      | none => true)

/-- A candidate of a work item. -/
def itemCand (id : Nat) (w : WorkItem) (tenant : Option Nat) (lc : Bool) (order : Option (Nat × Nat)) (ring tag model job : Nat) : Cand :=
  ⟨id, w.kind, none, tenant, lc, false, order, ring, tag, w.addr, w.idx, w.gang, w.quarter, w.pin, none, w.total, 0, 0, w.energy, w.cycles, 0, none,
   w.layer.map (fun l => (model, l.1)), job⟩

/-- Enter work items as candidates, in order. -/
def enterItems (ws : List WorkItem) (tenant : Option Nat) (lc : Bool) (order : Option (Nat × Nat)) (ring tag model job : Nat) (s : State) : State :=
  ws.foldl (fun s w => { s with sched := { s.sched with
    cands := s.sched.cands ++ [itemCand s.sched.nextId w tenant lc order ring tag model job], nextId := s.sched.nextId + 1 } }) s

/-- Has the order's step candidates already, its own or those of its batch's lead? -/
def hasCands (s : State) (o : Nat) : Bool :=
  s.sched.cands.any (fun c => match c.order with
    | some (l, _) => decide (l = o) || (((orderOf s l).step.map (fun x => x.batch.contains o)).getD false)
    | none => false)

/-- Steps not admitted and without candidates enter at step 1 of the boundary. -/
def enterSteps (s : State) : State :=
  s.book.orders.foldl (fun s p =>
    let r := orderOf s p.1
    match r.step with
    | some x => if x.admitted || x.attach || hasCands s p.1 then s
        else enterItems (stepItems s p.1) (some r.tenant) r.lc (some (p.1, r.gen)) r.tenant 0 r.model 0 s
    | none => s) s

/-- The bucket edges of R235: 1, then 2, 3, 4, 6, 8, 12, ... up to a page count. -/
def bucketOf (pages : Nat) : Nat :=
  if pages ≤ 1 then 0
  else let l := Nat.log2 pages; if 2 * pages ≥ 3 * 2 ^ l then 2 * l else 2 * l - 1

/-- Dispatch the unadmitted steps of some orders as one dense batch of the first (R233, R235): at most 63 orders of one model and class,
decoding, in one bucket of page counts. -/
def formBatch (os : List Nat) (s : State) : State :=
  match os with
  | [] => s
  | lead :: _ =>
    let r0 := orderOf s lead
    let b0 := bucketOf (cdiv ((r0.step.map (fun x => x.e)).getD 0) 256)
    let ok := fun (o : Nat) => let r := orderOf s o
      decide (r.state = 3 ∧ r.model = r0.model ∧ r.lc = r0.lc)
      && (r.step.map (fun x => !x.admitted && decide (bucketOf (cdiv x.e 256) = b0))).getD false
    if os.length ≤ 63 ∧ os.all ok ∧ os.eraseDups = os then
      let s1 := (os.drop 1).foldl (fun s o => dropCands o s) s
      modOrder lead (fun r => { r with step := r.step.map (fun x => { x with batch := os }) }) s1
    else s

/-! ### First admission of a step or a job (R218, R219, R588) -/

/-- The lowest free context tag. -/
def freeTag (s : State) : Option Nat :=
  (List.range (min 65536 (s.sched.ctxs.length + 1))).find? (fun t => (tget none s.sched.ctxs t).isNone)

/-- Admit one order's step under a tag: the reservation, then n = E; migrations of its frames abort. False when it is refused. -/
def admitOrder (tag o : Nat) (s : State) : State × Bool :=
  let r := orderOf s o
  match r.step with
  | none => (s, false)
  | some x =>
    match reserveKv o x.t0 x.e s with
    | (s1, some c) => (stepRefused o c.1 c.2 s1, false)
    | (s1, none) =>
      let r1 := orderOf s1 o
      let new := (r1.pages.filter (fun p => decide (tget 0 r.pages p.1 = 0))).map (fun p => p.2 - 1)
        ++ (r1.blocks.filter (fun p => decide (tget 0 r.blocks p.1 = 0))).map (fun p => p.2 - 1)
      (abortOrderMig 1 o (modOrder o (fun r => { r with
        n := x.e, step := r.step.map (fun x => { x with admitted := true, ctx := tag, bell := s.bell, took := new }) }) s1), true)

/-- Would the reservation of every order of a batch succeed now? -/
def reserveOk (s : State) (o : Nat) : Bool :=
  match (orderOf s o).step with
  | none => false
  | some x => (reserveKv o x.t0 x.e s).2.isNone

/-- Give a candidate's job or step its tag at its first admission. In the middle of a bell a step whose reservation fails stays a
candidate, so that the next boundary refuses it. False when it cannot be admitted. -/
def takeContext (c : Cand) (atBoundary : Bool) (s : State) : State × Bool :=
  if c.ctx.isSome || (c.kind == .copy && decide (c.idx ≠ 2)) then (s, true)
  else match freeTag s with
    | none => (s, false)
    | some t =>
      match c.order with
      | none =>
        let same := fun (k : Cand) => decide (k.job = c.job) && k.order.isNone && k.kind != .copy && k.ctx.isNone
        ({ s with jobs := { s.jobs with jobs := s.jobs.jobs.map (fun j => if j.id = c.job then { j with ctx := some t } else j) }, sched := { s.sched with
          ctxs := tset none s.sched.ctxs t (some ⟨c.tenant, c.lc, none, c.ring, c.tag, s.bell, none, false, []⟩)
          cands := s.sched.cands.map (fun k => if same k then { k with ctx := some t } else k) } }, true)
      | some (lead, _) =>
        let batch := (((orderOf s lead).step.map (fun x => x.batch)).getD [lead])
        if !atBoundary && !batch.all (reserveOk s) then (s, false)
        else
          let res := batch.foldl (fun (a : State × List Nat) o =>
            let (s1, ok) := admitOrder t o a.1
            (s1, if ok then a.2 ++ [o] else a.2)) (s, [])
          match res.2 with
          | [] => ({ res.1 with sched := { res.1.sched with cands := res.1.sched.cands.filter (fun k => decide (k.id ≠ c.id) && !decide (k.order = c.order ∧ k.kind ≠ .copy)) } }, false)
          | o :: _ =>
            let gen := (orderOf res.1 o).gen
            let own := fun (k : Cand) => decide (k.order = c.order) && (k.kind != .copy || decide (k.idx = 2))
            -- a refused lead takes its candidates with it: those of the batch carry on under the first order admitted
            let back := (s.sched.cands.filter (fun k => own k && !res.1.sched.cands.any (fun q => decide (q.id = k.id))))
            ({ res.1 with sched := { res.1.sched with
              ctxs := tset none res.1.sched.ctxs t (some ⟨c.tenant, c.lc, some (o, gen), c.ring, c.tag, s.bell, none, false, res.2⟩)
              cands := (back ++ res.1.sched.cands).map (fun k => if own k then { k with ctx := some t, order := some (o, gen) } else k) } }, true)

/-! ### One admission (R327, R330) -/

/-- The shops that a tile may run on (R306, R310): its sheet's or list's own once chosen, a pin's, or all present. -/
def shopSet (s : State) (c : Cand) : List Nat :=
  let ok := fun (n : Nat) => shopPresent s n && !resetAsked s 0 n && !resetAsked s 1 (shopQuarter n)
  let all := (List.range 320).filter ok
  match c.shop with
  | some n => if ok n then [n] else []
  | none => match c.pin with
    | some p => if p < 320 then (if ok p then [p] else if (shopOf s p).state = 1 then all else []) else all.filter (fun n => decide (shopQuarter n = p - 0x3F0))
    | none => all

/-- The order of R310 as a key: quarter, shadow and its step, array occupancy of the last bell, number. -/
def shopRank (s : State) (c : Cand) (n : Nat) : Nat :=
  let q := shopQuarter n
  let near := if q = c.quarter then 0 else if q + c.quarter = 3 then 2 else 1
  let k := (shopOf s n).shadow
  let shade := if k < 12 then 1 + (stackOf s k).step else 0
  ((near * 16 + shade) * 2 ^ 40 + min (tget 0 s.regs.bcopy ((2 * 512 + n) * 4)) (2 ^ 40 - 1)) * 512 + n

/-- What an attempt to admit answers: 0 admitted, 1 the class's allowance, 2 a thermal allowance, 3 unit time or no unit, 4 no tag or a
refused step; with the tile's charge. -/
structure AdmRes where
  s : State
  code : Nat
  charge : Nat

/-- Account one admitted tile: class counters, tenant, thermal use, charges. -/
def accountTile (c : Cand) (charge : Nat) (uses : List (Nat × Nat)) (s : State) : State :=
  let s1 := if c.lc then bumpTenant c.tenant 3 1 (bump 0x100100 1 s) else bumpTenant c.tenant 4 1 (bump 0x100108 1 s)
  let s2 := bumpTenant c.tenant 5 charge s1
  let s3 := uses.foldl (fun s u => { s with sched := { s.sched with used := tset 0 s.sched.used (u.1 * 512 + u.2) (tget 0 s.sched.used (u.1 * 512 + u.2) + charge) } }) s2
  { s3 with sched := { s3.sched with charged := s3.sched.charged + charge } }

/-- Fill a unit's time. -/
def fillUnit (kind n till : Nat) (s : State) : State :=
  { s with sched := { s.sched with freeAt := tset 0 s.sched.freeAt (kind * 512 + n) till } }

/-- Admit a shop tile to the first shop in R310 order that has the time and the heat for it. -/
def admitShopTile (lim : Nat) (c : Cand) (s : State) : AdmRes :=
  let fit := (shopSet s c).filter (fun n => fitsTile s c.cycles (shopStep s n) (quarterClock s (shopQuarter n)) (unitFree s 0 n))
  let uses := fun (n : Nat) => (1, shopQuarter n) :: (if (shopOf s n).shadow < 12 then [(2, (shopOf s n).shadow)] else [])
  let chg := fun (n : Nat) => chargeOf s c (quarterClock s (shopQuarter n))
  let cool := fit.filter (fun n => (uses n).all (fun u => thermalRoom s u.1 u.2 (chg n)))
  match sortBy (shopRank s c) cool with
  | [] => ⟨s, if fit.isEmpty then 3 else 2, chg 0⟩
  | n :: _ =>
    if chg n > lim then ⟨s, 1, chg n⟩
    else
      let till := unitFree s 0 n + cdiv (160 * c.cycles) (max 1 ((8 - shopStep s n) * quarterClock s (shopQuarter n)))
      let s1 := fillUnit 0 n till (accountTile c (chg n) (uses n) s)
      let mine := fun (k : Cand) => decide (k.id = c.id) || (decide (c.kind = .ticket ∧ k.kind = .ticket ∧ k.addr = c.addr ∧ k.ctx = c.ctx))
      let s2 := { s1 with sched := { s1.sched with cands := s1.sched.cands.map (fun k => if mine k then { k with shop := some n } else k) } }
      ⟨bumpBell 1 (shopQuarter n) 2 1 (bumpBell 1 (shopQuarter n) 3 (chg n) (bumpBell 2 n 3 (chg n)
        (modCand c.id (fun k => { k with admitted := k.admitted + 1, admBell := some (k.admBell.getD s.bell) }) s2))), 0, chg n⟩

/-- Admit an invocation: every stack of its gang must have the time and the heat; its record goes to the command register areas. -/
def admitInvocation (lim : Nat) (c : Cand) (s : State) : AdmRes :=
  let chg := chargeOf s c 40
  let each := c.energy * s.sched.corr / 128
  let free := c.gang.foldl (fun m n => max m (unitFree s 1 n)) s.now
  if !c.gang.all (fun n => stackPresent s n && !resetAsked s 2 n && !resetAsked s 1 (stackQuarter n)) || !fitsTile s c.cycles (gangStep s c.gang) 20 free then
    ⟨s, 3, chg⟩
  else if !c.gang.all (fun n => thermalRoom s 4 n each) then ⟨s, 2, chg⟩
  else if chg > lim then ⟨s, 1, chg⟩
  else
    let till := free + cdiv (8 * c.cycles) (8 - gangStep s c.gang)
    let s1 := c.gang.foldl (fun s n => fillUnit 1 n till s) (accountTile { c with kind := .invocation } 0 [] s)
    let s2 := c.gang.foldl (fun s n => { s with sched := { s.sched with used := tset 0 s.sched.used (4 * 512 + n) (tget 0 s.sched.used (4 * 512 + n) + each) } }) s1
    let s3 := bumpTenant c.tenant 5 chg { s2 with sched := { s2.sched with charged := s2.sched.charged + chg } }
    let s4 := modCand c.id (fun k => { k with admitted := k.admitted + 1, admBell := some (k.admBell.getD s.bell) }) s3
    let placed := s4.fulStacks.any (fun p => p.2.records.any (fun r => decide (r.cand = c.id)))
    ⟨if placed then s4 else placeInvocation ((s4.sched.cands.find? (fun k => decide (k.id = c.id))).getD c) s4, 0, chg⟩

/-- The scheduler reads an admitted collective's record (R415): one that breaks a limit is a TICKET_BAD fault, one whose waits or signals
name a tally of another is a TALLY fault; an accepted one goes to its quarter's collective engine. -/
def placeCollective (c : Cand) (s : State) : State :=
  match c.ctx with
  | none => s
  | some ctx =>
    let (res, s1) := readCtx ctx c.tenant c.addr 128 s
    let w := (List.range 16).map (fun i => leAt res.data (8 * i) 8)
    let q := fun (i : Nat) => (w[i]?).getD 0
    let op := bitsOf (q 0) 2 0
    let fmt := bitsOf (q 0) 8 5
    let g := bitsOf (q 0) 21 10
    let ms := groupMembers s1 g
    let e := bitsOf (q 1) 39 0
    let reducing := decide (op = 0 ∨ op = 1 ∨ op = 4)
    let room := (if op = 1 then (ms.length + 1) * e * 4 else (ms.length + 1) * cdiv e (max 1 ms.length) * 4)
    let stageOk := match resolve s1 c.tenant (q 10), resolve s1 c.tenant (q 10 + (room - 1)) with
      | .warehouse a, .warehouse b => decide ((a - 0x010000000000) / 0x4000000 = bitsOf (q 0) 35 34 ∧ (b - 0x010000000000) / 0x4000000 = bitsOf (q 0) 35 34)
      | _, _ => false
    let ok := decide (op ≤ 4) && decide (bitsOf (q 0) 4 3 ≠ 3) && decide (bitsOf (q 0) 63 52 = 0) && decide (e ≠ 0) && decide (g ≠ 0)
      && !ms.isEmpty && ms.contains (ownDevice s1) && (codeFmt fmt).isSome
      && (if reducing then decide (fmt = (if bitsOf (q 0) 4 3 = 1 then 0xA else 0)) && stageOk else true)
      && (if op = 1 ∨ op = 2 then decide (bitsOf (q 0) 33 22 < ms.length) else true)
      && ((w.drop 2).take 6).all (fun x => bitsOf x 63 49 == 0) && (w.drop 11).all (fun x => decide (x = 0))
    let fault := fun (code sub : Nat) (s : State) => ctxFaults ctx code sub (workEvents ctx code sub 0 0 0 (unitWord 1 (bitsOf (q 0) 35 34) 0) s)
    if !res.ok || res.poison != 0 then fault 2 1 s1
    else if !ok then fault 2 0 s1
    else if !tallyWordsOk s1 c.tenant ((w.drop 2).take 6) then fault 9 0 s1
    else
      let id := s1.bal.nextColl
      let (m, s2) := postWaits ctx c.tenant (.collective id) ((w.drop 2).take 4) s1
      { s2 with bal := { s2.bal with
          colls := s2.bal.colls ++ [⟨id, c.id, w, ctx, c.tenant, m, false, 0, 0, [], [], [], false⟩], nextColl := id + 1 } }

/-- Admit a collective: one tile, charged at its quarter's clock, against the quarter's heat. -/
def admitCollective (lim : Nat) (c : Cand) (s : State) : AdmRes :=
  let f := quarterClock s c.quarter
  let chg := chargeOf s c f
  if resetAsked s 1 c.quarter || !fitsTile s c.cycles 0 f (unitFree s 2 c.quarter) then ⟨s, 3, chg⟩
  else if !thermalRoom s 1 c.quarter chg then ⟨s, 2, chg⟩
  else if chg > lim then ⟨s, 1, chg⟩
  else
    let s1 := fillUnit 2 c.quarter (unitFree s 2 c.quarter + cdiv (20 * c.cycles) (max 1 f)) (accountTile c chg [(1, c.quarter)] s)
    let s2 := modCand c.id (fun k => { k with admitted := k.admitted + 1, admBell := some (k.admBell.getD s.bell) }) s1
    let placed := s2.bal.colls.any (fun x => decide (x.cand = c.id))
    ⟨if placed then s2 else placeCollective ((s2.sched.cands.find? (fun k => decide (k.id = c.id))).getD c) s2, 0, chg⟩

/-- Admit a tile of a copy: it starts at once, and the copy's last tile takes its candidate with it. Migrations keep within MIG_RATE. -/
def admitCopy (lim : Nat) (c : Cand) (s : State) : AdmRes :=
  let chg := chargeOf s c 40
  let rate := plcField s 12 4 * 10 * bellNs s
  let bytes := if c.idx = 4 then 65536 else 0
  if s.sched.migUsed + bytes > rate then ⟨s, 1, chg⟩
  else if !c.gang.all (fun n => thermalRoom s 4 n chg) then ⟨s, 2, chg⟩
  else if chg > lim then ⟨s, 1, chg⟩
  else
    let s1 := accountTile c chg (c.gang.map (fun n => (4, n))) { s with sched := { s.sched with migUsed := s.sched.migUsed + bytes } }
    let s2 := modCand c.id (fun k => { k with started := k.started + 1, admBell := some (k.admBell.getD s.bell) }) s1
    ⟨if c.started + 1 ≥ c.total then candGone c.id s2 else s2, 0, chg⟩

/-- Try to admit one more tile of a candidate within an allowance. -/
def tryTile (lim id : Nat) (atBoundary : Bool) (s : State) : AdmRes :=
  match s.sched.cands.find? (fun c => decide (c.id = id)) with
  | none => ⟨s, 4, 0⟩
  | some c =>
    if c.started + c.admitted ≥ c.total then ⟨s, 4, 0⟩
    else
      -- the tag and the reservation come with the admission: nothing of them stays when a limit refuses the tile
      match takeContext c atBoundary s with
      | (s1, false) => ⟨s1, 4, 0⟩
      | (s1, true) =>
        let c1 := (s1.sched.cands.find? (fun k => decide (k.id = id))).getD c
        let r := match c1.kind with
          | .sheet | .ticket => admitShopTile lim c1 s1
          | .invocation => admitInvocation lim c1 s1
          | .copy => admitCopy lim c1 s1
          | .collective => admitCollective lim c1 s1
        if r.code = 0 then r
        else ⟨if r.code = 2 then bump 0x100120 1 s else if r.code = 3 then bump 0x100128 1 s
              else if r.code = 1 ∧ c.lc then bump 0x100110 1 s else s, r.code, r.charge⟩

/-- Admit tiles of a candidate until one fails. -/
def admitCand : Nat → Nat → Bool → State × Nat → State × Nat
  | 0, _, _, a => a
  | k + 1, id, b, a =>
    let r := tryTile a.2 id b a.1
    if r.code = 0 then admitCand k id b (r.s, a.2 - r.charge) else (r.s, a.2)

/-- Tiles of a candidate that wait. -/
def waitingTiles (c : Cand) : Nat := c.total - c.started - c.admitted

/-- Admit the tiles of candidates in order. -/
def admitCands (ids : List Nat) (b : Bool) (a : State × Nat) : State × Nat :=
  ids.foldl (fun a id =>
    let n := ((a.1.sched.cands.find? (fun c => decide (c.id = id))).map waitingTiles).getD 0
    admitCand n id b a) a

/-! ### Order of work (R329, R332) -/

/-- Work is committed once a tile of it, or of its step or job, has been admitted. -/
def committedWork (c : Cand) : Bool := c.ctx.isSome || c.admBell.isSome

/-- Urgency as a key: DEADLINE less the bells since admission; the rest after. -/
def urgencyKey (s : State) (c : Cand) : Nat :=
  match c.order with
  | none => 2 ^ 50
  | some (o, _) =>
    let r := orderOf s o
    if r.deadline = 0 then 2 ^ 50
    else
      let since := match r.step with | some x => if x.admitted then s.bell - x.bell else 0 | none => 0
      2 ^ 40 + r.deadline - min since (2 ^ 40)

/-- Does a candidate wait for the plan or the dispatcher? -/
def waitsTile (s : State) (c : Cand) : Bool := decide (waitingTiles c > 0) && !s.sched.late.contains c.id

/-- Waiting LC candidates in the order of pass 1: committed first, then by urgency, then by number. -/
def lcOrder (s : State) : List Nat :=
  let cs := s.sched.cands.filter (fun c => c.lc && waitsTile s c)
  let key : Nat → Nat := fun id => match cs.find? (fun c => decide (c.id = id)) with
    | some c => (if committedWork c then 0 else 2 ^ 60) + urgencyKey s c
    | none => 0
  sortBy key (cs.map (fun c => c.id))

/-- Waiting BE work of the device: copies of the floorwalker and the order book, and Nororadra's. -/
def deviceBe (s : State) : List Nat :=
  (s.sched.cands.filter (fun c => !c.lc && c.device && waitsTile s c)).map (fun c => c.id)

/-- The participant of a BE candidate: its tenant, or 4,096 for the operator. -/
def participant (c : Cand) : Nat := c.tenant.getD 4096

/-- Waiting BE candidates of a participant, in dispatch sequence. -/
def beOf (s : State) (p : Nat) : List Nat :=
  (s.sched.cands.filter (fun c => !c.lc && !c.device && decide (participant c = p) && waitsTile s c)).map (fun c => c.id)

/-- Participants with waiting BE work, from the rotation's place on. -/
def participants (s : State) : List Nat :=
  let ps := (s.sched.cands.filter (fun c => !c.lc && !c.device && waitsTile s c)).map participant
  let sorted := (sortBy (fun p => p) ps).eraseDups
  sorted.filter (fun p => decide (s.sched.rot ≤ p)) ++ sorted.filter (fun p => decide (p < s.sched.rot))

/-- The quantum of a participant, pJ: weight × 64 µJ; the operator's weight is 16. -/
def quantum (s : State) (p : Nat) : Nat := (if p = 4096 then 16 else forceField s (0x100030 + p * 2 ^ 32) 7 0) * 64000000

def setDeficit (p v : Nat) (s : State) : State := { s with sched := { s.sched with deficit := tset 0 s.sched.deficit p v } }

/-- Admit a participant's candidates while its deficit covers them; the fuel bounds the tiles. The answer: state, allowance left, whether
something was admitted. -/
def visitCands : Nat → Nat → Bool → List Nat → State × Nat × Bool → State × Nat × Bool
  | 0, _, _, _, a => a
  | _, _, _, [], a => a
  | k + 1, p, b, id :: t, (s, left, any) =>
    let d := tget 0 s.sched.deficit p
    let r := tryTile (min left d) id b s
    if r.code = 0 then
      let s1 := setDeficit p (d - r.charge) r.s
      let more := ((s1.sched.cands.find? (fun c => decide (c.id = id))).map waitingTiles).getD 0
      visitCands k p b (if more > 0 then id :: t else t) (s1, left - r.charge, true)
    else if r.code = 1 ∧ r.charge > d then (r.s, left, any)
    else visitCands k p b t (r.s, left, any)

/-- One visit: the quantum, the admissions, then the deficit's bounds. -/
def visit (p : Nat) (b : Bool) (a : State × Nat × Bool) : State × Nat × Bool :=
  let q := quantum a.1 p
  let s1 := setDeficit p (tget 0 a.1.sched.deficit p + q) a.1
  let tiles := ((s1.sched.cands.filter (fun c => decide (participant c = p))).map waitingTiles).sum
  let (s2, left, any) := visitCands (tiles + s1.sched.cands.length + 1) p b (beOf s1 p) (s1, a.2.1, a.2.2)
  let s3 := { s2 with sched := { s2.sched with rot := if p = 4096 then 0 else p + 1 } }
  match beOf s3 p with
  | [] => (setDeficit p 0 s3, left, any)
  | id :: _ =>
    let next := ((s3.sched.cands.find? (fun c => decide (c.id = id))).map (fun c => chargeOf s3 c 40)).getD 0
    (setDeficit p (min (tget 0 s3.sched.deficit p) (q + next)) s3, left, any)

/-- Rotations until a whole one admits nothing. -/
def rotations : Nat → Bool → State × Nat → State × Nat
  | 0, _, a => a
  | k + 1, b, a =>
    let (s1, left, any) := (participants a.1).foldl (fun a p => visit p b a) (a.1, a.2, false)
    if any then rotations k b (s1, left) else (s1, left)

/-- The BE work of a pass within an allowance: the device's copies, then the round robin. -/
def bePass (b : Bool) (a : State × Nat) : State × Nat :=
  let a1 := admitCands (deviceBe a.1) b a
  rotations (((a1.1.sched.cands.filter (fun c => !c.lc && !c.device)).map waitingTiles).sum + 1) b a1

/-! ### The plan (R328 to R334) -/

/-- B of the bell, pJ: the envelope × T; the envelope and reserve written before the instant apply. -/
def bellBudget (s : State) : Nat := rfield s 0x300000 6 0 * 50 * 1000 * bellNs s

/-- The part of a running tile's charge whose cycles have not run. -/
def carryOf (s : State) (r : RunTile) : Nat :=
  if r.stop ≤ s.now then 0 else r.charge * (r.stop - s.now) / max 1 (r.stop - r.start)

/-- Charges of committed LC work that waits. -/
def committedCharges (s : State) : Nat :=
  ((s.sched.cands.filter (fun c => c.lc && committedWork c)).map (fun c => waitingTiles c * chargeOf s c 40)).sum

/-- When nothing of the LC class was admitted: the most urgent committed LC tile that heat and time permit, whatever its charge (R334). -/
def leastLc (a : State × Nat) : State × Nat :=
  ((lcOrder a.1).foldl (fun (x : (State × Nat) × Bool) id =>
    let com := ((x.1.1.sched.cands.find? (fun c => decide (c.id = id))).map committedWork).getD false
    if x.2 || !com then x
    else
      let r := tryTile (2 ^ 80) id true x.1.1
      if r.code = 0 then ((r.s, x.1.2 - r.charge), true) else ((r.s, x.1.2), false)) (a, false)).1

/-- The four passes on A (R329, R333): the state with what is left as the remainder, and H. -/
def fourPasses (s : State) : State :=
  let a := s.sched.allow
  if a = 0 then { s with sched := { s.sched with remainder := 0, hold := 0, short := false } }
  else
    let cap := a * forceField s 0x100020 6 0 / 100
    let need := committedCharges s
    let short := decide (need > cap)
    let ids := lcOrder s
    let com := ids.filter (fun id => ((s.sched.cands.find? (fun c => decide (c.id = id))).map committedWork).getD false)
    let lim := if short then a else cap
    let (s1, left1) := admitCands (if short then com else ids) true (s, lim)
    let (s2, left2) := if left1 = lim ∧ com ≠ [] then leastLc (s1, left1) else (s1, left1)
    let lc := lim - left2
    let h := if short then 0 else min (a * forceField s 0x100020 13 8 / 100) (cap - lc)
    let (s3, left3) := bePass true (s2, a - lc - h)
    let ids4 := (lcOrder s3).filter (fun id => !short || ((s3.sched.cands.find? (fun c => decide (c.id = id))).map committedWork).getD false)
    let (s4, left4) := admitCands ids4 true (s3, left3)
    let (s5, left5) := bePass true (s4, left4)
    let s6 := { s5 with sched := { s5.sched with remainder := left5, hold := h, short := short } }
    if short then
      let s7 := bump 0x100118 1 s6
      if s7.sched.shortSaid then s7
      else emitOp 0x08 0x01 0 [a / 1000000, need / 1000000] { s7 with sched := { s7.sched with shortSaid := true } }
    else { s6 with sched := { s6.sched with shortSaid := false } }

/-- Admissions during the bell (R331): LC from the remainder and then from H; BE from the remainder. -/
def admitInBell (s : State) : State :=
  if s.sched.clamped then s
  else
    let ids := (lcOrder s).filter (fun id => !s.sched.short || ((s.sched.cands.find? (fun c => decide (c.id = id))).map committedWork).getD false)
    let (s1, left1) := admitCands ids false (s, s.sched.remainder)
    let (s2, left2) := admitCands ((lcOrder s1).filter (fun id => ids.contains id)) false (s1, s.sched.hold)
    let fromHold := s.sched.hold - left2
    let s3 := if fromHold = 0 then s2 else bump 0x100130 (fromHold / 1000000) s2
    let (s4, left4) := bePass false (s3, left1)
    { s4 with sched := { s4.sched with remainder := left4, hold := left2 } }

/-- Waiting values of PERIOD and LEDGER take effect, PERIOD clamped into the bounds in force (R318). -/
def applyPeriods (s : State) : State :=
  let p := fun (v : Nat) => min (forceField s 0x100000 22 16) (max (forceField s 0x100000 14 8) v)
  { s with sched := { s.sched with
    period := (s.sched.nextPeriod.map p).getD s.sched.period, ledger := s.sched.nextLedger.getD s.sched.ledger, nextPeriod := none, nextLedger := none } }

/-! ### Clocks (R335) -/

/-- The fit floor, 50 MHz units. -/
def fitFloor (s : State) : Nat := max 12 (cdiv 800000 (bellNs s))

/-- Charges at a clock of the LC shop work that the plan places on a quarter. -/
def lcQuarter (s : State) (q f : Nat) : Nat :=
  ((s.sched.cands.filter (fun c => c.lc && (c.kind == .sheet || c.kind == .ticket) && (match c.shop with
      | some n => decide (shopQuarter n = q)
      | none => match c.pin with
        | some p => decide ((if p < 320 then shopQuarter p else p - 0x3F0) = q)
        | none => decide (c.quarter = q)))).map (fun c => waitingTiles c * chargeOf s c f)).sum

/-- The clock of a quarter for the bell. -/
def planClock (s : State) (q : Nat) : Nat :=
  let top := min (forceField s (0x300010 + 8 * q) 13 8) (quarterCeil s q)
  let low := max (forceField s (0x300010 + 8 * q) 5 0) (fitFloor s)
  if quarterCeil s q < low then quarterCeil s q
  else
    ((List.range (top - low + 1)).map (fun i => top - i)).find? (fun f => decide (lcQuarter s q f ≤ tget 0 s.therm.allow (512 + q))) |>.getD (min top low)

/-- Set every quarter's clock. -/
def setClocks (s : State) : State :=
  (List.range 4).foldl (fun s q => { s with sched := { s.sched with clk := tset 40 s.sched.clk q (planClock s q) } }) s

end Sys2Proof.Machine
end

