-- ==== Sys2Proof/Machine/HostOps.lean ====
section
/-! DEFINITION. Shared operations of the host's commands (R436 to R443): reading an image, memory taken and freed for tenants, the
checks of a lowered image (R137 to R142, R213, R214, R236, R305, R441), jobs, tenants. -/

namespace Sys2Proof.Machine

/-! ### Rings and entries -/

/-- The tenant on whose ring a command came; none for the operator. -/
def issuer (ring : Nat) : Option Nat := if ring < 4096 then some ring else none

/-- Bits of q1 to q4 that an opcode uses (Table 17.5); the others are reserved. -/
def entryMask (op : Nat) : List (List (Nat × Nat)) :=
  match op with
  | 0x01 => [[(55, 0)], [(16, 0), (63, 32)], [(63, 0)], []]
  | 0x02 => [[(31, 0)], [(63, 0)], [(42, 0)], []]
  | 0x04 => [[(31, 0)], [(24, 0)], [], []]
  | 0x07 => [[(31, 0)], [(16, 0)], [], []]
  | 0x08 => [[(31, 0)], [(63, 0)], [(15, 0)], []]
  | 0x09 => [[(11, 0)], [], [], []]
  | 0x10 => [[(63, 0)], [(47, 0)], [], []]
  | 0x11 => [[(11, 0)], [], [], []]
  | 0x12 => [[(63, 0)], [(47, 0)], [], []]
  | 0x13 => [[(9, 0)], [], [], []]
  | 0x18 => [[(47, 0)], [(47, 0)], [(4, 0)], []]
  | 0x19 => [[(47, 0)], [(47, 0)], [], []]
  | 0x1A => [[(63, 0)], [(63, 0)], [(31, 0)], [(48, 0)]]
  | 0x1B => [[(47, 0)], [], [], []]
  | 0x20 => [[(27, 0)], [(63, 0)], [], []]
  | 0x30 | 0x31 => [[(11, 0)], [], [], []]
  | 0x32 => [[(63, 0)], [(8, 0)], [], []]
  | 0x33 => [[(63, 0)], [(3, 0)], [], []]
  | _ => [[(31, 0)], [], [], []]

/-- Is no reserved bit of an entry set (R436)? -/
def entryOk (words : List Nat) : Bool :=
  let q := fun (i : Nat) => (words[i]?).getD 0
  let op := q 0 % 256
  let used := fun (i : Nat) => ((entryMask op)[i - 1]?).getD []
  decide (bitsOf (q 0) 31 10 = 0) && (List.range 7).all (fun i => (List.range 64).all (fun b =>
    !bitOf (q (i + 1)) b || (used (i + 1)).any (fun r => decide (r.2 ≤ b ∧ b ≤ r.1))))

/-! ### Images (Table 17.2) -/

/-- Read an image: 0 and its bytes; 1 an address leads nowhere; 2 a host read failed; 3 a sector is poisoned. -/
def readImage (ten : Option Nat) (A n : Nat) (s : State) : Nat × List Byte :=
  let l := (List.range n).map (fun i => (resolve s ten (A + i), byteAt s ten (A + i)))
  let hostBad := l.any (fun p => match p.1 with | .host h => (hostRead s h 1).isNone | _ => false)
  if hostBad then (2, [])
  else if l.any (fun p => p.2.isNone) then (1, [])
  else if l.any (fun p => decide ((p.2.getD (0, 0)).2 ≠ 0)) then (3, [])
  else (0, l.map (fun p => (p.2.getD (0, 0)).1))

/-- HOST_ERROR: a host read of the command's image failed, which `readFx` has counted. -/
def hostFail (ring op tag : Nat) (s : State) : State := completion ring op 8 tag 0 0 0 s

/-! ### Memory of tenants (R366, R440, HQ_TMEM) -/

/-- Units of 64 KiB that a tenant's models and mappings hold. -/
def memUsed (s : State) (t : Nat) : Nat :=
  (s.book.models.map (fun p => match p.2 with
    | some m => if m.tenant = t then m.granules.length + m.whPages.length else 0
    | none => 0)).sum
  + ((s.jobs.maps.filter (fun m => decide (m.tenant = t))).map (fun m => m.size / 65536)).sum
  + ((s.mem.xlatOut.filter (fun x => decide (x.1 = t ∧ x.2.model = none))).map (fun x => x.2.size / 65536)).sum

/-- May a command of a ring take `k` more units? The operator's own models count against no HQ_TMEM of a tenant. -/
def memAllows (s : State) (ring k : Nat) : Bool := decide (ring ≥ 4096 ∨ memUsed s ring + k ≤ (ringOf s ring).memMax)

/-- The first frame of a run of `k` free frames of a stack, lowest first. -/
def frameRun (s : State) (n k : Nat) : Option Nat :=
  let starts := 0 :: (s.mem.frames.filter (fun p => decide (p.1 / 2 ^ 20 = n) && !frameFree p.2)).map (fun p => p.1 % 2 ^ 20 + 1)
  starts.find? (fun f => decide (f + k ≤ 2 ^ 20) && (List.range k).all (fun i => frameFree (frameOf s (n * 2 ^ 20 + f + i))))

/-- The `k` lowest free frames of a stack. -/
def lowFrames (s : State) (n k : Nat) : List Nat :=
  ((List.range (searchBound s n k)).filter (fun f => frameFree (frameOf s (n * 2 ^ 20 + f)))).take k

/-- `k` frames of one stack, consecutive where a run of them is free (R312). -/
def stackFrames (s : State) (n k : Nat) : List Nat :=
  match frameRun s n k with
  | some f => (List.range k).map (fun i => n * 2 ^ 20 + f + i)
  | none => (lowFrames s n k).map (fun f => n * 2 ^ 20 + f)

/-- Stacks by descending free frames, lower numbers first among equals. -/
def byFree (s : State) : List Nat := sortBy (fun n => 2 ^ 21 - freeFrames s n) ((List.range 12).filter (stackPresent s))

/-- `k` frames by the rule of R282: consecutive frames of the stack with the most free frames; where no stack holds them all, from the
stacks in descending order of free frames. -/
def bulkFrames (s : State) (k : Nat) : Option (List Nat) :=
  match byFree s with
  | [] => if k = 0 then some [] else none
  | n :: t =>
    if freeFrames s n ≥ k then some (stackFrames s n k)
    else
      let l := (n :: t).foldl (fun acc m => acc ++ (lowFrames s m (min (freeFrames s m) (k - acc.length))).map (fun f => m * 2 ^ 20 + f)) []
      if l.length = k then some l else none

/-- The lowest granule, a multiple of `al`, from which `k` granules are unbound. Granule 0 is never taken. -/
def alignedGranules (s : State) (k al : Nat) : Nat :=
  ((List.range (s.mem.map.length * k + 1)).map (fun i => (i + 1) * al)).find? (fun g =>
    (List.range k).all (fun i => (tget Option.none s.mem.map (g + i)).isNone)) |>.getD al

/-- Take bulk frames and bind them to consecutive granules. -/
def takeBulk (g : Nat) (ks : List Nat) (use : FrameUse) (pinned : Bool) (tenant model : Option Nat) (s : State) : State :=
  ks.zipIdx.foldl (fun s p => bindGranule (g + p.2) p.1 false pinned tenant model none (takeFrame p.1 false use s)) s

/-- The warehouse page of an address: quarter × 1,024 + page. -/
def whPageOf (a : Nat) : Nat := (a - 0x010000000000) / 65536
/-- The first address of a warehouse page. -/
def whAddr (p : Nat) : Nat := 0x010000000000 + p * 65536

/-- Free pages of a quarter's warehouse, lowest first. -/
def whFree (s : State) (q : Nat) : List Nat :=
  ((List.range 1024).map (fun i => q * 1024 + i)).filter (fun p => decide (tget 0 s.mem.whPages p = 0) && !s.mem.whRetired.contains p)

/-- Clear warehouse pages to zero and free of poison. -/
def clearPage (p : Nat) (s : State) : State :=
  let s1 := { s with mem := { s.mem with
      bytes := s.mem.bytes.filter (fun b => !(decide (whAddr p ≤ b.1 ∧ b.1 < whAddr p + 65536)))
      line := s.mem.line.filter (fun l => !(decide (whAddr p ≤ l.1 * 64 ∧ l.1 * 64 < whAddr p + 65536))) } }
  if lineBase s (whAddr p / 64) then (List.range 1024).foldl (fun s i => setLine (whAddr p / 64 + i) false s) s1 else s1

/-- Give warehouse pages to a tenant, cleared. -/
def takePages (ps : List Nat) (owner : Nat) (s : State) : State :=
  ps.foldl (fun s p => let s1 := clearPage p s; { s1 with mem := { s1.mem with whPages := tset 0 s1.mem.whPages p owner } }) s

def freePages (ps : List Nat) (s : State) : State :=
  ps.foldl (fun s p => { s with mem := { s.mem with whPages := tset 0 s.mem.whPages p 0 } }) s

/-- Install a translation of a tenant; the operator's work needs none. -/
def addXlate (ten : Option Nat) (x : Xlate) (s : State) : State :=
  match ten with
  | none => s
  | some t => { s with mem := { s.mem with xlat := tset [] s.mem.xlat t (tget [] s.mem.xlat t ++ [x]) } }

/-- Remove the translations of a tenant that meet a condition; their memory waits for the next boundary (R367). -/
def dropXlates (t : Nat) (p : Xlate → Bool) (s : State) : State :=
  let l := tget [] s.mem.xlat t
  { s with mem := { s.mem with
      xlat := tset [] s.mem.xlat t (l.filter (fun x => !p x))
      xlatOut := s.mem.xlatOut ++ (l.filter p).map (fun x => (t, x)) } }

/-- Free the memory behind a removed translation. -/
def freeXlate (x : Xlate) (s : State) : State :=
  if x.la < 0x010000000000 then (List.range (x.size / 65536)).foldl (fun s i => freeGranule (x.la / 65536 + i) s) s
  else freePages ((List.range (x.size / 65536)).map (fun i => whPageOf x.la + i)) s

/-- Does any translation of a tenant cover part of a range? -/
def xlateMeets (s : State) (t a n : Nat) : Bool := (tget [] s.mem.xlat t).any (fun x => decide (x.va < a + n ∧ a < x.va + x.size))

/-! ### The checks of a tensor descriptor (R138 to R142) -/

/-- Element width in bits by its Table 4.7 code. -/
def codeBits (c : Nat) : Nat := ((codeFmt c).map fmtBits).getD 0

def prodOf (l : List Nat) : Nat := l.foldl (· * ·) 1

/-- Local extents of every device part, and of every unit part of each. -/
def devExts (x : DimSplit) : List Nat := (List.range x.dparts).map (devExt x)
def unitExts (x : DimSplit) (e : Nat) : List Nat := (List.range x.uparts).map (localExt x.ukind x.uparts x.ublock e)

/-- A dimension's entry (Table 6.2) and R139: no part of extent zero. -/
def dimOk (x : DimSplit) : Bool :=
  decide (1 ≤ x.extent ∧ x.extent < 2 ^ 40 ∧ 1 ≤ x.stride ∧ x.dkind < 3 ∧ x.ukind < 3)
  && (if x.dkind = 2 then decide (1 ≤ x.dblock) else decide (x.dblock = 0))
  && (if x.ukind = 2 then decide (1 ≤ x.ublock) else decide (x.ublock = 0))
  && (devExts x).all (fun e => decide (0 < e) && (unitExts x e).all (fun u => decide (0 < u)))

/-- Every local extent but the last part's is a multiple of `k` at each level, and so are the cyclic blocks. -/
def multOk (k : Nat) (x : DimSplit) : Bool :=
  let lead := fun (l : List Nat) => (l.take (l.length - 1)).all (fun e => decide (e % k = 0))
  lead (devExts x) && (devExts x).all (fun e => lead (unitExts x e)) && decide (x.dblock % k = 0 ∧ x.ublock % k = 0)

/-- Members of a group, 1 for group 0. -/
def groupSize (s : State) (g : Nat) : Nat := if g = 0 then 1 else (groupMembers s g).length

/-- Sharding rules of R140 and the group field of Table 6.1. -/
def shardOk (s : State) (d : TensorDesc) : Bool :=
  let up := prodOf (d.dims.map (fun x => x.uparts))
  d.dims.all dimOk
  && decide (prodOf (d.dims.map (fun x => x.dparts)) = groupSize s d.group)
  && (d.dims.any (fun x => decide (x.dparts ≠ 1)) || decide (d.group = 0))
  && decide (up ≤ (match d.home with | 0 => 12 | 1 => 4 | 2 => 320 | _ => 1))

/-- Elements that a local part spans. -/
def partElems (s : State) (d : TensorDesc) : Nat :=
  let parts := tensorParts s d
  ((List.range d.dims.length).map (fun j => (unitExt parts d j 0 - 1) * ((d.dims[j]?).map (fun x => x.stride)).getD 1)).sum + 1

/-- Size of a local part in bytes: by its strides, or as the image gives it for a plane tensor. -/
def partSize (s : State) (m : ModelImg) (i : Nat) (d : TensorDesc) : Nat :=
  if d.plane then ((m.data.filter (fun x => decide (x.tensor = i))).map (fun x => x.size)).foldl max 0
  else cdiv (partElems s d * codeBits d.fmt) 8

/-- The rule for MX scale tensors (R142). -/
def scaleOk (m : ModelImg) (d : TensorDesc) : Bool :=
  if d.scaleDesc = 0 then true
  else match m.descAt.findIdx? (fun a => decide (a = d.scaleDesc)) with
    | none => false
    | some j => match m.tensors[j]? with
      | none => false
      | some e =>
        let like := fun (p : (DimSplit × DimSplit) × Nat) =>
          let x := p.1.1
          let y := p.1.2
          let k : Nat := if p.2 = d.kdim then 32 else 1
          decide (y.extent = cdiv x.extent k ∧ x.dkind = y.dkind ∧ x.dparts = y.dparts ∧ x.ukind = y.ukind ∧ x.uparts = y.uparts
            ∧ x.dblock = k * y.dblock ∧ x.ublock = k * y.ublock)
        decide (e.fmt = 8 ∧ e.home = d.home ∧ e.group = d.group ∧ e.dims.length = d.dims.length) && !e.plane
        && ((d.dims.zip e.dims).zipIdx).all like

/-- Every rule of chapter 6 for tensor `i` of an image. -/
def tensorOk (s : State) (m : ModelImg) (i : Nat) (d : TensorDesc) : Bool :=
  let sz := partSize s m i d
  let r := d.dims.length
  let inner := d.dims.getLast?
  let outer := d.dims.take (r - 1)
  let w := codeBits d.fmt
  let mx := decide (d.scaleDesc ≠ 0)
  decide (d.magic = 0x43534454 ∧ d.target = 0xA1 ∧ 1 ≤ r ∧ r ≤ 8 ∧ d.kdim < r ∧ d.base < 2 ^ 48) && !d.reserved
  && (if d.plane then decide (d.fmt = 0) && !mx else decide (w ≠ 0)) && (d.plane || decide (d.segdir = 0)) && shardOk s d
  && (match d.home with
    | 0 | 1 => decide (d.base % 65536 = 0 ∧ d.partStride % 65536 = 0)
    | 2 => decide (d.base % 4096 = 0 ∧ d.base + sz ≤ 0x180000 ∧ d.partStride = 0)
    | _ => decide (d.base % 4096 = 0 ∧ d.partStride = 0))
  && decide (d.partStride = 0 ∨ sz ≤ d.partStride)
  && (match inner with | some x => decide (x.stride = 1) && (d.plane || (match w with | 4 => multOk 2 x | 6 => multOk 4 x | _ => true)) | none => false)
  && outer.all (fun x => match w with | 4 => decide (x.stride % 2 = 0) | 6 => decide (x.stride % 4 = 0) | _ => true)
  && (if d.plane then decide (d.kdim + 1 = r) && ((d.dims[d.kdim]?).map (multOk 256)).getD false else true)
  && (if mx then ((d.dims[d.kdim]?).map (multOk 32)).getD false && scaleOk m d else true)

/-! ### KV descriptors (R213, R214, R216, R232, R236) -/

/-- The KV descriptor that a descriptor stands for. -/
def kvOfDesc (d : TensorDesc) : KvDesc :=
  let x := fun (i : Nat) => (d.dims[i]?).getD ⟨1, 1, 0, 1, 0, 0, 1, 0⟩
  ⟨d.fmt, d.group, (x 3).extent / 2, x 0, x 1, x 2⟩

/-- The rules for a KV descriptor. -/
def kvOk (s : State) (d : TensorDesc) : Bool :=
  let k := kvOfDesc d
  let q := kvLocal s k
  let yh := q.1 * q.2.1
  let e3 := (d.dims[3]?).map (fun x => (x.extent, x.dkind, x.dparts, x.ukind, x.uparts))
  let unitOk := fun (x : DimSplit) => decide (x.ukind ≠ 0 ∨ x.uparts = 1)
  decide (d.magic = 0x43534454 ∧ d.target = 0xA1 ∧ d.dims.length = 4 ∧ 1 ≤ d.fmt ∧ d.fmt ≤ 3 ∧ d.home = 0) && !d.plane && !d.reserved
  && decide (d.base = 0 ∧ d.partStride = 0 ∧ d.kdim = 0 ∧ d.segdir = 0 ∧ d.scaleDesc = 0)
  && d.dims.all (fun x => decide (x.stride = 1)) && shardOk s d
  && decide (k.layers.extent ≤ 4096 ∧ k.heads.extent ≤ 256 ∧ k.pos.extent % 256 = 0 ∧ 256 ≤ k.pos.extent ∧ k.pos.extent ≤ 16777216)
  && decide (e3 = some (2 * k.d, 0, 1, 0, 1)) && decide (1 ≤ k.d ∧ k.d ≤ 1023 ∧ k.d * kvElem k ≤ 2048)
  && decide (k.pos.uparts = 1)
  && (match k.pos.dkind with | 1 => decide (cdiv k.pos.extent k.pos.dparts % 256 = 0) | 2 => decide (k.pos.dblock % 256 = 0) | _ => true)
  && unitOk k.layers && unitOk k.heads
  && decide (yh ≤ 8192 ∧ q.2.2 ≤ 8192 * (8192 / max 1 yh) * 256 ∧ cdiv q.2.2 256 * yh * kvF k * 65536 ≤ 2 ^ 36)

/-! ### Directives (R305) -/

/-- Frames of one unit part of a stack tensor, and how many parts it has. -/
def partFrames (s : State) (m : ModelImg) (i : Nat) : Nat := match m.tensors[i]? with | some d => cdiv (partSize s m i d) 65536 | none => 0
def partCount (d : TensorDesc) : Nat := prodOf (d.dims.map (fun x => x.uparts))

/-- The object of a directive as the rule against two hard pins compares it. -/
def dirKey (d : DirRec) : Nat × Nat × Nat := (if d.kind ≤ 1 then 0 else d.kind, d.object, d.part)

/-- Directive `i` of an image alone. -/
def dirOk (m : ModelImg) (d : DirRec) (rsv : Bool) : Bool :=
  let t := m.tensors[d.object]?
  !rsv && (if d.hard then decide (d.weight = 0) else decide (1 ≤ d.weight ∧ d.weight ≤ 15))
  && (match d.kind with
    | 0 => decide (d.unit < 12) && (t.map (fun x => decide (x.home = 0 ∧ d.part < partCount x))).getD false
    | 1 => decide (d.unit < 4) && (t.map (fun x => decide (x.home ≤ 1 ∧ d.part < partCount x))).getD false
    | 2 => decide (d.part = 0 ∧ d.object < m.entries.length ∧ (d.unit < 320 ∨ (0x3F0 ≤ d.unit ∧ d.unit ≤ 0x3F3)))
    | _ => decide (d.part = 0 ∧ d.unit < 2) && m.layers.any (fun l => decide (l.1 = d.object) && (if d.unit = 0 then l.2.1 else l.2.2)))

/-- The first failing directive: its own rules, a second hard pin of an object, or a stack without the frames. -/
def dirFail (s : State) (m : ModelImg) : Option Nat :=
  (List.range m.directives.length).find? (fun i => match m.directives[i]? with
    | none => false
    | some (d, rsv) =>
      let before := (m.directives.take i).map Prod.fst
      let onto := ((before ++ [d]).filter (fun x => x.hard && x.kind == 0 && decide (x.unit = d.unit))).map (fun x => partFrames s m x.object)
      !dirOk m d rsv || (d.hard && before.any (fun x => x.hard && decide (dirKey x = dirKey d)))
      || (d.hard && d.kind == 0 && decide (onto.sum > freeFrames s d.unit)))

/-! ### Routines (R190, R191) -/

/-- The first routine that fails its image check, finds its slot taken, or finds too little store on a present stack. -/
def routineFail (s : State) (m : ModelImg) : Option Nat :=
  (List.range m.routines.length).find? (fun i => match m.routines[i]? with
    | none => false
    | some r =>
      let upTo := ((m.routines.take (i + 1)).map (fun x => routineUnits x.code)).sum
      !(routineOk r && r.typ == 2) || (m.routines.take i).any (fun x => decide (x.slot = r.slot))
      || (List.range 12).any (fun n => stackPresent s n && ((tget none (fulOf s n).slots r.slot).isSome
          || decide (upTo + storeUsed s n true + storeUsed s n false > 1024))))

/-! ### Groups (R408, R418) -/

/-- The groups that an image names, ascending. -/
def imgGroups (m : ModelImg) : List Nat :=
  (sortBy (fun g => g) (((m.tensors ++ m.kv).map (fun d => d.group) ++ m.relays.map (fun r => r.2.1)).filter (fun g => decide (g ≠ 0)))).eraseDups

/-- The answers of a group's members: like entries, like periods. -/
def groupAnswer (m : ModelImg) (g : Nat) : Bool × Bool :=
  match m.groups.find? (fun x => decide (x.1 = g)) with | some x => x.2 | none => (false, false)

/-- The first check of R441 that fails before memory is counted: detail and index. -/
def imageFail (s : State) (m : ModelImg) : Option (Nat × Nat) :=
  match m.badAt with
  | some o => some (0x08, o)
  | none =>
    if m.target ≠ 0xA1 then some (0x01, 0)
    else match (List.range m.tensors.length).find? (fun i => !((m.tensors[i]?).map (tensorOk s m i)).getD false) with
      | some i => some (0x02, i)
      | none => match (List.range m.kv.length).find? (fun i => !((m.kv[i]?).map (kvOk s)).getD false) with
        | some i => some (0x03, i)
        | none => match dirFail s m with
          | some i => some (0x04, i)
          | none => match routineFail s m with
            | some i => some (0x05, i)
            | none =>
              let gs := imgGroups m
              match gs.find? (fun g => !(groupAnswer m g).1 || !(groupMembers s g).contains (ownDevice s)) with
              | some g => some (0x06, g)
              | none => (gs.find? (fun g => !(groupAnswer m g).2)).map (fun g => (0x07, g))

/-! ### Placing an image (R312) -/

/-- Stack tensors' parts as (tensor, part, frames), in table order. -/
def stackParts (s : State) (m : ModelImg) : List (Nat × Nat × Nat) :=
  m.tensors.zipIdx.flatMap (fun p => if p.1.home = 0 then (List.range (partCount p.1)).map (fun u => (p.2, u, partFrames s m p.2)) else [])

/-- Warehouse tensors' pages by their tenant addresses. -/
def whParts (s : State) (m : ModelImg) : List Nat :=
  m.tensors.zipIdx.flatMap (fun p => if p.1.home = 1 then (List.range (partCount p.1)).flatMap (fun u =>
    (List.range (partFrames s m p.2)).map (fun i => p.1.base + u * p.1.partStride + 65536 * i)) else [])

/-- The directives of a tensor's part, hard pins first, then hints by falling weight and rising index. -/
def partDirs (m : ModelImg) (t u : Nat) : List DirRec :=
  let ds := (m.directives.map Prod.fst).filter (fun d => decide (d.kind ≤ 1 ∧ d.object = t ∧ d.part = u))
  let key : Nat → Nat := fun i => match ds[i]? with | some d => if d.hard then 0 else 16 - d.weight | none => 0
  (sortBy key (List.range ds.length)).filterMap (fun i => ds[i]?)

/-- The stack for a part of `k` frames: the first directive that can be met, else the stack with the most free frames; parts of one tensor go to
distinct stacks while any remain. -/
def placePart (s : State) (m : ModelImg) (t u k : Nat) (used : List Nat) : Option Nat :=
  let fits := fun (n : Nat) => stackPresent s n && decide (freeFrames s n ≥ k)
  let fresh := fun (l : List Nat) => let f := l.filter (fun n => !used.contains n); if f.isEmpty then l else f
  let quarter := fun (q : Nat) => (List.range 3).map (fun i => 3 * q + i)
  let byDir := (partDirs m t u).findSome? (fun d =>
    let set := if d.kind = 0 then [d.unit] else fresh ((quarter d.unit).filter fits)
    mostFree s (set.filter fits))
  byDir.orElse (fun _ => mostFree s (fresh ((List.range 12).filter fits)))

/-- Take and bind the frames of every stack part: the state, the granules, and the stack of each part; none where a part finds no stack. -/
def placeParts (model : Nat) (ten : Option Nat) (m : ModelImg) (s : State) : Option (State × List Nat × List ((Nat × Nat) × Nat)) :=
  (stackParts s m).foldl (fun (a : Option (State × List Nat × List ((Nat × Nat) × Nat))) p =>
    match a with
    | none => none
    | some (s, gs, at_) =>
      let used := (at_.filter (fun x => decide (x.1.1 = p.1))).map Prod.snd
      match placePart s m p.1 p.2.1 p.2.2 used with
      | none => none
      | some n =>
        let g := freeGranules s p.2.2
        let pinned := (partDirs m p.1 p.2.1).any (fun d => d.hard)
        let s1 := takeBulk g (stackFrames s n p.2.2) (.tensor model) pinned ten (some model) s
        let va := match m.tensors[p.1]? with | some d => d.base + p.2.1 * d.partStride | none => 0
        some (addXlate ten ⟨va, p.2.2 * 65536, g * 65536, 65536, some model⟩ s1, gs ++ (List.range p.2.2).map (fun i => g + i),
          at_ ++ [((p.1, p.2.1), n)])) (some (s, [], []))

/-- Take the warehouse pages of an image: the state and the pages; none where a quarter lacks one. -/
def placePages (model ring : Nat) (m : ModelImg) (s : State) : Option (State × List Nat) :=
  (whParts s m).foldl (fun (a : Option (State × List Nat)) va => match a with
    | none => none
    | some (s, ps) =>
      if va < 0x010000000000 ∨ va ≥ 0x010010000000 then none
      else match whFree s (whPageOf va / 1024) with
        | [] => none
        | p :: _ => some (addXlate (issuer ring) ⟨va, 65536, whAddr p, 65536, some model⟩ (takePages [p] (ring + 1) s), ps ++ [p])) (some (s, []))

/-- The model record of an accepted image; `owners` names the tensor of each granule. -/
def modelOfImg (ring : Nat) (m : ModelImg) (owners granules pages : List Nat) (at_ : List ((Nat × Nat) × Nat)) : ModelRec :=
  let ds := m.directives.map Prod.fst
  let sidePin := fun (l : Nat) => (ds.find? (fun d => d.hard && d.kind == 3 && decide (d.object = l)))
  let progPin := fun (p : Nat) => (ds.find? (fun d => d.hard && d.kind == 2 && decide (d.object = p))).map (fun d => d.unit)
  { tenant := ring, vocab := m.vocab, kv := (m.kv.head?).map kvOfDesc
    parts := m.headParts.map (fun o => o.bind (fun k => (at_.find? (fun x => decide (x.1 = k))).map Prod.snd))
    prefill := m.prefill, decode := m.decode
    entries := m.entries.zipIdx.map (fun p => match progPin p.2 with
      | some u => p.1.map (fun w => { w with pin := some u })
      | none => p.1)
    granules := granules, whPages := pages, routines := m.routines.map (fun r => r.slot), relays := m.relays.map (fun r => r.1)
    groups := imgGroups m
    sides := m.sides.map (fun x =>
      let gs := ((owners.zip granules).filter (fun p => x.tensors.contains p.1)).map Prod.snd
      let y : SideRec := ⟨x.layer, x.best, x.first, x.first, false, x.tensors, gs, 0, 0, 0, false⟩
      match sidePin x.layer with
      | some d => { y with pinned := true, now := decide (d.unit = 0), first := decide (d.unit = 0) }
      | none => y)
    directives := ds, loading := true, unloading := false }

/-! ### Jobs -/

def modJob (id : Nat) (f : Job → Job) (s : State) : State :=
  { s with jobs := { s.jobs with jobs := s.jobs.jobs.map (fun j => if j.id = id then f j else j) } }

def dropJob (id : Nat) (s : State) : State := { s with jobs := { s.jobs with jobs := s.jobs.jobs.filter (fun j => decide (j.id ≠ id)) } }

/-- Enter a job under the next number. -/
def addJob (j : Job) (s : State) : State :=
  { s with jobs := { s.jobs with jobs := s.jobs.jobs ++ [{ j with id := s.sched.nextId + 1 }] }
           sched := { s.sched with nextId := s.sched.nextId + 1 } }

/-- The number that addJob gives next. -/
def nextJob (s : State) : Nat := s.sched.nextId + 1

/-- A job with nothing but its command. -/
def mkJob (op ring tag a b : Nat) (s : State) : Job :=
  ⟨0, op, ring, tag, a, b, 0, none, 0, none, none, false, s.bell⟩

/-- The first job of a ring with an opcode and TAG. -/
def jobOf (s : State) (op ring tag : Nat) : Option Job := s.jobs.jobs.find? (fun j => decide (j.op = op ∧ j.ring = ring ∧ j.tag = tag))

/-- Candidates of a job. -/
def jobCands (s : State) (id : Nat) : List Cand := s.sched.cands.filter (fun c => decide (c.job = id))

/-- Drop a job's candidates that no unit runs. -/
def dropJobCands (id : Nat) (s : State) : State :=
  { s with sched := { s.sched with cands := s.sched.cands.filter (fun c =>
      decide (c.job ≠ id) || s.sched.running.any (fun r => decide (r.cand = c.id))) } }

/-- Cancel a RUN on every unit (R129, R440). -/
def cancelRun (j : Job) (s : State) : State :=
  let s1 := match j.ctx with | some c => endContext c s | none => s
  modJob j.id (fun x => { x with cancelled := true }) (dropJobCands j.id s1)

/-- May a ring use the LC class? -/
def lcAllowed (s : State) (ring : Nat) (lc : Bool) : Bool := !lc || decide (ring ≥ 4096) || decide (quotaOf s ring 4 = 1)

/-! ### Models -/

/-- The lowest free model handle. -/
def freeHandle (s : State) : Option Nat :=
  (List.range (min 4096 (s.book.models.length + 1))).find? (fun h => (modelOf s h).isNone)

def setModel (h : Nat) (m : Option ModelRec) (s : State) : State :=
  { s with book := { s.book with models := tset none s.book.models h m } }

/-- Free everything that a model holds (R441): frames, warehouse pages, translations, routines, relays, controls. -/
def freeModel (h : Nat) (s : State) : State :=
  match modelOf s h with
  | none => s
  | some m =>
    let s1 := m.granules.foldl (fun s g => freeGranule g s) s
    let s2 := freePages m.whPages s1
    let gone := fun (x : Xlate) => decide (x.model = some h)
    let s3 := { s2 with
      mem := { s2.mem with
        xlat := tset [] s2.mem.xlat m.tenant ((tget [] s2.mem.xlat m.tenant).filter (fun x => !gone x))
        xlatOut := s2.mem.xlatOut.filter (fun x => !(decide (x.1 = m.tenant) && gone x.2)) }
      tal := { s2.tal with relays := m.relays.foldl (fun t r => tset none t r none) s2.tal.relays }
      fulStacks := s2.fulStacks.map (fun p => (p.1, { p.2 with slots := p.2.slots.filter (fun q => !m.routines.contains q.1) }))
      regs := { s2.regs with
        vals := tset none s2.regs.vals (0x500038 + h * 2 ^ 32) none
        old := tset none s2.regs.old (0x500038 + h * 2 ^ 32) none } }
    setModel h none s3

/-- A model is in use: an order of it that is not FREE, or a RUN of it not complete (R441). -/
def modelBusy (s : State) (h : Nat) : Bool :=
  s.book.orders.any (fun p => decide (p.2.state ≠ 0 ∧ p.2.model = h)) || s.jobs.jobs.any (fun j => decide (j.op = 0x20 ∧ j.a = h))

/-! ### Tenants (R442, R428) -/

/-- Is a set's configuration complete (R430)? -/
def setOk (r : RingSet) : Bool := decide (4 ≤ r.sqLog ∧ r.sqLog ≤ 16 ∧ 4 ≤ r.eqLog ∧ r.eqLog ≤ 16)

/-- Start a ring set (R434). -/
def startSet (t : Nat) (s : State) : State :=
  modRing t (fun r => { r with started := true, fresh := true, stopped := false, failScans := 0, badTail := false, badHead := false
                               armed := false, lastMsg := none, store := [], lostNew := 0, ovfNext := false, consumed := 0, produced := 0, head := 0 }) s

/-- Stop a set; its records in the overflow store are discarded. -/
def stopSet (t : Nat) (s : State) : State := modRing t (fun r => { r with started := false, fresh := false, armed := false, store := [] }) s

/-- The tallies of a tenant's range to 0 (R381). -/
def zeroRange (t : Nat) (s : State) : State := let r := tget (0, 0) s.tal.range t; zeroTallies r.1 r.2 s

/-- Restart a tenant's live counters and the sums of its next record (R553, R555). -/
def zeroTenantCounters (t : Nat) (s : State) : State :=
  { s with
    regs := { s.regs with tlive := s.regs.tlive.filter (fun p => decide (p.1 / 16 ≠ t)) }
    stat := { s.stat with tenSum := tset [] s.stat.tenSum t [], tenPeriods := tset 0 s.stat.tenPeriods t 0 } }

/-- Enable a tenant: key pair, tallies, ring set. -/
def enableTenant (t : Nat) (s : State) : State :=
  let s1 := { s with book := { s.book with enabled := t :: s.book.enabled.filter (fun x => decide (x ≠ t))
                                           keys := t :: s.book.keys.filter (fun x => decide (x ≠ t)) } }
  audit 0x0C 0 t 0 1 0 (startSet t (zeroTenantCounters t (zeroRange t s1)))

/-- Has anything of a tenant remained? -/
def tenantRemains (s : State) (t : Nat) : Bool :=
  !(tenantOrders s t).isEmpty || s.book.models.any (fun p => (p.2.map (fun m => decide (m.tenant = t))).getD false)
  || s.grammars.any (fun p => (p.2.map (fun g => decide (g.tenant = t))).getD false)
  || !(tget [] s.mem.xlat t).isEmpty || s.mem.xlatOut.any (fun x => decide (x.1 = t)) || nodesUsed s t != 0
  || s.jobs.jobs.any (fun j => decide (j.ring = t)) || s.sched.cands.any (fun c => decide (c.tenant = some t))

/-- Start the removal of a tenant (R442): orders close, runs are cancelled, models, grammars, mappings and nodes go, the set stops. -/
def disableTenant (t : Nat) (s : State) : State :=
  let s1 := (tenantOrders s t).foldl (fun s o => if (orderOf s o).state = 8 then s else closeOrder o s) s
  let s2 := (s1.jobs.jobs.filter (fun j => decide (j.ring = t))).foldl (fun s j =>
    if j.op = 0x20 then cancelRun j s
    else if j.op = 0x10 then dropJob j.id (freeModel j.a (dropJobCands j.id s))
    else dropJob j.id (dropJobCands j.id s)) s1
  let s3 := { s2 with
    book := { s2.book with models := s2.book.models.map (fun p => (p.1, p.2.map (fun m => if m.tenant = t then { m with unloading := true } else m))) }
    grammars := s2.grammars.map (fun p => (p.1, p.2.map (fun g => if g.tenant = t then
      { g with unloaded := true, state := if g.state = 2 then 3 else g.state } else g)))
    jobs := { s2.jobs with maps := s2.jobs.maps.filter (fun m => decide (m.tenant ≠ t)) }
    host := { s2.host with waiting := s2.host.waiting.filter (fun e => decide (e.ring ≠ t)) } }
  zeroRange t (stopSet t (dropPrefixes t none (dropXlates t (fun _ => true) s3)))

end Sys2Proof.Machine
end

