-- ==== Sys2Proof/Machine/Host.lean ====
section
/-! DEFINITION. Meanings of the host-port rows (chapter 17): commands of the rings, their completions, doorbell scans, resets of the
endpoint, and the far ports. A command's row is its application at the time that Table 17.4 gives. -/

namespace Sys2Proof.Machine

/-! ### Models (R441) -/

/-- Apply MODEL_LOAD: the first failing check in the order of R441, or the load starts as BE copies. -/
def doModelLoad (ring tag image len : Nat) (img : ModelImg) (s : State) : State :=
  let (code, _) := readImage (issuer ring) image len s
  let s := readFx (issuer ring) image len s
  let fail := fun (st : Nat) => completion ring 0x10 st tag 0 0 0 s
  if code = 1 ∨ len = 0 then fail 1
  else if code = 2 then hostFail ring 0x10 tag s
  else if code = 3 then completion ring 0x10 6 tag 0 0x08 0 s
  else match imageFail s img with
    | some (d, i) => completion ring 0x10 6 tag 0 d i s
    | none =>
      let units := ((stackParts s img).map (fun p => p.2.2)).sum + (whParts s img).length
      if !memAllows s ring units then fail 4
      else match freeHandle s with
        | none => fail 5
        | some h => match placeParts h (issuer ring) img s with
          | none => fail 5
          | some (s1, gs, at_) => match placePages h ring img s1 with
            | none => fail 5
            | some (s2, ps) =>
              let owners := (stackParts s img).flatMap (fun p => List.replicate p.2.2 p.1)
              let s3 := setModel h (some (modelOfImg ring img owners gs ps at_)) s2
              let s4 := addJob { mkJob 0x10 ring tag h 0 s3 with img := some img } s3
              addCopy 6 h (issuer ring) false false none ring tag ((at_.map Prod.snd).eraseDups) (units * 65536)
                (copyEnergy (units * 65536) 0) (nextJob s3) s4

/-- MODEL_LOAD (R441, R437). -/
def execModelLoad (ring tag image len : Nat) (img : ModelImg) (s : State) : Res :=
  .next (guardRing ring 0x10 tag (doModelLoad ring tag image len img) s)

/-- The bytes of a part that lie in its frame `i`, by offset in the frame. -/
def frameBytes (img : ModelImg) (t u i : Nat) : List (Nat × Byte) :=
  match img.data.find? (fun d => decide (d.tensor = t ∧ d.part = u)) with
  | some d => (d.bytes.filter (fun b => decide (b.1 / 65536 = i))).map (fun b => (b.1 % 65536, b.2))
  | none => []

/-- Write the tensors, routines and relays of a loaded image. -/
def writeModel (h : Nat) (img : ModelImg) (m : ModelRec) (s : State) : State :=
  let slots := (stackParts s img).flatMap (fun p => (List.range p.2.2).map (fun i => (p.1, p.2.1, i)))
  let s1 := (m.granules.zip slots).foldl (fun s x => match granuleKey s x.1 with
    | some k => modFrame k (fun f => { f with filling := false }) (writeWhole k (frameBytes img x.2.1 x.2.2.1 x.2.2.2) [] s)
    | none => s) s
  let wslots := img.tensors.zipIdx.flatMap (fun p => if p.1.home = 1 then (List.range (partCount p.1)).flatMap (fun u =>
    (List.range (partFrames s img p.2)).map (fun i => (p.2, u, i))) else [])
  let s2 := (m.whPages.zip wslots).foldl (fun s x =>
    storeKeys ((frameBytes img x.2.1 x.2.2.1 x.2.2.2).map (fun b => (whAddr x.1 + b.1, b.2))) s) s1
  let s3 := (List.range 12).foldl (fun s n => if stackPresent s n then modFul n (fun x => { x with
      slots := img.routines.foldl (fun t r => tset none t r.slot (some (some m.tenant, r.code))) x.slots }) s else s) s2
  let s4 := { s3 with tal := { s3.tal with relays := img.relays.foldl (fun t r => tset none t r.1 (some r.2)) s3.tal.relays } }
  setModel h (some { m with loading := false }) s4

/-- MODEL_LOAD_DONE (R441): the copies of a load have all been admitted and end; a host read that failed ends the load instead. -/
def execModelLoadDone (ring tag : Nat) (hostError : Bool) (s : State) : Res :=
  match jobOf s 0x10 ring tag with
  | none => .next s
  | some j =>
    match j.img, modelOf s j.a with
    | some img, some m =>
      if hostError then .next (hostFail ring 0x10 tag (bump 0x200148 1 (dropJob j.id (freeModel j.a (dropJobCands j.id s)))))
      else if (jobCands s j.id).isEmpty then
        .next (completion ring 0x10 0 tag j.a 0 0 (dropJob j.id (writeModel j.a img m s)))
      else .next s
    | _, _ => .next s

/-- Apply MODEL_UNLOAD. -/
def doModelUnload (ring tag model : Nat) (s : State) : State :=
  match modelOf s model with
  | none => completion ring 0x11 1 tag 0 0 0 s
  | some m =>
    if m.tenant ≠ ring then completion ring 0x11 3 tag 0 0 0 s
    else if m.loading ∨ m.unloading then completion ring 0x11 1 tag 0 0 0 s
    else if modelBusy s model then completion ring 0x11 7 tag 0 0 0 s
    else
      let s1 := setModel model (some { m with unloading := true }) s
      let s2 := addJob (mkJob 0x11 ring tag model 0 s1) s1
      match issuer ring with | some t => dropXlates t (fun x => decide (x.model = some model)) s2 | none => s2

/-- MODEL_UNLOAD (R441): freed at the next boundary, with the completion (R367). -/
def execModelUnload (ring tag model : Nat) (s : State) : Res := .next (guardRing ring 0x11 tag (doModelUnload ring tag model) s)

/-! ### Grammars (R278, R279, R282) -/

/-- A grammar image parsed and checked (R278, R279). -/
def parseGrammar (len : Nat) (l : List Byte) : Option GrammarRec :=
  let q := fun (i : Nat) => leAt l (8 * i) 8
  let v := bitsOf (q 1) 19 0
  let nc := bitsOf (q 1) 36 20
  let ns := bitsOf (q 1) 53 37
  let nt := bitsOf (q 2) 47 16
  let start := bitsOf (q 2) 15 0
  let c0 := 64
  let s0 := c0 + pad64 (2 * v)
  let t0 := s0 + pad64 (8 * ns)
  let size := t0 + pad64 (16 * nt)
  let hdr := decide (bitsOf (q 0) 31 0 = 0x4D524747 ∧ bitsOf (q 0) 39 32 = 0xA1 ∧ bitsOf (q 0) 47 40 = 1 ∧ bitsOf (q 0) 63 48 = 0
    ∧ bitsOf (q 1) 63 54 = 0 ∧ bitsOf (q 2) 63 48 = 0 ∧ bitsOf (q 3) 63 32 = 0 ∧ q 4 = 0 ∧ q 5 = 0 ∧ q 6 = 0 ∧ q 7 = 0)
    && decide (2 ≤ v ∧ v ≤ 524288 ∧ 1 ≤ nc ∧ nc ≤ 65535 ∧ 1 ≤ ns ∧ ns ≤ 65536 ∧ 1 ≤ nt ∧ nt ≤ 4194304 ∧ start < ns)
  if !hdr || decide (len ≠ size) || decide ((crc32 (l.drop 64)).toNat ≠ bitsOf (q 3) 31 0) then none
  else
    let zeros := fun (a b : Nat) => ((l.drop a).take (b - a)).all (fun x => decide (x = 0))
    let classes := (List.range v).map (fun i => leAt l (c0 + 2 * i) 2)
    let sw := (List.range ns).map (fun i => leAt l (s0 + 8 * i) 8)
    let tw := (List.range nt).map (fun i => (leAt l (t0 + 16 * i) 8, leAt l (t0 + 16 * i + 8) 8))
    let trans := tw.map (fun w =>
      let n := bitsOf w.1 52 51
      (⟨bitsOf w.1 15 0, bitsOf w.1 31 16, bitsOf w.1 47 32, bitsOf w.1 50 48, [bitsOf w.2 15 0, bitsOf w.2 31 16].take n⟩ : GTrans))
    let tOk := fun (p : (Nat × Nat) × GTrans) =>
      let n := bitsOf p.1.1 52 51
      decide (n ≤ 2 ∧ bitsOf p.1.1 63 53 = 0 ∧ bitsOf p.1.2 63 32 = 0 ∧ p.2.cls < nc ∧ p.2.next < ns)
      && p.2.push.all (fun x => decide (x ≤ 0xFFFD)) && decide (n = 2 ∨ bitsOf p.1.2 31 16 = 0) && decide (n ≠ 0 ∨ bitsOf p.1.2 15 0 = 0)
    let count := fun (w : Nat) => if bitOf w 49 then 0 else bitsOf w 47 32 + 1
    let sOk := fun (w : Nat) =>
      decide (bitsOf w 63 50 = 0 ∧ bitsOf w 31 0 + count w ≤ nt) && (!bitOf w 49 || decide (bitsOf w 47 0 = 0))
      && (let ts := (trans.drop (bitsOf w 31 0)).take (count w)
          (ts.zip (ts.drop 1)).all (fun p => decide (p.1.cls < p.2.cls ∨ (p.1.cls = p.2.cls ∧ p.1.top < p.2.top))))
    if classes.all (fun c => decide (c < nc ∨ c = 0xFFFF)) && sw.all sOk && (tw.zip trans).all tOk
        && zeros (c0 + 2 * v) s0 && zeros (s0 + 8 * ns) t0 && zeros (t0 + 16 * nt) size then
      some { tenant := 0, state := 2, unloaded := false, vocab := v, start := start, classes := classes
             states := sw.map (fun w => ((trans.drop (bitsOf w 31 0)).take (count w), bitOf w 48))
             firsts := sw.map (fun w => bitsOf w 31 0), frames := [], bytes := len }
    else none

/-- Apply GRAMMAR_LOAD: the image is checked and placed whole, and its ID reported. -/
def doGrammarLoad (ring tag image len : Nat) (s : State) : State :=
  let (code, l) := readImage (issuer ring) image len s
  let s := readFx (issuer ring) image len s
  let fail := fun (st : Nat) => completion ring 0x12 st tag 0 0 0 s
  if code = 1 then fail 1
  else if code = 2 then hostFail ring 0x12 tag s
  else match (if code = 3 then none else parseGrammar len l) with
    | none => fail 6
    | some g =>
      let id := (List.range (min 1024 (s.grammars.length + 1))).find? (fun i => (grammarOf s i).isNone)
      let total := (s.grammars.map (fun p => (p.2.map (fun x => x.bytes)).getD 0)).sum
      match id, bulkFrames s (cdiv len 65536) with
      | some i, some ks =>
        if total + len > 2 ^ 32 then fail 5
        else
          let gr := freeGranules s ks.length
          let s1 := takeBulk gr ks (.grammar i) false none none s
          let s2 := ks.zipIdx.foldl (fun s k => modFrame k.1 (fun f => { f with filling := false })
            (writeWhole k.1 ((((l.drop (65536 * k.2)).take 65536).zipIdx).map (fun b => (b.2, b.1))) [] s)) s1
          let rec1 : GrammarRec := { g with tenant := ring, frames := (List.range ks.length).map (fun k => gr + k) }
          let s3 : State := { s2 with grammars := tset none s2.grammars i (some rec1) }
          completion ring 0x12 0 tag i 0 0 s3
      | _, _ => fail 5

/-- GRAMMAR_LOAD (R282). -/
def execGrammarLoad (ring tag image len : Nat) (s : State) : Res := .next (guardRing ring 0x12 tag (doGrammarLoad ring tag image len) s)

/-- Free the grammars that were unloaded and that no order in use names (R282, R283). -/
def sweepGrammars (s : State) : State :=
  s.grammars.foldl (fun s p => match p.2 with
    | none => s
    | some g =>
      if g.unloaded && !s.book.orders.any (fun o => decide (o.2.state ≠ 0 ∧ o.2.grammar = p.1) && o.2.grammarEn) then
        let s1 := g.frames.foldl (fun s x => freeGranule x s) s
        { s1 with grammars := tset none s1.grammars p.1 none }
      else s) s

/-- Apply GRAMMAR_UNLOAD: draining at once; a broken grammar stays broken until it is freed. -/
def doGrammarUnload (ring tag g : Nat) (s : State) : State :=
  match grammarOf s g with
  | none => completion ring 0x13 1 tag 0 0 0 s
  | some x =>
    if x.tenant ≠ ring then completion ring 0x13 3 tag 0 0 0 s
    else if x.unloaded then completion ring 0x13 1 tag 0 0 0 s
    else
      let y : GrammarRec := { x with unloaded := true, state := if x.state = 2 then 3 else x.state }
      completion ring 0x13 0 tag 0 0 0 { s with grammars := tset none s.grammars g (some y) }

/-- GRAMMAR_UNLOAD (R282). -/
def execGrammarUnload (ring tag grammar : Nat) (s : State) : Res := .next (guardRing ring 0x13 tag (doGrammarUnload ring tag grammar) s)

/-! ### Mappings (R440) -/

/-- Map one page of a stack mapping. -/
def mapPage (t va size : Nat) (s : State) : State × Bool :=
  let k := size / 65536
  match bulkFrames s k with
  | none => (s, false)
  | some ks =>
    let g := alignedGranules s k k
    (addXlate (some t) ⟨va, size, g * 65536, size, none⟩ (takeBulk g ks (.mapping t) false (some t) none s), true)

/-- Apply MAP. -/
def doMap (ring tag addr size page : Nat) (wh : Bool) (quarter : Nat) (s : State) : State :=
  let pg := match page with | 0 => 65536 | 1 => 2097152 | _ => 1073741824
  let fail := fun (st : Nat) => completion ring 0x18 st tag 0 0 0 s
  let region := if wh then decide (0x010000000000 ≤ addr ∧ addr + size ≤ 0x010010000000 ∧ whPageOf addr / 1024 = quarter
      ∧ whPageOf (addr + size - 1) / 1024 = quarter) else decide (addr + size ≤ 0x00C000000000)
  if page ≥ 3 ∨ (wh ∧ page ≠ 0) ∨ size = 0 ∨ size % pg ≠ 0 ∨ addr % pg ≠ 0 ∨ !region ∨ xlateMeets s ring addr size then fail 1
  else if !memAllows s ring (size / 65536) then fail 4
  else
    let done := fun (s1 : State) => completion ring 0x18 0 tag 0 0 0
      { s1 with jobs := { s1.jobs with maps := s1.jobs.maps ++ [⟨ring, addr, size, wh⟩] } }
    if wh then
      let ps := (whFree s quarter).take (size / 65536)
      if ps.length < size / 65536 then fail 5
      else done (ps.zipIdx.foldl (fun s p => addXlate (some ring) ⟨addr + 65536 * p.2, 65536, whAddr p.1, 65536, none⟩ s) (takePages ps (ring + 1) s))
    else
      let (s1, ok) := (List.range (size / pg)).foldl (fun (a : State × Bool) i => if a.2 then mapPage ring (addr + pg * i) pg a.1 else a) (s, true)
      if ok then done s1 else fail 5

/-- MAP (R440). -/
def execMap (ring tag addr size page : Nat) (wh : Bool) (quarter : Nat) (s : State) : Res :=
  .next (guardRing ring 0x18 tag (doMap ring tag addr size page wh quarter) s)

/-- Apply UNMAP: exactly one earlier MAP; its memory is freed at the next boundary, with the completion (R367). -/
def doUnmap (ring tag addr size : Nat) (s : State) : State :=
  if s.jobs.maps.any (fun m => decide (m.tenant = ring ∧ m.va = addr ∧ m.size = size)) then
    let s1 := dropXlates ring (fun x => decide (x.model = none ∧ addr ≤ x.va ∧ x.va < addr + size)) s
    let s2 := { s1 with jobs := { s1.jobs with maps := s1.jobs.maps.filter (fun m => !(decide (m.tenant = ring ∧ m.va = addr ∧ m.size = size))) } }
    addJob { mkJob 0x19 ring tag addr 0 s2 with len := size } s2
  else completion ring 0x19 1 tag 0 0 0 s

/-- UNMAP (R440). -/
def execUnmap (ring tag addr size : Nat) (s : State) : Res := .next (guardRing ring 0x19 tag (doUnmap ring tag addr size) s)

/-! ### COPY and SIGNAL (R440) -/

/-- The regions that a COPY may name: stack memory, a warehouse, host memory. -/
def copyRange (s : State) (ten : Option Nat) (A n : Nat) : Bool :=
  (List.range n).all (fun i => match resolve s ten (A + i) with | .stack _ | .warehouse _ | .host _ => true | _ => false)

/-- Bytes of a range that lie in host memory, and sectors in stack memory. -/
def hostBytes (s : State) (ten : Option Nat) (A n : Nat) : Nat :=
  ((List.range n).filter (fun i => match resolve s ten (A + i) with | .host _ => true | _ => false)).length

/-- Apply COPY at the scan: PARAM, CLASS or TALLY, or it becomes a candidate of tiles of at most 1 MiB. -/
def doCopy (ring tag : Nat) (lc : Bool) (src dst len : Nat) (sig : Option (Nat × Nat)) (s : State) : State :=
  let ten := issuer ring
  let fail := fun (st : Nat) => completion ring 0x1A st tag 0 0 0 s
  if len = 0 ∨ len ≥ 2 ^ 32 ∨ (src < dst + len ∧ dst < src + len) ∨ !copyRange s ten src len ∨ !copyRange s ten dst len then fail 1
  else if !lcAllowed s ring lc then fail 0xB
  else if (sig.map (fun p => !tallyAllowed s ten p.1)).getD false then fail 0xE
  else
    let secs := sectorsOf s ten src len ++ sectorsOf s ten dst len
    let energy := len * 236 / 100 + 219 * secs.length + 35 * (hostBytes s ten src len + hostBytes s ten dst len)
    let gang := (secs.map (fun k => k / 2 ^ 30)).eraseDups
    let s1 := addJob { mkJob 0x1A ring tag src dst s with len := len, tally := sig } s
    addCopy 5 src ten lc false none ring tag gang len energy (nextJob s) s1

/-- COPY (R440). -/
def execCopy (ring tag : Nat) (lc : Bool) (src dst len tally inc : Nat) (sigEn : Bool) (s : State) : Res :=
  .next (guardRing ring 0x1A tag (doCopy ring tag lc src dst len (if sigEn then some (tally, inc) else none)) s)

/-- Move the bytes of a COPY up to the first failed host read: the state, the bytes moved, whether a sector was poisoned. -/
def copyBytes (ten : Option Nat) (src dst len : Nat) (s : State) : State × Nat × Bool :=
  let bad := (List.range len).find? (fun i => match resolve s ten (src + i) with | .host h => (hostRead s h 1).isNone | _ => false)
  let n := bad.getD len
  let src1 := (List.range n).map (fun i => (i, (byteAt s ten (src + i)).getD (0, 2)))
  let s1 := (sectorsOf s ten src n).foldl (fun s sk => touchRead sk s) s
  -- runs by destination sector: clean bytes are written, a sector that takes a poisoned byte is poisoned; host bytes of a poisoned sector stay
  let secs := (src1.map (fun p => (dst + p.1) / 64)).eraseDups
  let s2 := secs.foldl (fun s k =>
    let bs := src1.filter (fun p => decide ((dst + p.1) / 64 = k))
    let poison := bs.any (fun p => decide (p.2.2 ≠ 0))
    let a := dst + (bs.headD (0, 0, 0)).1
    if !poison then (writeDev ten a (bs.map (fun p => p.2.1)) s).1
    else poisonRange ten a bs.length s) s1
  (s2, n, src1.any (fun p => decide (p.2.2 ≠ 0)))

/-- COPY_DONE (R440): every tile has been admitted and every write performed; the tally signal follows as a release. -/
def execCopyDone (ring tag : Nat) (s : State) : Res :=
  match jobOf s 0x1A ring tag with
  | none => .next s
  | some j =>
    if !(jobCands s j.id).isEmpty then .next s
    else
      let ten := issuer ring
      let (s1, n, poison) := copyBytes ten j.a j.b j.len s
      let s2 := bump 0x200150 n (dropJob j.id s1)
      if n < j.len then .next (completion ring 0x1A 8 tag n 0 0 (bump 0x200148 1 s2))
      else
        let s3 := match j.tally with | some (t, i) => signalWork 65536 ten t i s2 | none => s2
        .next (completion ring 0x1A (if poison then 0xD else 0) tag n 0 0 s3)

/-- Apply SIGNAL at the scan. -/
def doSignal (ring tag : Nat) (cpl : Bool) (tally inc : Nat) (s : State) : State :=
  if !tallyAllowed s (issuer ring) tally then completion ring 0x1B 0xE tag 0 0 0 s
  else
    let s1 := signalWork 65536 (issuer ring) tally inc s
    if cpl then completion ring 0x1B 0 tag 0 0 0 s1 else s1

/-- SIGNAL (R440). -/
def execSignal (ring tag : Nat) (cpl : Bool) (tally inc : Nat) (s : State) : Res :=
  .next (guardRing ring 0x1B tag (doSignal ring tag cpl tally inc) s)

/-! ### RUN and CANCEL (R440) -/

/-- Apply RUN at the scan: its pieces enter the scheduler. -/
def doRun (ring tag : Nat) (lc : Bool) (model program args : Nat) (s : State) : State :=
  let fail := fun (st : Nat) => completion ring 0x20 st tag 0 0 0 s
  match modelOf s model with
  | none => fail 1
  | some m =>
    if m.tenant ≠ ring then fail 3
    else match (if m.loading ∨ m.unloading then none else m.entries[program]?) with
      | none => fail 1
      | some ws =>
        if !lcAllowed s ring lc then fail 0xB
        else if ring < 4096 ∧ (s.jobs.jobs.filter (fun j => decide (j.op = 0x20 ∧ j.ring = ring))).length ≥ 1024 then fail 4
        else enterItems ws (issuer ring) lc none ring tag model (nextJob s)
          (addJob { mkJob 0x20 ring tag model program s with args := args } s)

/-- RUN (R440). -/
def execRun (ring tag : Nat) (lc : Bool) (model program args : Nat) (s : State) : Res :=
  .next (guardRing ring 0x20 tag (doRun ring tag lc model program args) s)

/-- Apply CANCEL at the scan. -/
def doCancel (ring tag : Nat) (cpl : Bool) (runTag : Nat) (s : State) : State :=
  match s.jobs.jobs.find? (fun j => decide (j.op = 0x20 ∧ j.ring = ring ∧ j.tag = runTag) && !j.cancelled) with
  | none => completion ring 0x21 1 tag 0 0 0 s
  | some j =>
    let s1 := cancelRun j s
    if cpl then completion ring 0x21 0 tag 0 0 0 s1 else s1

/-- CANCEL (R440). -/
def execCancel (ring tag : Nat) (cpl : Bool) (runTag : Nat) (s : State) : Res :=
  .next (guardRing ring 0x21 tag (doCancel ring tag cpl runTag) s)

/-- A RUN whose work has all completed or ended is answered, and its tag is free again (R588). -/
def completeRun (j : Job) (s : State) : State :=
  let busy := (j.ctx.map (fun c => ctxBusy s c || s.sched.ending.any (fun e => decide (e.1 = c)))).getD false
  if busy || !(jobCands s j.id).isEmpty then s
  else
    let fault := j.ctx.bind (fun c => (ctxOf s c).bind (fun x => x.fault))
    let s1 := match j.ctx with
      | some c => { s with sched := { s.sched with ctxs := tset none s.sched.ctxs c none } }
      | none => s
    let (st, d, i) := if j.cancelled then (0xA, 0, 0) else match fault with | some f => (9, f.1, f.2) | none => (0, 0, 0)
    completion j.ring 0x20 st j.tag (j.ctx.getD 0) d i (dropJob j.id s1)

/-- RUN_COMPLETE (R440). -/
def execRunComplete (ring tag : Nat) (s : State) : Res :=
  .next (match jobOf s 0x20 ring tag with | some j => completeRun j s | none => s)

/-! ### Tenants (R442) -/

/-- Is a tenant disabled, with nothing of it left? -/
def tenantOff (s : State) (t : Nat) : Bool :=
  !s.book.enabled.contains t && !s.jobs.jobs.any (fun j => decide (j.op = 0x31 ∧ j.a = t))

/-- Apply TENANT_ENABLE. -/
def doTenantEnable (tag t : Nat) (s : State) : State :=
  if t < 4096 ∧ s.host.vfEnable ∧ s.host.numVfs > t ∧ tenantOff s t ∧ setOk (ringOf s t) then
    completion opRing 0x30 0 tag 0 0 0 (enableTenant t s)
  else completion opRing 0x30 1 tag 0 0 0 s

/-- TENANT_ENABLE (R442). -/
def execTenantEnable (ring tag tenant : Nat) (s : State) : Res := .next (guardRing ring 0x30 tag (doTenantEnable tag tenant) s)

/-- Disable a tenant, with what follows: 0 a completion to the operator, 1 it is enabled again, 2 nothing. -/
def startDisable (tag t after : Nat) (s : State) : State :=
  let s1 := disableTenant t s
  let s2 := { s1 with book := { s1.book with enabled := s1.book.enabled.filter (fun x => decide (x ≠ t)) } }
  addJob (mkJob 0x31 opRing tag t after s2) s2

/-- TENANT_DISABLE (R442). -/
def execTenantDisable (ring tag tenant : Nat) (s : State) : Res :=
  .next (guardRing ring 0x31 tag (fun s => if tenant < 4096 then startDisable tag tenant 0 s else completion opRing 0x31 1 tag 0 0 0 s) s)

/-- The models of a tenant that is being disabled are freed once no order and no RUN uses them (R441, R442). -/
def freeTenantModels (t : Nat) (s : State) : State :=
  s.book.models.foldl (fun s p => match p.2 with
    | some m => if m.tenant = t ∧ modelBusy s p.1 = false then freeModel p.1 s else s
    | none => s) s

/-- A tenant of which nothing remains: its key goes, the command is answered or the tenant is enabled again. -/
def finishDisable (j : Job) (s : State) : State :=
  if tenantRemains s j.a then s
  else
    let s1 := audit 0x0C 0 j.a 1 0 0 (dropJob j.id { s with book := { s.book with keys := s.book.keys.filter (fun x => decide (x ≠ j.a)) } })
    match j.b with
    | 0 => completion opRing 0x31 0 j.tag 0 0 0 s1
    | 1 => if s1.host.vfEnable ∧ s1.host.numVfs > j.a then enableTenant j.a s1 else s1
    | _ => s1

/-! ### Firmware (R443) -/

/-- Apply BENCH_FW: signature, then the image's own checks; the shops take it at a boundary (R108). -/
def doBenchFw (tag image shop : Nat) (sigOk : Bool) (s : State) : State :=
  let units := if shop = 0x1FF then (List.range 320).filter (shopPresent s) else [shop]
  if shop ≠ 0x1FF ∧ !shopPresent s shop then completion opRing 0x32 1 tag 0 0 0 s
  else
  let (c1, h) := readImage none image 32 s
  let n := if c1 = 0 then leAt h 8 2 else 0
  let (c2, l) := readImage none (image + 32) (4 * n) s
  let s := readFx none (image + 32) (4 * n) (readFx none image 32 s)
  let fail := fun (st : Nat) => completion opRing 0x32 st tag 0 0 0 s
  if c1 = 1 ∨ c2 = 1 then fail 1
  else if c1 = 2 ∨ c2 = 2 then hostFail opRing 0x32 tag s
  else if !sigOk then fail 0xC
  else if c1 ≠ 0 ∨ c2 ≠ 0 ∨ !benchHdrOk 1 1024 h ∨ (crc32 l).toNat ≠ leAt h 12 4 then fail 6
  else if units.isEmpty then completion opRing 0x32 0 tag 0 0 0 s
  else
    let s1 := units.foldl (fun s k => modShop k (fun sh => { sh with fwPending := some (leAt h 6 2, leAt h 12 4, imageWords l n) }) s) s
    { s1 with host := { s1.host with fwWaits := s1.host.fwWaits ++ [⟨false, tag, units, 0⟩] } }

/-- BENCH_FW (R443). -/
def execBenchFw (ring tag image shop : Nat) (sigOk : Bool) (s : State) : Res := .next (guardRing ring 0x32 tag (doBenchFw tag image shop sigOk) s)

/-- Apply FULLER_LIB. -/
def doFullerLib (tag image stack : Nat) (sigOk : Bool) (lib : Nat × Nat × List RoutineImg) (s : State) : State :=
  let units := if stack = 0xF then (List.range 12).filter (stackPresent s) else [stack]
  if stack ≠ 0xF ∧ !stackPresent s stack then completion opRing 0x33 1 tag 0 0 0 s
  else
  let len := 32 + 8 * ((lib.2.2.map (fun r => r.code.length)).foldl max 0)
  let (c1, _) := readImage none image len s
  let s := readFx none image len s
  let fail := fun (st : Nat) => completion opRing 0x33 st tag 0 0 0 s
  if c1 = 1 then fail 1
  else if c1 = 2 then hostFail opRing 0x33 tag s
  else if !sigOk then fail 0xC
  else if c1 ≠ 0 ∨ !(lib.2.2.all (fun r => routineOk r && r.typ == 1)) then fail 6
  else if units.isEmpty then completion opRing 0x33 0 tag 0 0 0 s
  else
    let s1 := units.foldl (fun s k => modFul k (fun x => { x with libPending := some lib }) s) s
    { s1 with host := { s1.host with fwWaits := s1.host.fwWaits ++ [⟨true, tag, units, 0⟩] } }

/-- FULLER_LIB (R443). -/
def execFullerLib (ring tag image stack : Nat) (sigOk : Bool) (version crc : Nat) (lib : List RoutineImg) (s : State) : Res :=
  .next (guardRing ring 0x33 tag (doFullerLib tag image stack sigOk (version, crc, lib)) s)

/-! ### Applying a ring entry (R434, R436, R437) -/

/-- Apply one entry at its time. -/
def applyEntry (ins : List CmdIn) (e : QEntry) (s : State) : State :=
  let q := fun (i : Nat) => (e.words[i]?).getD 0
  let op := q 0 % 256
  let tag := bitsOf (q 0) 63 32
  let cpl := bitOf (q 0) 8
  let lc := bitOf (q 0) 9
  let o := bitsOf (q 1) 15 0
  let g := bitsOf (q 1) 31 16
  let r := e.ring
  let x := ins.find? (fun i => decide (i.ring = r ∧ i.tag = tag))
  let img := (x.bind (fun i => i.img)).getD ⟨some 0, 0, [], [], [], [], [], [], [], [], [], 0, [], [], [], [], []⟩
  guardRing r op tag (fun s => forwardEntry r (e.words.take 4) <|
    if !entryOk e.words then
      (if op ≤ 0x0B then refuseCmd r tag op (if op = 1 ∨ op = 9 then none else some (o, g)) 6 s else completion r op 1 tag 0 0 0 s)
    else match op with
    | 0x01 => applyOpen r tag cpl ⟨bitsOf (q 1) 11 0, lc, bitOf (q 1) 12, bitOf (q 1) 13, bitsOf (q 1) 23 14, bitsOf (q 1) 39 24,
        bitsOf (q 1) 55 40, bitsOf (q 2) 16 0, bitsOf (q 2) 63 32, q 3⟩ s
    | 0x02 => applyFeed r tag cpl o g (q 2) (bitsOf (q 3) 20 0) (bitsOf (q 3) 41 21) (bitOf (q 3) 42) e.scan s
    | 0x03 => applyStop r tag cpl o g s
    | 0x04 => applyTruncate r tag cpl o g (bitsOf (q 2) 24 0) s
    | 0x05 => applyCellar r tag cpl o g s
    | 0x06 => applyRecall r tag cpl o g s
    | 0x07 => applySetTtl r tag cpl o g (bitsOf (q 2) 16 0) e.scan s
    | 0x08 => applyStorePrefix r tag cpl o g (q 2) (bitsOf (q 3) 15 0) s
    | 0x09 => applyDropPrefixes r tag cpl (bitsOf (q 1) 11 0) s
    | 0x0A => applyQuery r tag cpl o g s
    | 0x0B => applyClose r tag cpl o g s
    | 0x0C => applyForceClose tag o s
    | 0x10 => doModelLoad r tag (q 1) (bitsOf (q 2) 47 0) img s
    | 0x11 => doModelUnload r tag (bitsOf (q 1) 11 0) s
    | 0x12 => doGrammarLoad r tag (q 1) (bitsOf (q 2) 47 0) s
    | 0x13 => doGrammarUnload r tag (bitsOf (q 1) 9 0) s
    | 0x18 => doMap r tag (bitsOf (q 1) 47 0) (bitsOf (q 2) 47 0) (bitsOf (q 3) 1 0) (bitOf (q 3) 2) (bitsOf (q 3) 4 3) s
    | 0x19 => doUnmap r tag (bitsOf (q 1) 47 0) (bitsOf (q 2) 47 0) s
    | 0x1A => doCopy r tag lc (q 1) (q 2) (bitsOf (q 3) 31 0)
        (if bitOf (q 4) 48 then some (bitsOf (q 4) 15 0, bitsOf (q 4) 47 16) else none) s
    | 0x1B => doSignal r tag cpl (bitsOf (q 1) 15 0) (bitsOf (q 1) 47 16) s
    | 0x20 => doRun r tag lc (bitsOf (q 1) 11 0) (bitsOf (q 1) 27 12) (q 2) s
    | 0x21 => doCancel r tag cpl (bitsOf (q 1) 31 0) s
    | 0x30 => doTenantEnable tag (bitsOf (q 1) 11 0) s
    | 0x31 => startDisable tag (bitsOf (q 1) 11 0) 0 s
    | 0x32 => doBenchFw tag (q 1) (bitsOf (q 2) 8 0) ((x.map (fun i => i.sigOk)).getD false) s
    | _ => doFullerLib tag (q 1) (bitsOf (q 2) 3 0) ((x.map (fun i => i.sigOk)).getD false) ((x.map (fun i => i.lib)).getD (0, 0, [])) s) s

/-- Is an entry applied at the scan (Table 17.4), or answered at once as unknown or out of place? -/
def atScan (e : QEntry) : Bool :=
  let op := (e.words.headD 0) % 256
  match opRings op with
  | none => true
  | some (t, o) => !(if e.ring = opRing then o else t) || ([0x1A, 0x1B, 0x20, 0x21] : List Nat).contains op

/-- Take an entry that a scan has read: applied now, or behind its ring's earlier entries at the boundary (R434). -/
def takeEntry (ins : List CmdIn) (e : QEntry) (s : State) : State :=
  if atScan e && !s.host.waiting.any (fun w => decide (w.ring = e.ring)) then applyEntry ins e s
  else { s with host := { s.host with waiting := s.host.waiting ++ [e] } }

/-- Step 3 of Table 10.6 for the entries that a boundary applies: the operator's ring, then tenants ascending, each in ring order. -/
def applyWaiting (ins : List CmdIn) (time : Nat) (s : State) : State :=
  let key : Nat → Nat := fun r => if r = opRing then 0 else r + 1
  let due := s.host.waiting.filter (fun e => decide (e.scan ≤ time))
  let rings := sortBy key ((due.map (fun e => e.ring)).eraseDups)
  let s1 := { s with host := { s.host with waiting := s.host.waiting.filter (fun e => !(decide (e.scan ≤ time))) } }
  rings.foldl (fun s r => (due.filter (fun e => decide (e.ring = r))).foldl (fun s e => applyEntry ins e s) s) s1

/-! ### Doorbell scans (R430 to R435, R449, R451) -/

/-- RING_ERROR of a set: to the operator, and to the tenant whose set it is. -/
def ringError (set cause : Nat) (s : State) : State :=
  let s1 := bump 0x200140 1 (emitOp 0x0B 0x03 0 [set, cause] s)
  if set < 4096 then emit set (mkRec s1 0x0B 0x03 0 0 none [set, cause]) s1 else s1

/-- The event doorbell of a set: HEAD, ARM, and the overflow store's drain. -/
def scanEvents (set : Nat) (blk : List Byte) (s : State) : State :=
  let off := if set = opRing then 8 else 24 + 16 * set
  let w := leAt blk off 8
  let head := bitsOf w 31 0
  let r := ringOf s set
  let good := decide ((r.produced + 2 ^ 32 - head) % 2 ^ 32 ≤ 2 ^ r.eqLog)
  let s1 :=
    if r.fresh then modRing set (fun r => { r with produced := head, head := head, fresh := false }) s
    else if good then modRing set (fun r => { r with head := head, badHead := false }) s
    else if r.badHead then s
    else ringError set 2 (modRing set (fun r => { r with badHead := true }) s)
  let s2 := if (r.fresh || good) && bitOf w 32 && decide ((ringOf s1 set).lastMsg ≠ some head) then
    modRing set (fun r => { r with armed := true }) s1 else s1
  msixCheck set (drainStore (ringOf s2 set).store.length set s2)

/-- Read entries of a ring from its consumed count: those read before the first failure, and whether one failed. -/
def readEntries (s : State) (r : RingSet) : Nat → Nat → List (List Nat) × Bool
  | 0, _ => ([], false)
  | k + 1, c => match hostRead s (r.sqBase + c % 2 ^ r.sqLog * 64) 64 with
    | none => ([], true)
    | some l =>
      let (t, f) := readEntries s r k ((c + 1) % 2 ^ 32)
      ((List.range 8).map (fun i => leAt l (8 * i) 8) :: t, f)

/-- The submission doorbell of a set: at most `room` entries are read. The answer: state, entries, whether the ring was read in full. -/
def scanSubmissions (set : Nat) (wasFresh : Bool) (blk : List Byte) (room : Nat) (s : State) : State × List (List Nat) × Bool :=
  let off := if set = opRing then 0 else 16 + 16 * set
  let tail := bitsOf (leAt blk off 8) 31 0
  let r := ringOf s set
  if wasFresh then (modRing set (fun r => { r with consumed := tail }) s, [], true)
  else if r.stopped then (s, [], true)
  else
    let d := (tail + 2 ^ 32 - r.consumed) % 2 ^ 32
    if d > 2 ^ r.sqLog then
      (if r.badTail then s else ringError set 1 (modRing set (fun r => { r with badTail := true }) s), [], true)
    else
      let k := min d (min 256 room)
      let (l, failed) := readEntries s r k r.consumed
      let s1 := bump 0x200110 l.length (modRing set (fun r => { r with
        consumed := (r.consumed + l.length) % 2 ^ 32, badTail := false, failScans := if failed then r.failScans + 1 else 0 }) s)
      let s2 := if failed then bump 0x200148 1 s1 else s1
      let s3 := if (ringOf s2 set).failScans ≥ 3 then ringError set 4 (modRing set (fun r => { r with stopped := true }) s2) else s2
      (s3, l, decide (l.length = d))

/-- NOT_READY for an entry read before READY (R444). -/
def notReady (words : List Nat) (s : State) : State :=
  emit opRing (mkRec s 0x0B 0x01 0 (bitsOf (words.headD 0) 63 32) none [(words.headD 0) % 256]) s

/-- One scan at a time (R432): the whole doorbell block, then the entries; before READY only the operator's. -/
def scan (ins : List CmdIn) (time : Nat) (s : State) : State :=
  if rfield s 0x200000 0 0 = 0 then s
  else
    let s0 := bump 0x200100 1 { s with host := { s.host with lastScan := time } }
    match hostRead s0 (rget s0 0x200000 / 4096 * 4096) 65552 with
    | none => ringError opRing 3 (bump 0x200148 1 s0)
    | some blk =>
      let on := (s0.host.rings.filter (fun p => p.2.started && (s0.ready || decide (p.1 = opRing)))).map Prod.fst
      let key : Nat → Nat := fun t => (t + 4095 - s0.host.lastFull) % 4096
      let order := (on.filter (fun t => decide (t = opRing))) ++ sortBy key (on.filter (fun t => decide (t ≠ opRing)))
      let (s1, es, _) := order.foldl (fun (a : State × List QEntry × Nat) set =>
        let fresh := (ringOf a.1 set).fresh
        let s1 := scanEvents set blk a.1
        let (s2, l, full) := scanSubmissions set fresh blk a.2.2 s1
        let s3 := if full && decide (set ≠ opRing) then { s2 with host := { s2.host with lastFull := set } } else s2
        (s3, a.2.1 ++ l.map (fun w => ⟨set, time, w⟩), a.2.2 - l.length)) (s0, [], 4096)
      if s1.ready then es.foldl (fun s e => takeEntry ins e s) s1
      else es.foldl (fun s e => notReady e.words s) s1

/-! ### The doorbell block and the endpoint's resets (R427, R428, R457) -/

/-- A write of HQ_DB_BASE (R457): BASE changes only while EN was 0; EN starts and stops the operator's set. -/
def setDbBase (value : Nat) (s : State) : State :=
  let old := rget s 0x200000
  let en := bitOf value 0
  let base := value / 4096
  if bitOf old 0 then
    let s1 := rset 0x200000 (old / 4096 * 4096 + b2n en) s
    let s2 := if base ≠ old / 4096 then accessFault 0x200000 s1 else s1
    if en then s2 else stopSet opRing s2
  else
    let s1 := rset 0x200000 (base * 4096 + b2n en) s
    if en ∧ setOk (ringOf s1 opRing) then startSet opRing s1 else s1

/-- HQ_DB_BASE (R457). -/
def execHqDbBase (value : Nat) (s : State) : Res := .next (setDbBase value s)

/-- Disable every tenant that is enabled and meets a condition. -/
def disableSome (p : Nat → Bool) (s : State) : State :=
  (s.book.enabled.filter p).foldl (fun s t => startDisable 0 t 2 s) s

/-- The effects of a PF FLR (R428): tenants disabled, VF Enable cleared, the operator's runs cancelled, the HQ block at its reset values. -/
def pfReset (s : State) : State :=
  let s1 := disableSome (fun _ => true) (closeChannel 0 s)
  let quiet := s1.jobs.jobs.map (fun (j : Job) => if j.op = 0x31 then { j with b := 2 } else j)
  let s2 : State := { s1 with jobs := { s1.jobs with jobs := quiet } }
  let s3 := (s2.jobs.jobs.filter (fun j => decide (j.op = 0x20 ∧ j.ring = opRing))).foldl (fun s j => cancelRun j s) s2
  let inHq := fun (k : Nat) => decide (0x200000 ≤ k % 2 ^ 32 ∧ k % 2 ^ 32 < 0x300000)
  { s3 with
    host := { s3.host with rings := [], vfEnable := false, numVfs := 0, waiting := [], lastFull := 4095, scanHeld := false }
    regs := { s3.regs with
      vals := s3.regs.vals.filter (fun p => !inHq p.1), old := s3.regs.old.filter (fun p => !inHq p.1)
      live := s3.regs.live.filter (fun p => !inHq p.1), latched := s3.regs.latched.filter (fun p => !inHq p.1) } }

/-- PF_FLR (R428). -/
def execPfFlr (s : State) : Res := .next (pfReset s)

/-- PERST_ASSERT (R428): the effects of a PF FLR, and the link is down. -/
def execPerstAssert (s : State) : Res :=
  let s1 := pfReset s
  .next { s1 with host := { s1.host with perst := true, linkUp := false, width := 0, speed := 0 } }

/-- PERST_RELEASE (R428): the link may come up. -/
def execPerstRelease (time : Nat) (s : State) : Res :=
  let s1 := atTime time s
  .next { s1 with host := { s1.host with perst := false, perstRelease := s1.now } }

/-- VF_FLR (R428): the VF's tenant is disabled and then enabled again. -/
def execVfFlr (vf : Nat) (s : State) : Res :=
  .next (if 1 ≤ vf ∧ s.book.enabled.contains (vf - 1) = true then startDisable 0 (vf - 1) 1 s else s)

/-- VF_ENABLE_CLEAR (R427): VF Enable and NumVFs as the host writes them; the tenants they leave out are disabled. -/
def execVfEnableClear (enable : Bool) (numVfs : Nat) (s : State) : Res :=
  let s1 := { s with host := { s.host with vfEnable := enable, numVfs := min numVfs 4096 } }
  .next (disableSome (fun t => !enable || decide (t ≥ numVfs)) s1)

/-- The whole GT/s of a speed code. -/
def gts (speed : Nat) : Nat := (([0, 2, 5, 8, 16, 32, 64] : List Nat)[speed]?).getD 0

/-- LINK_DEGRADED (R426): the link trains at a width and speed; below x16 at 64 GT/s it is reported. -/
def execLinkDegraded (width speed : Nat) (s : State) : Res :=
  if s.host.perst then .next s
  else
    let s1 := { s with host := { s.host with linkUp := true, width := width, speed := speed } }
    .next (if width < 16 ∨ speed < 6 then emitOp 0x0B 0x06 0 [width, gts speed] s1 else s1)

/-! ### Far ports (R453 to R455) -/

def modFar (p : Nat) (f : FarPort → FarPort) (s : State) : State :=
  { s with book := { s.book with far := tmod FarPort.reset s.book.far p f } }

/-- A far RAS event: CXL event type, or the cause of a port's going down. -/
def farEvent (p detail : Nat) (s : State) : State := rasLog 0x11 6 (unitWord 7 p 0) 0 0 ownerDev detail s

/-- FAR_ENUMERATE (R453): an enabled port with a device is enumerated; one outside Table 17.14 leaves the port UNSUPPORTED. -/
def execFarEnumerate (port : Nat) (supported : Bool) (width speed capacity : Nat) (s : State) : Res :=
  if port ≥ 4 then .next s
  else if inForce s (0x1200000 + 8 * port) % 2 = 0 then .next (modFar port (fun f => { f with state := 0 }) s)
  else if !(farPort s port).present then .next (modFar port (fun f => { f with state := 1 }) s)
  else if supported then
    .next (modFar port (fun f => { f with state := 2, width := width, speed := speed, capacity := min capacity 67108864 }) s)
  else .next (farEvent port 0 (modFar port (fun f => { f with state := 5, width := width, speed := speed }) s))

/-- FAR_MEDIA_READY (R453). -/
def execFarMediaReady (port : Nat) (s : State) : Res :=
  .next (if port < 4 ∧ (farPort s port).state = 2 then modFar port (fun f => { f with state := 3 }) s else s)

/-- A port goes down (R455, R257): orders with units on it fault at the next boundary, cellarings that write to it abort. -/
def farDown (port state cause : Nat) (s : State) : State :=
  let hit := fun (us : List (Nat × Nat)) => us.any (fun u => decide (u.1 = port))
  let s1 := bump (0x1200118 + 0x20 * port) 1 (farEvent port cause (modFar port (fun f => { f with state := state }) s))
  s1.book.orders.foldl (fun s p =>
    let r := p.2
    if (r.state = 6 ∨ r.state = 7) ∧ hit ((r.image.map (fun i => i.units)).getD []) then
      modOrder p.1 (fun r => { r with faultPend := some (r.faultPend.getD (5, 0, 0)) }) s
    else if r.state = 5 ∧ hit ((r.copy.map (fun c => c.units)).getD []) then
      modOrder p.1 (fun r => { r with copy := r.copy.map (fun c => { c with failed := 1 }) }) s
    else s) s1

/-- FAR_PORT_DOWN (R455): causes 1 link, 2 no response within 10 ms, 3 not Media Ready. -/
def execFarPortDown (port cause : Nat) (s : State) : Res :=
  .next (if port < 4 ∧ (farPort s port).state = 3 then farDown port 4 cause s else s)

/-- FAR_DEVICE_EVENT (R453, R477): the entries of the device's event logs and poison list are reported. -/
def execFarDeviceEvent (port : Nat) (types : List Nat) (s : State) : Res :=
  .next (if port < 4 ∧ ((farPort s port).state = 2 ∨ (farPort s port).state = 3) then types.foldl (fun s t => farEvent port t s) s else s)

/-- FAR_PRSNT_N (R575): a device is attached (low) or removed (high); high leaves an enabled port at no device. -/
def execFarPrsntN (port : Nat) (high : Bool) (s : State) : Res :=
  if port ≥ 4 then .next s
  else
    let up := (farPort s port).state == 3
    let en := inForce s (0x1200000 + 8 * port) % 2 == 1
    let s1 := if high && up then farDown port 4 1 s else s
    .next (modFar port (fun f => { f with present := !high, state := if high && en && f.state != 6 then 1 else f.state }) s1)

end Sys2Proof.Machine
end

