-- ==== Sys2Proof/Machine/BalisRx.lean ====
section
/-! DEFINITION. Shared operations of the Balis rows (chapter 16): ports going up and down, packets arriving, requests performed for another
device, answers delivered to their issuers, collectives. -/

namespace Sys2Proof.Machine

/-! ### Reachability (R421, R264) -/

/-- Devices that the route table names. -/
def routedDevices (s : State) : List Nat :=
  ((s.regs.vals.map Prod.fst ++ s.regs.old.map Prod.fst).filter (fun k => decide (k % 2 ^ 32 = 0x1008018 ∧ inForce s k % 65536 ≠ 0))).map (· / 2 ^ 32)
    |>.eraseDups

/-- Orders of groups that hold a device fault with MEMBER_LOST. -/
def memberLost (dev : Nat) (s : State) : State :=
  { s with book := { s.book with orders := s.book.orders.map (fun p =>
      let g := orderGroup s p.1
      if p.2.state ≠ 0 ∧ g ≠ 0 ∧ (groupMembers s g).contains dev = true then
        (p.1, { p.2 with faultPend := some (p.2.faultPend.getD (6, 0, 0)) }) else p) } }

/-- DEVICE_UNREACHABLE and DEVICE_REACHABLE after the set of up ports has changed. -/
def routesChanged (s : State) : State :=
  let s1 := (routedDevices s).foldl (fun s d =>
    let up := !(routePorts s d).isEmpty
    if !up && !s.bal.unreachable.contains d then
      memberLost d (emitOp 0x07 0x04 0 [d] { s with bal := { s.bal with unreachable := s.bal.unreachable ++ [d] } })
    else if up && s.bal.unreachable.contains d then
      emitOp 0x07 0x05 0 [d] { s with bal := { s.bal with unreachable := s.bal.unreachable.filter (fun x => decide (x ≠ d)) } }
    else s) s
  pumpReqs s1

/-- A port goes down: PORT_DOWN, its waiting packets dropped (R422 recovers their requests), routes leave it out. Causes: 1 lanes, 2 signal,
3 reference, 4 equal device IDs (log entry 43, DESIGN CHOICE). -/
def portDown (n cause state : Nat) (s : State) : State :=
  let was := (portOf s n).state
  let s1 := modPort n (fun p => { p with
    state := state, retrain := s.now, lostAt := none, queue := [], credits := [], pass := 0, spare := 0xF, lock := 0 }) s
  if was = 3 ∨ was = 5 then routesChanged (emitOp 0x07 0x02 0 [n, cause] s1) else s1

/-- Is a port enabled? -/
def portEn (s : State) (n : Nat) : Bool := bitOf (rget s (blsC n 0)) 0

/-! ### Homes in reset (R419, R509) -/

/-! ### Answers -/

/-- Answer a request: back to its source by the route table, with the request's tag and sending port (R402). -/
def answerTo (p : Packet) (typ arg : Nat) (data : List Byte) (s : State) : State :=
  let a : Packet := ⟨typ, ownDevice s, p.src, 0, p.tenant, p.tag, 0, p.port, 0, arg, 0, (data.length + 31) / 32, data⟩
  match routePort s a with
  | some n => sendPacket n a s
  | none => s

/-- BUSY_RETRY with a hint in µs (R419). -/
def answerBusy (p : Packet) (hint : Nat) (s : State) : State := bump (blsD 0x128) 1 (bump 0x4B0 1 (answerTo p 0xD hint [] s))

/-- Is a packet a request, to which an answer may be given (R402)? -/
def isRequest (typ : Nat) : Bool := ([1, 3, 5, 7, 9, 0xA, 0xB] : List Nat).contains typ

/-! ### Requests performed here (R409, R411, R412, R414) -/

/-- A packet's range is aligned, of 32 B to 1 KiB, within one 1 KiB block (Table 16.5); a write may end in a partial beat (log entry 44, DESIGN CHOICE). -/
def rangeOk (p : Packet) (len : Nat) : Bool :=
  decide (1 ≤ len ∧ len ≤ 1024 ∧ p.addr / 1024 = (p.addr + len - 1) / 1024)

/-- Homes that a remote access may name: stack memory, a warehouse, and for writes a reduction alias (R365). -/
def remoteHomeOk (s : State) (ten : Nat) (addr len : Nat) (write : Bool) : Bool :=
  (List.range len).all (fun i => match resolve s (some ten) (addr + i) with
    | .stack _ | .warehouse _ => true
    | .reduce _ _ => write && decide (addr % 4 = 0 ∧ len % 4 = 0)
    | _ => false)

/-- Mask of a range's 64-byte sectors that hold poison. -/
def sectorMask (s : State) (ten : Option Nat) (addr len : Nat) : Nat :=
  maskOf ((List.range ((addr + len - 1) / 64 + 1 - addr / 64)).filter (fun i =>
    let lo := max addr ((addr / 64 + i) * 64)
    decide ((peekDev s ten lo (min (addr + len) ((addr / 64 + i) * 64 + 64) - lo)).poison ≠ 0)))

/-- Write a packet's data: sectors that the mask names are stored poisoned "corrupt" and logged here as REMOTE_POISON (R412). -/
def remoteStore (ten : Option Nat) (p : Packet) (s : State) : State :=
  let marks := p.data.zipIdx.map (fun x => (x.1, bitOf p.arg ((p.addr + x.2) / 64 - p.addr / 64)))
  if p.arg = 0 then (writeDev ten p.addr p.data s).1
  else
    let s1 := (cleanSectors p.addr marks).foldl (fun s x => (writeDev ten (p.addr + x.1) x.2 s).1) s
    let secs := (List.range 17).filter (fun i => bitOf p.arg i)
    secs.foldl (fun s i =>
      let lo := max p.addr ((p.addr / 64 + i) * 64)
      let s2 := poisonRange ten lo (min (p.addr + p.data.length) ((p.addr / 64 + i) * 64 + 64) - lo) s
      rasLog 0x15 2 (unitWord 6 p.port 0) lo 0 (ownerWord ten none 0) p.src s2) s1

/-- A forwarded KV row (log entry 12, DESIGN CHOICE): written as STORE_KV writes its own (R221, R222). -/
def remoteKvRow (p : Packet) (s : State) : State × Bool :=
  let o := bitsOf p.arg 15 0
  match orderKv s o with
  | none => (s, false)
  | some kv =>
    let l := bitsOf p.arg 27 16
    let h := bitsOf p.arg 35 28
    let pos := bitsOf p.arg 60 36
    let q := kvParts s kv
    if (orderOf s o).tenant = p.tenant ∧ (orderOf s o).state ≠ 0 ∧ devHolds kv.layers q.1 l = true ∧ devHolds kv.heads q.2.1 h = true
        ∧ devHolds kv.pos q.2.2 pos = true then
      (writeKvRow o (devLocal kv.layers l) (devLocal kv.heads h) (devLocal kv.pos pos) (bitsOf p.arg 61 61) p.data s, true)
    else (s, false)

/-- Logit words delivered by another member into an order's row (R289, log entry 12, DESIGN CHOICE). -/
def remoteLogits (p : Packet) (s : State) : State × Bool :=
  let r := orderOf s p.arg2
  let first := (p.addr - 0x0C0000000000) % 4194304 / 4
  if r.tenant = p.tenant ∧ r.state ≠ 0 ∧ p.data.length % 4 = 0 ∧ first + p.data.length / 4 ≤ orderVocab s p.arg2 then
    (deliverLogits p.arg2 (((groupsOf 4 p.data.length p.data).map ofLeBytes).zipIdx.map (fun x => (first + x.2, x.1))) (decide (p.arg ≠ 0)) s, true)
  else (s, false)

/-- REFUSED with a cause: 1 protection, 2 a tally outside the tenant's range (log entry 43, DESIGN CHOICE). -/
def answerRefused (p : Packet) (cause : Nat) (s : State) : State := answerTo p 0xF cause [] s

/-- The answer to a request while this device cannot serve it: before READY, or with its home in reset (R419, R423). -/
def busyHint (s : State) (p : Packet) : Option Nat :=
  if !s.ready then some 1000
  else if (p.typ = 1 ∨ p.typ = 3 ∨ p.typ = 5 ∨ p.typ = 0xA) ∧ homeInReset s (resolve s (some p.tenant) p.addr) = true then some 100
  else none

/-- READ (R402, R412). -/
def serveRead (p : Packet) (s : State) : State :=
  let len := p.beats * 32
  if !(rangeOk p len && decide (p.addr % 32 = 0) && remoteHomeOk s p.tenant p.addr len false) then answerRefused p 1 s
  else
    let mask := sectorMask s (some p.tenant) p.addr len
    let (r, s1) := readDev (some p.tenant) p.addr len s
    answerTo p 2 mask r.data s1

/-- WRITE: memory, a reduction alias, a forwarded KV row or logit words. -/
def serveWrite (p : Packet) (s : State) : State :=
  if p.op = 7 then
    (match remoteKvRow p s with | (s1, true) => answerTo p 4 0 [] s1 | (s1, false) => answerRefused p 1 s1)
  else if p.op = 6 then
    (match remoteLogits p s with | (s1, true) => answerTo p 4 0 [] s1 | (s1, false) => answerRefused p 1 s1)
  else if rangeOk p p.data.length && remoteHomeOk s p.tenant p.addr p.data.length true then
    answerTo p 4 0 [] (remoteStore (some p.tenant) p s)
  else answerRefused p 1 s

/-- ATOMIC on an aligned 8-byte warehouse word (R385, R411); a poisoned word is answered with ARG 1 and left (log entry 44, DESIGN CHOICE). -/
def serveAtomic (p : Packet) (s : State) : State :=
  match resolve s (some p.tenant) p.addr with
  | .warehouse w =>
    if p.addr % 8 ≠ 0 ∨ p.op > 5 then answerRefused p 1 s
    else
      let (old, s1) := atomicAt w p.op p.arg (p.arg2 % 2 ^ 32 + leAt p.data 0 4 * 2 ^ 32) s
      answerTo p 6 (b2n old.2) (leBytes 8 old.1 ++ leBytes 24 0) s1
  | _ => answerRefused p 1 s

/-- SIGNAL: applied as a signal in the target tenant's range; otherwise REFUSED (R414). -/
def serveSignal (p : Packet) (s : State) : State :=
  if tallyAllowed s (some p.tenant) (p.addr % 65536) then answerTo p 8 0 [] (signalTally (p.addr % 65536) (p.arg % 2 ^ 32) s)
  else answerRefused p 2 s

/-! ### Collectives (R415 to R417) -/

def collOf (s : State) (id : Nat) : Option CollSt := s.bal.colls.find? (fun c => decide (c.id = id))

def modColl (id : Nat) (f : CollSt → CollSt) (s : State) : State :=
  { s with bal := { s.bal with colls := s.bal.colls.map (fun c => if c.id = id then f c else c) } }

def collFmt (c : CollSt) : Fmt := (codeFmt (bitsOf (collWord c 0) 8 5)).getD .fp32

/-- Bytes of `n` elements of the instance's format. -/
def collBytes (c : CollSt) (n : Nat) : Nat := elemBytes (collFmt c) n

/-- This device's member index, the member count, K, and whether the operation folds in staging. -/
def collMe (s : State) (c : CollSt) : Nat := memberIndex s (collGroup c)
def collM (s : State) (c : CollSt) : Nat := (groupMembers s (collGroup c)).length
def collK (s : State) (c : CollSt) : Nat := cdiv (collE c) (max 1 (collM s c))
def collFolds (c : CollSt) : Bool := decide (collOp c = 0 ∨ collOp c = 1 ∨ collOp c = 4)
def collRoot (c : CollSt) : Nat := bitsOf (collWord c 0) 33 22

/-- Elements in a staging slot: a chunk, or the whole contribution for REDUCE (log entry 45, DESIGN CHOICE). -/
def slotElems (s : State) (c : CollSt) : Nat := if collOp c = 1 then collE c else collK s c

/-- The part of its contribution that a member sends to member j: first element and count. -/
def collPart (s : State) (c : CollSt) (j : Nat) : Nat × Nat :=
  if collOp c = 0 ∨ collOp c = 4 then (min (collE c) (j * collK s c), min (collE c) ((j + 1) * collK s c) - min (collE c) (j * collK s c))
  else (0, collE c)

/-- The members that fold: every one, or the root. -/
def collFolders (s : State) (c : CollSt) : List Nat :=
  if collOp c = 1 then [collRoot c] else if collFolds c then List.range (collM s c) else []

/-- An instance ends with a fault of its context (R417, R134). -/
def collFault (c : CollSt) (code : Nat) (tell : Bool) (s : State) : State :=
  let s1 := dropColls (fun x => decide (x.id = c.id)) tell s
  ctxFaults c.ctx code 0 (workEvents c.ctx code 0 0 0 0 (unitWord 1 (collQuarter c) 0) (tileEnds c.cand 2 (collQuarter c) (candGone c.cand s1)))

/-- Move bytes from this device's memory to a member: locally, or in packets of a type with the source's poison (R412). -/
def collMove (c : CollSt) (typ j src dst len : Nat) (s : State) : State :=
  let mask := fun (a n : Nat) => sectorMask s c.tenant a n
  let dev := ((groupMembers s (collGroup c))[j]?).getD 0
  if len = 0 then s
  else
    let (r, s1) := readDev c.tenant src len s
    if dev = ownDevice s then
      remoteStore c.tenant { mkPacket typ dev dst 0 (if r.poison = 0 then 0 else mask src len) r.data with src := dev, tenant := c.tenant.getD 0 } s1
    else
      (piecesOf dst len).foldl (fun s p =>
        sendReq (mkPacket typ dev (dst + p.1) (cdiv p.2 32) (mask (src + p.1) p.2) ((r.data.drop p.1).take p.2)) c.tenant c.ctx (.collective c.id) p.1 s) s1

/-- Send this member's contribution to every member that may take it and has not: COLL_DATA into slot m of its staging once its COLL_READY
has arrived, or WRITEs straight to DST for ALL_GATHER and BROADCAST (R416, R417). -/
def collPump (id : Nat) (s : State) : State :=
  match collOf s id with
  | none => s
  | some c =>
    if !c.started then s
    else
      let m := collMe s c
      let src := collWord c 8
      let dst := collWord c 9
      let stage := collWord c 10
      let all := List.range (collM s c)
      let targets := if collFolds c then (collFolders s c).filter (fun j => c.ready.contains j)
        else if collOp c = 3 then all else if m = collRoot c then all else []
      (targets.filter (fun j => !c.sentTo.contains j)).foldl (fun s j =>
        let part := collPart s c j
        let len := collBytes c part.2
        let s1 := if collFolds c then collMove c 0xA j (src + collBytes c part.1) (stage + m * slotElems s c * 4) len s
          else collMove c 3 j src (dst + (if collOp c = 3 then collBytes c (m * collE c) else 0)) len s
        let own := decide (j = m) && collFolds c
        modColl id (fun x => { x with
          sentTo := x.sentTo ++ [j], got := if own then x.got ++ [(stage + m * slotElems s c * 4, len)] else x.got }) s1) s

/-- Bytes received for slot m of this member's staging. -/
def slotGot (s : State) (c : CollSt) (m : Nat) : Nat :=
  let lo := collWord c 10 + m * slotElems s c * 4
  ((c.got.eraseDups.filter (fun g => decide (lo ≤ g.1 ∧ g.1 < lo + slotElems s c * 4))).map Prod.snd).sum

/-- Has every slot arrived? -/
def slotsFull (s : State) (c : CollSt) : Bool :=
  (List.range (collM s c)).all (fun m => decide (slotGot s c m ≥ collBytes c (collPart s c (collMe s c)).2))

/-- COLL_DATA: written into its staging slot and acknowledged (R416). -/
def serveCollData (p : Packet) (s : State) : State :=
  if rangeOk p p.data.length && remoteHomeOk s p.tenant p.addr p.data.length false then
    let s1 := remoteStore (some p.tenant) p s
    let mine := fun (c : CollSt) => c.started && decide (c.tenant = some p.tenant) && collFolds c
      && decide (collWord c 10 ≤ p.addr ∧ p.addr < collWord c 10 + collM s c * slotElems s c * 4)
    answerTo p 4 0 [] { s1 with bal := { s1.bal with colls := s1.bal.colls.map (fun c =>
      if mine c then { c with got := c.got ++ [(p.addr, p.data.length)] } else c) } }
  else answerRefused p 1 s

/-- COLL_READY: noted for a started instance; held, up to 256, for one that has not started (R417). ARG names the instance (log entry 42, DESIGN CHOICE). -/
def serveCollReady (p : Packet) (s : State) : State :=
  match s.bal.colls.find? (fun c => c.started && decide (collKey c = p.arg)) with
  | some c =>
    let j := ((groupMembers s (collGroup c)).findIdx? (fun d => decide (d = p.src))).getD 0
    collPump c.id (modColl c.id (fun x => { x with ready := x.ready ++ [j] }) s)
  | none =>
    if s.bal.heldReady.length ≥ 256 then answerBusy p 100 s
    else { s with bal := { s.bal with heldReady := s.bal.heldReady ++ [(p.arg % 2 ^ 12, p.arg / 2 ^ 12 % 2 ^ 24, p.arg / 2 ^ 36, p.src)] } }

/-- CTRL: 1 abort of an instance; 2 group check; 3 order command; 4 selected token; 5 refused step; 6 compute-part reset of the sender (log entry
42). Every one is acknowledged. -/
def serveCtrl (p : Packet) (s : State) : State :=
  let w := fun (i : Nat) => leAt p.data (8 * i) 8
  let fromLead := fun (g : Nat) => decide ((groupMembers s g)[0]? = some p.src)
  let s1 := match p.arg with
    | 1 => (match s.bal.colls.find? (fun c => c.started && decide (collKey c = w 0)) with
        | some c => collFault c 0x0A false s
        | none => s)
    | 3 => applyEntry [] ⟨w 0, s.now, [w 1, w 2, w 3, w 4, 0, 0, 0, 0]⟩ s
    | 4 => if fromLead (orderGroup s (w 0)) && decide ((orderOf s (w 0)).gen = w 1) && stepSelects (orderOf s (w 0)) then takeToken (w 0) (w 2) s else s
    | 5 => if decide ((orderOf s (w 0)).gen = w 1) && (groupMembers s (orderGroup s (w 0))).contains p.src then stepRefused (w 0) (w 2) 0 s else s
    | 6 =>
      let s2 := memberLost p.src s
      (s2.bal.colls.filter (fun c => (groupMembers s2 (collGroup c)).contains p.src)).foldl (fun s c => collFault c 0x0A false s) s2
    | _ => s
  answerTo p 0xC 0 [] s1

/-! ### Arrival (R401, R403, R405, R406) -/

/-- A packet that cannot be forwarded, or would need VC 8: recorded, and its request answered UNREACHABLE. -/
def cannotForward (n cause : Nat) (p : Packet) (s : State) : State :=
  let s1 := portErr n p.typ cause p.dst p.tenant s
  let s2 := if cause = 2 ∧ s1.bal.loopSaid = false then
      emitOp 0x07 0x09 0 [p.dst] { s1 with bal := { s1.bal with loopSaid := true } } else s1
  if isRequest p.typ then answerTo p 0xE 0 [] s2 else s2

/-- A packet arrives on a port: counted, checked, forwarded when it is not for this device, else handed on. -/
def receive (n : Nat) (ecrcOk : Bool) (p : Packet) (f : State → State) (s : State) : State :=
  let b := packetBeats p
  if n ≥ 16 ∨ portUp s n = false then s
  else
    let s1 := bump (blsC n 0x108) b s
    if !ecrcOk then bump (blsC n 0x138) 1 (portErr n p.typ 1 p.src p.tenant s1)
    else if ownDevice s1 = 0 then s1
    else if p.dst = ownDevice s1 then f s1
    else if p.vc ≥ 7 then cannotForward n 2 p s1
    else match routePort s1 p with
      | none => cannotForward n 3 p s1
      | some m => bump (blsC m 0x110) b (sendPacket m { p with vc := p.vc + 1 } s1)

/-- A request addressed to this device: BUSY_RETRY where it must be, else served. -/
def serve (n : Nat) (ecrcOk : Bool) (p : Packet) (f : Packet → State → State) (s : State) : State :=
  receive n ecrcOk p (fun s => match busyHint s p with
    | some h => answerBusy p h s
    | none => f p s) s

/-! ### Answers to this device's requests (R404, R409, R420 to R422) -/

def dropReq (id : Nat) (s : State) : State :=
  { s with bal := { s.bal with reqs := s.bal.reqs.filter (fun r => decide (r.id ≠ id)) } }

/-- The request that an answer names. -/
def reqFor (s : State) (p : Packet) : Option BReq :=
  s.bal.reqs.find? (fun r => !r.held && decide (r.pkt.tag = p.tag ∧ r.pkt.port = p.port))

/-- Hand an answer's data to the issuer. -/
def deliver (r : BReq) (data : List Byte) (mask : Nat) (s : State) : State :=
  match r.issuer with
  | .bench k acc => modBench k (fun b => { b with out := b.out.map (fun a =>
      if a.id = acc then { a with arrived := true, data := if a.kind = 2 then data.take 8 else if a.kind = 0 then data.take 32 else a.data, poison := decide (mask ≠ 0) } else a) }) s
  | .engine n e => modEng n e (fun g => { g with runs := g.runs.map (fun x => if x.need.contains r.id then
      { x with need := x.need.filter (fun i => decide (i ≠ r.id)), chunks := if r.pkt.typ = 1 then x.chunks ++ [(r.off, data, mask)] else x.chunks } else x) }) s
  | .invocation n => modFul n (fun y => { y with fetch := y.fetch.map (fun x => if x.need.contains r.id then
      { x with need := x.need.filter (fun i => decide (i ≠ r.id)), chunks := x.chunks ++ [(r.off, data, mask)] } else x) }) s
  | .relay q => { s with tal := { s.tal with sent := s.tal.sent.filter (fun x => decide (x.seq ≠ q)) } }
  | .collective _ | .control => s

/-- An answer to this device: its request is done, its reservation released, and requests held behind it go. -/
def answered (n : Nat) (ecrcOk : Bool) (p : Packet) (f : BReq → State → State) (s : State) : State :=
  receive n ecrcOk p (fun s => match reqFor s p with
    | none => s
    | some r => pumpReqs (f r (dropReq r.id s))) s

/-- A work fault of a relay's signaller (Table 16.6). -/
def relayFault (q code : Nat) (s : State) : State :=
  match s.tal.sent.find? (fun x => decide (x.seq = q)) with
  | none => s
  | some x =>
    let s1 := { s with tal := { s.tal with sent := s.tal.sent.filter (fun y => decide (y.seq ≠ q)) } }
    if (ctxOf s1 x.ctx).isSome then ctxFaults x.ctx code 0 (workEvents x.ctx code 0 0 0 0 (unitWord 0 0 0) s1) else s1

/-- A request of a context ends with a fault at its issuer: a work-fault code, and for a bench's refusal its own code. -/
def failReq (r : BReq) (code : Nat) (s : State) : State :=
  match r.issuer with
  | .bench k _ => if code = 5 then benchFault k 5 s
      else (match launchOf s k with
        | some l => cmdFault (k / 256) l.cmd code 0 s
        | none => s)
  | .engine n e => (match (engOf s n e).runs.find? (fun x => x.need.contains r.id) with
      | some x => cmdFault n x.cmd code 0 s
      | none => s)
  | .invocation n => if ((runOf s n).map (fun x => decide (recCtx x.inv = r.ctx))).getD false then invFault n 0 code 0 s else s
  | .relay q => relayFault q (if code = 5 then 9 else code) s
  | .collective id => (match collOf s id with | some c => collFault c 0x0A true s | none => s)
  | .control => s

/-- A request ends as RESET_LOST (R420 to R422). -/
def lostReq (r : BReq) (s : State) : State :=
  if r.pkt.typ = 9 then pumpReqs (dropReq r.id s)
  else pumpReqs (failReq r 0x0A (bump (blsD 0x130) 1 (dropReq r.id s)))

/-- Is a write to a reduction alias (R422)? -/
def toAlias (p : Packet) : Bool := decide (0x010100000000 ≤ p.addr ∧ p.addr < 0x010400000000)

end Sys2Proof.Machine
end

