-- ==== Sys2Proof/Machine/Balis.lean ====
section
/-! DEFINITION. Meanings of the Balis rows (chapter 16): ports and lanes, codewords, packets, retries and timeouts, bell marks, collectives. -/

namespace Sys2Proof.Machine

/-! ### Ports and lanes (R395, R399, R400, R421) -/

/-- SIGNAL_DETECT (R399 step 1): an enabled port without signal starts to train. -/
def execSignalDetect (port time : Nat) (s : State) : Res :=
  let s := atTime time s
  .next (if port < 16 ∧ portEn s port = true ∧ s.sys.powered = true ∧ (portOf s port).state ≤ 1 then
    modPort port (fun p => { p with state := 2, lostAt := none }) s else s)

/-- TRAINING_DONE (R399): the bit errors of the nine lanes in both directions (receive, send) decide the lane map; then the exchange of device IDs
and the measured latency. Fewer than 8 passing lanes: down, to retrain 10 s later. Equal device IDs: down, with ROUTE_FAULT (R405). -/
def execTrainingDone (port : Nat) (errs : List (Nat × Nat)) (peer peerPort latency time : Nat) (s : State) : Res :=
  let s := atTime time s
  .next (if port ≥ 16 ∨ (portOf s port).state ≠ 2 then s
    else
      let lanes := (List.range 9).filter (fun l => ((errs[l]?).map (fun e => decide (e.1 ≤ 20000000 ∧ e.2 ≤ 20000000))).getD false)
      let sum := fun (l : Nat) => (((errs[l]?).map (fun e => e.1 + e.2)).getD 0)
      let spare := if lanes.length = 9 then lanes.foldl (fun b l => if sum l ≥ sum b then l else b) 0 else 0xF
      if lanes.length < 8 then modPort port (fun p => { p with state := 4, pass := maskOf lanes, spare := 0xF, retrain := s.now + 10000000000 }) s
      else if peer ≠ 0 ∧ peer = ownDevice s then
        emitOp 0x07 0x09 0 [port] (emitOp 0x07 0x02 0 [port, 4]
          (modPort port (fun p => { p with state := 4, peer := peer, peerPort := peerPort, retrain := s.now + 10000000000 }) s))
      else
        let s1 := modPort port (fun p => { p with
          state := 3, pass := maskOf lanes, lock := maskOf lanes, spare := spare, peer := peer % 4096, peerPort := peerPort % 16, latency := min latency 0xFFFF
          failed := (List.range 9).filter (fun l => !lanes.contains l), errors := [], rxNext := 0, txAcked := 4095, txNext := 0, nak := false, replays := 0
          credits := [], queue := [], lostAt := none }) s
        routesChanged (emitOp 0x07 0x01 0 [port, peer % 4096, spare] s1))

/-- PORT_RETRAIN (R399): a down port whose wait has passed trains again. -/
def execPortRetrain (port time : Nat) (s : State) : Res :=
  let s := atTime time s
  .next (if port < 16 ∧ (portOf s port).state = 4 ∧ (portOf s port).retrain ≤ s.now ∧ portEn s port = true then
    modPort port (fun p => { p with state := 2 }) s else s)

/-- CODEWORD_RECEIVE (R396, R398, R403): an uncorrectable codeword is discarded and answered with NAK; a codeword in order is taken, its control
beat acknowledges, asks for resends and returns credits. `fixed` is symbols corrected, `sent` the new codewords that this side has sent since, at most what the replay buffer of
2,048 holds, `taken` the packets that the acknowledged codewords carried whole, `stalled` codewords sent while packets waited for credit, and `unknown`
the headers (TYPE, SRC, TENANT) of packets of no listed type. -/
def execCodewordReceive (port : Nat) (correct : Bool) (fixed seq ack : Nat) (nak : Bool) (credits : List (Nat × Nat × Bool × Nat)) (sent taken stalled : Nat)
    (unknown : List (Nat × Nat × Nat)) (s : State) : Res :=
  .next (if port ≥ 16 ∨ portUp s port = false then s
    else
      let room := 2048 - (((portOf s port).txNext + 4096 - ((portOf s port).txAcked + 1) % 4096) % 4096)
      let s0 := bump (blsC port 0x140) stalled (modPort port (fun p => { p with txNext := (p.txNext + min sent room) % 4096 }) s)
      if !correct then bump (blsC port 0x120) 1 (modPort port (fun p => { p with nak := true }) s0)
      else
        let s1 := if fixed = 0 then s0 else bump (blsC port 0x118) fixed s0
        let x := portOf s1 port
        if seq % 4096 ≠ x.rxNext then modPort port (fun p => { p with nak := true }) s1
        else
          let again := (x.txNext + 4096 - (ack + 1) % 4096) % 4096
          let s2 := modPort port (fun p => { p with
            rxNext := (p.rxNext + 1) % 4096, nak := false, txAcked := ack % 4096, replays := if nak then p.replays + 1 else 0
            credits := credits.foldl (fun t c =>
              let k := if c.2.2.1 then 64 else c.1 * 8 + c.2.1
              tset 0 t k (tget 0 t k - c.2.2.2)) p.credits }) s1
          let mine := (s2.bal.out.zipIdx.filter (fun q => decide (q.1.1 = port))).map Prod.snd
          let gone := mine.take taken
          let s3 := { s2 with bal := { s2.bal with out := (s2.bal.out.zipIdx.filter (fun q => !gone.contains q.2)).map Prod.fst } }
          let s4 := if nak then bump (blsC port 0x128) again s3 else s3
          let s5 := unknown.foldl (fun s h => portErr port (h.1 % 32) 4 h.2.1 h.2.2 s) s4
          drainPort (portOf s5 port).queue.length port s5)

/-- LANE_FAIL (R398, R400): the traffic of a failed active lane moves to a good spare; a failed spare is no longer one; without a good spare the
port goes down and retrains. -/
def execLaneFail (port lane errors time : Nat) (s : State) : Res :=
  let s := atTime time s
  .next (if port ≥ 16 ∨ lane ≥ 9 ∨ portUp s port = false ∨ bitOf (portOf s port).pass lane = false then s
    else
      let x := portOf s port
      let fail := fun (p : PortSt) => { p with pass := p.pass - 2 ^ lane, failed := p.failed ++ [lane], errors := tset 0 p.errors lane (min errors 0xFFFFFFFF) }
      if x.spare = lane then modPort port (fun p => { fail p with spare := 0xF }) s
      else if x.spare = 0xF then portDown port 1 4 s
      else
        bump 0x1400140 1 (bump (blsC port 0x130) 1 (emitOp 0x07 0x03 0 [port, lane, errors]
          (modPort port (fun p => { fail p with spare := 0xF }) s))))

/-- LANE_RETEST_DONE (R400): a failed lane that passes becomes the spare. -/
def execLaneRetestDone (port lane : Nat) (passed : Bool) (s : State) : Res :=
  .next (if port ≥ 16 ∨ portUp s port = false ∨ (portOf s port).failed.contains lane = false ∨ passed = false then s
    else modPort port (fun p => { p with
      failed := p.failed.filter (fun l => decide (l ≠ lane)), pass := p.pass ||| 2 ^ lane, lock := p.lock ||| 2 ^ lane
      spare := if p.spare = 0xF then lane else p.spare }) s)

/-- SIGNAL_LOSS (R421): a ready port sends nothing new and holds its replay buffer; a training one waits for signal. -/
def execSignalLoss (port time : Nat) (s : State) : Res :=
  let s := atTime time s
  .next (if port ≥ 16 then s
    else if portUp s port then modPort port (fun p => { p with lostAt := some (p.lostAt.getD s.now), lock := 0 }) s
    else if (portOf s port).state = 2 ∨ (portOf s port).state = 4 then modPort port (fun p => { p with state := 1 }) s
    else s)

/-- SIGNAL_RETURN (R421): within 2 ms of its loss the port resumes from its replay buffer. -/
def execSignalReturn (port time : Nat) (s : State) : Res :=
  let s := atTime time s
  .next (match (portOf s port).lostAt with
    | some t =>
      if port < 16 ∧ s.now ≤ t + 2000000 then
        let x := portOf s port
        let s1 := bump (blsC port 0x128) ((x.txNext + 4096 - (x.txAcked + 1) % 4096) % 4096) (modPort port (fun p => { p with lostAt := none, lock := p.pass }) s)
        drainPort (portOf s1 port).queue.length port s1
      else s
    | none => s)

/-- PORT_DOWN (R421): no signal for 2 ms. -/
def execPortDown (port time : Nat) (s : State) : Res :=
  let s := atTime time s
  .next (match (portOf s port).lostAt with
    | some t => if port < 16 ∧ t + 2000000 ≤ s.now then portDown port 2 1 s else s
    | none => s)

/-- BALIS_REFERENCE_FAILURE (R395): every port that the reference input serves goes down. -/
def execBalisReferenceFailure (ref time : Nat) (s : State) : Res :=
  .next (if ref < 2 then ((List.range 8).map (· + 8 * ref)).foldl (fun s n =>
    if portUp s n || (portOf s n).state == 2 then portDown n 3 4 s else s) (atTime time s) else s)

/-! ### Packets (Table 16.5) -/

/-- READ: answered with READ_DATA and the poison mask. -/
def execRead (port : Nat) (ecrcOk : Bool) (p : Packet) (s : State) : Res := .next (serve port ecrcOk { p with typ := 1 } serveRead s)

/-- READ_DATA: the data goes to its issuer. -/
def execReadData (port : Nat) (ecrcOk : Bool) (p : Packet) (s : State) : Res :=
  .next (answered port ecrcOk { p with typ := 2 } (fun r s => deliver r p.data p.arg s) s)

/-- WRITE: performed, then WRITE_ACK. -/
def execWrite (port : Nat) (ecrcOk : Bool) (p : Packet) (s : State) : Res := .next (serve port ecrcOk { p with typ := 3 } serveWrite s)

/-- WRITE_ACK: the write, or collective data, has been performed. -/
def execWriteAck (port : Nat) (ecrcOk : Bool) (p : Packet) (s : State) : Res :=
  .next (answered port ecrcOk { p with typ := 4 } (fun r s => deliver r [] 0 s) s)

/-- ATOMIC: performed by the target warehouse bank, then ATOMIC_DATA with the old word. -/
def execAtomic (port : Nat) (ecrcOk : Bool) (p : Packet) (s : State) : Res := .next (serve port ecrcOk { p with typ := 5 } serveAtomic s)

/-- ATOMIC_DATA: the old word returns to the bench. -/
def execAtomicData (port : Nat) (ecrcOk : Bool) (p : Packet) (s : State) : Res :=
  .next (answered port ecrcOk { p with typ := 6 } (fun r s => deliver r p.data p.arg s) s)

/-- SIGNAL: applied to the target tally, then SIGNAL_ACK. -/
def execBalisSignal (port : Nat) (ecrcOk : Bool) (p : Packet) (s : State) : Res := .next (serve port ecrcOk { p with typ := 7 } serveSignal s)

/-- SIGNAL_ACK: the relay counts as performed. -/
def execSignalAck (port : Nat) (ecrcOk : Bool) (p : Packet) (s : State) : Res :=
  .next (answered port ecrcOk { p with typ := 8 } (fun r s => deliver r [] 0 s) s)

/-- COLL_READY: a member may send collective data; held while the instance has not started. -/
def execCollReady (port : Nat) (ecrcOk : Bool) (p : Packet) (s : State) : Res := .next (serve port ecrcOk { p with typ := 9 } serveCollReady s)

/-- COLL_DATA: written into a staging slot, then WRITE_ACK. -/
def execCollData (port : Nat) (ecrcOk : Bool) (p : Packet) (s : State) : Res := .next (serve port ecrcOk { p with typ := 0xA } serveCollData s)

/-- CTRL: acted on, then CTRL_ACK. -/
def execCtrl (port : Nat) (ecrcOk : Bool) (p : Packet) (s : State) : Res := .next (serve port ecrcOk { p with typ := 0xB } serveCtrl s)

/-- CTRL_ACK. -/
def execCtrlAck (port : Nat) (ecrcOk : Bool) (p : Packet) (s : State) : Res :=
  .next (answered port ecrcOk { p with typ := 0xC } (fun r s => deliver r [] 0 s) s)

/-- BUSY_RETRY (R420): the request keeps its tag and waits: the greater of the hint and 10 µs, doubled each time up to 1 ms. -/
def execBusyRetry (port : Nat) (ecrcOk : Bool) (p : Packet) (time : Nat) (s : State) : Res :=
  .next (receive port ecrcOk { p with typ := 0xD } (fun s =>
    match reqFor s p with
    | none => s
    | some r =>
      let first := max (p.arg % 65536 * 1000) 10000
      let wait := if r.wait = 0 then first else max first (min 1000000 (2 * r.wait))
      modReq r.id (fun r => { r with wait := wait, due := some (s.now + wait), busySince := some (r.busySince.getD s.now) }) (bump (blsC port 0x148) 1 s))
    (atTime time s))

/-- UNREACHABLE (R406, R421): the access ends as RESET_LOST; orders whose group includes the device fault. From the own crossbar (port 16) it ends the
oldest request to the device that no route takes. -/
def execUnreachable (port : Nat) (ecrcOk : Bool) (p : Packet) (s : State) : Res :=
  .next (if port = 16 then
      (match s.bal.reqs.find? (fun r => r.held && decide (r.pkt.dst = p.src) && (routePort s r.pkt).isNone) with
        | some r => memberLost r.pkt.dst (lostReq r s)
        | none => s)
    else receive port ecrcOk { p with typ := 0xE } (fun s => match reqFor s p with
      | none => s
      | some r => memberLost r.pkt.dst (lostReq r s)) s)

/-- REFUSED (R409, Table 16.6): the issuing command or bench takes its fault. -/
def execRefused (port : Nat) (ecrcOk : Bool) (p : Packet) (s : State) : Res :=
  .next (receive port ecrcOk { p with typ := 0xF } (fun s => match reqFor s p with
    | none => s
    | some r => pumpReqs (failReq r 5 (portErr port r.pkt.typ 5 p.src r.pkt.tenant (dropReq r.id s)))) s)

/-! ### Retries and timeouts -/

/-- RETRY_RESEND (R420): a request whose wait is over is sent again, or ends when RETRY_MAX has passed. -/
def execRetryResend (request time : Nat) (s : State) : Res :=
  let s := atTime time s
  .next (match s.bal.reqs.find? (fun r => decide (r.id = request)) with
    | none => s
    | some r => match r.due, r.busySince with
      | some d, some b =>
        if s.now < d then s
        else if b + max 1 (rfield s (blsD 8) 31 16) * 1000000 ≤ s.now then lostReq r (portErr r.pkt.port r.pkt.typ 6 r.pkt.dst r.pkt.tenant s)
        else
          let s1 := modReq r.id (fun r => { r with due := none, sent := s.now }) s
          if portUp s1 r.pkt.port then sendPacket r.pkt.port r.pkt s1 else trySend r.id (modReq r.id (fun r => { r with held := true }) s1)
      | _, _ => s)

/-- REQUEST_TIMEOUT (R422): a READ or a WRITE to memory is sent once more by the routes now up; any other request, or a second timeout, ends as RESET_LOST. -/
def execRequestTimeout (request time : Nat) (s : State) : Res :=
  let s := atTime time s
  .next (match s.bal.reqs.find? (fun r => decide (r.id = request)) with
    | none => s
    | some r =>
      if r.held || r.due.isSome || decide (s.now < r.sent + max 3 (rfield s (blsD 8) 39 32) * 1000000) then s
      else if (r.pkt.typ = 1 ∨ (r.pkt.typ = 3 ∧ toAlias r.pkt = false)) ∧ r.again = false then
        trySend r.id (modReq r.id (fun r => { r with again := true, held := true }) s)
      else lostReq r (if r.pkt.typ = 9 then s else portErr r.pkt.port r.pkt.typ 7 r.pkt.dst r.pkt.tenant s))

/-! ### Bell marks (R418) -/

/-- BELL_MARK: the mark that arrived over the fewest links aligns this device's boundaries: the source's boundary lay PHASE and the latency before
its arrival. A source of another period writes BELL_MISMATCH. -/
def execBellMark (port bell phase period : Nat) (fewest : Bool) (time : Nat) (s : State) : Res :=
  let src := rfield s (blsD 8) 11 0
  let s := atTime time s
  .next (if port ≥ 16 ∨ portUp s port = false ∨ s.ready = false ∨ fewest = false ∨ src = 0 ∨ src = ownDevice s then s
    else if period ≠ s.sched.period then
      (if s.bal.mismatch then s else emitOp 0x07 0x08 0 [period] { s with bal := { s.bal with mismatch := true, aligned := false } })
    else
      let s1 := { s with
        bal := { s.bal with fabric := bell % 2 ^ 48, aligned := true, noMark := 0, mismatch := false, sourceLost := false }
        sched := { s.sched with opened := time - phase - (portOf s port).latency } }
      if s.bal.sourceLost then emitOp 0x07 0x07 0 [bell % 2 ^ 48] s1 else s1)

/-- BELL_SOURCE_LOST (R418): no mark for 16 bells. -/
def execBellSourceLost (s : State) : Res :=
  let src := rfield s (blsD 8) 11 0
  .next (if s.bal.noMark ≥ 16 ∧ s.bal.sourceLost = false ∧ src ≠ 0 ∧ src ≠ ownDevice s then
    emitOp 0x07 0x06 0 [s.bal.fabric] { s with bal := { s.bal with sourceLost := true, aligned := false } } else s)

/-! ### Collectives (R415 to R417) -/

/-- COLLECTIVE_START: an admitted instance whose waits hold takes its number, sends COLL_READY to each member that will write into its staging, and takes
the COLL_READYs held for it. -/
def execCollectiveStart (inst : Nat) (s : State) : Res :=
  .next (match collOf s inst with
    | none => s
    | some c =>
      if c.started || !waitsHold ((c.words.drop 2).take 4) c.waited || unitInReset s 1 (collQuarter c) then s
      else
        let k := collGroup c * 2 ^ 24 + collNum c
        let n := tget 0 s.bal.collSeq k
        let s1 := modColl inst (fun c => { c with started := true, bell := s.bell, seq := n })
          { s with bal := { s.bal with collSeq := tset 0 s.bal.collSeq k (n + 1) } }
        let c1 := { c with started := true, bell := s.bell, seq := n }
        let s2 := (match s1.sched.cands.find? (fun k => decide (k.id = c.cand)) with
          | some k => tileStarts k 2 (collQuarter c) (quarterClock s1 (collQuarter c)) s1
          | none => s1)
        let me := collMe s2 c1
        let gathers := (collFolders s2 c1).contains me
        let ready := if gathers then me :: (s2.bal.heldReady.filter (fun h => decide (h.1 + h.2.1 * 2 ^ 12 + h.2.2.1 * 2 ^ 36 = collKey c1))).map
              (fun h => ((groupMembers s2 (collGroup c1)).findIdx? (fun d => decide (d = h.2.2.2))).getD 0)
          else (s2.bal.heldReady.filter (fun h => decide (h.1 + h.2.1 * 2 ^ 12 + h.2.2.1 * 2 ^ 36 = collKey c1))).map
              (fun h => ((groupMembers s2 (collGroup c1)).findIdx? (fun d => decide (d = h.2.2.2))).getD 0)
        let s3 := modColl inst (fun c => { c with ready := ready }) { s2 with bal := { s2.bal with
          heldReady := s2.bal.heldReady.filter (fun h => decide (h.1 + h.2.1 * 2 ^ 12 + h.2.2.1 * 2 ^ 36 ≠ collKey c1)) } }
        let s4 := if gathers then ((groupMembers s3 (collGroup c1)).filter (fun d => decide (d ≠ ownDevice s3))).foldl (fun s d =>
            sendReq (mkPacket 9 d 0 0 (collKey c1) []) c.tenant c.ctx (.collective inst) 0 s) s3 else s3
        collPump inst s4)

/-- COLLECTIVE_FOLD (R416): the slots are folded in ascending order into the result area, and the result goes where the operation sends it. -/
def execCollectiveFold (inst : Nat) (s : State) : Res :=
  .next (match collOf s inst with
    | none => s
    | some c =>
      let me := collMe s c
      if !c.started || c.folded || !(collFolders s c).contains me || !slotsFull s c then s
      else
        let n := (collPart s c me).2
        let st := collWord c 10
        let bytes := slotElems s c * 4
        let kind := bitsOf (collWord c 0) 4 3 + 1
        let slot := fun (m i : Nat) => leAt (peekDev s c.tenant (st + m * bytes + 4 * i) 4).data 0 4
        let out := (List.range n).map (fun i => ((List.range (collM s c - 1)).foldl (fun a m => reduceElem kind a (slot (m + 1) i)) (slot 0 i)))
        let area := st + collM s c * bytes
        let bad := (List.range (collM s c)).foldl (fun x m => x ||| sectorMask s c.tenant (st + m * bytes) (4 * n)) 0
        let s1 := bump 0x498 ((collM s c - 1) * n) (remoteStore c.tenant { mkPacket 3 0 area 0 bad (out.flatMap (leBytes 4)) with tenant := c.tenant.getD 0, src := ownDevice s } s)
        let s2 := modColl inst (fun c => { c with folded := true }) s1
        let dst := collWord c 9
        if collOp c = 0 then (List.range (collM s c)).foldl (fun s j => collMove c 3 j area (dst + me * collK s c * 4) (4 * n) s) s2
        else collMove c 3 me area dst (4 * n) s2)

/-- COLLECTIVE_COMPLETE (R415, R194): everything this member sends has been sent and acknowledged; the instance completes and signals. -/
def execCollectiveComplete (inst : Nat) (s : State) : Res :=
  .next (match collOf s inst with
    | none => s
    | some c =>
      let me := collMe s c
      let targets := if collFolds c then collFolders s c else if collOp c = 3 ∨ me = collRoot c then List.range (collM s c) else []
      let mine := s.bal.reqs.any (fun r => decide (r.issuer = .collective inst ∧ r.pkt.typ ≠ 9))
      if !c.started || mine || !targets.all (fun j => c.sentTo.contains j) || ((collFolders s c).contains me && !c.folded) then s
      else
        let s1 := bump (blsD 0x120) 1 (sendSignals c.ctx c.tenant ((c.words.drop 6).take 2) s)
        candGone c.cand (tileEnds c.cand 2 (collQuarter c) (dropColls (fun x => decide (x.id = inst)) false s1)))

end Sys2Proof.Machine
end

