-- ==== Sys2Proof/Machine/Stack.lean ====
section
/-! DEFINITION. The stack as memory (chapter 7): the channel reorder queues, their priority and order, narrow writes and their
combination, fetches of valid bits, poison fills, refresh, and translation misses. -/

namespace Sys2Proof.Machine

/-- A field of STK_CONFIG (Table 7.10). -/
def stkConfig (s : State) (n hi lo : Nat) : Nat := rfield s (stkC n 8) hi lo

/-- Bank of a sector of a frame, as die × 64 + bank in the die, and its row (Table 7.2). -/
def bankOfSector (frame sector : Nat) : Nat :=
  let p := frame % 512
  p / 32 * 64 + 2 * (p % 32) + sector % 2

def rowOfSector (frame sector : Nat) : Nat := 16 * (frame / 512) + sector / 64

/-- Channel of a frame (Table 7.2). -/
def channelOf (frame : Nat) : Nat := 2 * (frame % 512 / 32) + frame % 512 % 32 / 16

/-- Memory key of a request's sector in stack `n`. -/
def reqSector (n : Nat) (r : StkReq) : Nat := (n * 2 ^ 20 + r.frame) * 1024 + r.sector

/-- The queue of a channel. -/
def queueOf (s : State) (n ch : Nat) : List StkReq := tget [] (stackOf s n).queues ch

def setQueue (n ch : Nat) (q : List StkReq) (s : State) : State :=
  modStack n (fun st => { st with queues := tset [] st.queues ch q }) s

/-- May a request enter the queue (R159, R162): 64 entries, of which LC_RESERVE are kept from BE requests? -/
def admissible (s : State) (n : Nat) (q : List StkReq) (r : StkReq) : Bool :=
  decide (q.length < 64) &&
    (r.lc || decide ((q.filter (fun x => !x.lc)).length < 64 - stkConfig s n 5 0))

/-- Requests held in the network or arriving enter their queue in order; those that may not enter yet stay held (R162). -/
def admitReqs (n ch : Nat) (arriving : List StkReq) (s : State) : State :=
  let st := stackOf s n
  let mine := (st.heldReqs.filter (fun p => decide (p.1 = ch))).map Prod.snd ++ arriving
  let go := mine.foldl (fun (a : List StkReq × List StkReq) r =>
    if admissible s n a.1 r then (a.1 ++ [r], a.2) else (a.1, a.2 ++ [r])) (queueOf s n ch, [])
  modStack n (fun st => { st with
    queues := tset [] st.queues ch go.1
    heldReqs := st.heldReqs.filter (fun p => decide (p.1 ≠ ch)) ++ go.2.map (fun r => (ch, r)) }) s

/-- The write drain of a channel starts above WR_HIGH writes and ends below WR_LOW (R160). -/
def updateDrain (n ch : Nat) (s : State) : State :=
  let w := ((queueOf s n ch).filter (fun r => r.write)).length
  let st := stackOf s n
  if w > stkConfig s n 21 16 then
    (if st.draining.contains ch then s else modStack n (fun st => { st with draining := ch :: st.draining }) s)
  else if w < stkConfig s n 27 22 then
    modStack n (fun st => { st with draining := st.draining.filter (fun c => decide (c ≠ ch)) }) s
  else s

/-- Does a request use a valid bit that the mixed-frame cache lacks (R172)? -/
def needsVmap (s : State) (n : Nat) (r : StkReq) : Bool :=
  let fk := n * 2 ^ 20 + r.frame
  decide ((frameOf s fk).summary = 3) && !(stackOf s n).mixed.contains fk

/-- May the entry at position `i` issue now: no earlier entry of its sector (R161), its bank not busy, its frame not being
filled (R173), its valid bits at hand (R172)? -/
def issuable (s : State) (n : Nat) (busy : List Nat) (q : List StkReq) (i : Nat) (r : StkReq) : Bool :=
  !(q.take i).any (fun x => decide (x.frame = r.frame ∧ x.sector = r.sector))
  && !busy.contains (bankOfSector r.frame r.sector)
  && !(frameOf s (n * 2 ^ 20 + r.frame)).filling && !needsVmap s n r

/-- Has a BE request waited longer than AGE_CAP (R160)? -/
def aged (s : State) (n now : Nat) (r : StkReq) : Bool :=
  !r.lc && decide (now - r.arrived > 100 * stkConfig s n 15 8)

/-- Is the request's row open? -/
def rowOpen (s : State) (n : Nat) (r : StkReq) : Bool :=
  decide (tget 0 (stackOf s n).openRows (bankOfSector r.frame r.sector) = rowOfSector r.frame r.sector + 1)

/-- The position that the channel issues next by the ranks of R160; within a rank, the oldest. -/
def pickReq (s : State) (n ch now : Nat) (busy : List Nat) : Option Nat :=
  let q := queueOf s n ch
  let can := (q.zipIdx.filter (fun p => issuable s n busy q p.2 p.1))
  let first := fun (f : StkReq → Bool) => (can.find? (fun p => f p.1)).map Prod.snd
  let draining := (stackOf s n).draining.contains ch
  ((first (fun r => (r.lc && !r.write) || aged s n now r)).orElse (fun _ =>
    (if draining then first (fun r => r.write) else none).orElse (fun _ =>
      (first (rowOpen s n)).orElse (fun _ => first (fun _ => true)))))

/-- Narrow writes of one sector that wait behind position `i` and are merged with it (R167): up to the first read of the sector.
Positions, the first among them. -/
def combineSet (q : List StkReq) (i : Nat) (r : StkReq) : List Nat :=
  let same := (q.zipIdx.drop i).filter (fun p => decide (p.1.frame = r.frame ∧ p.1.sector = r.sector))
  (same.takeWhile (fun p => p.1.write)).map Prod.snd

/-- The masked bytes of a write: offset in the sector and value. -/
def maskedBytes (r : StkReq) : List (Nat × Byte) :=
  (r.data.zipIdx.filter (fun p => bitOf r.mask p.2)).map (fun p => (p.2, p.1))

/-- Open the row a bank access needs, counting an activation when it was not open. -/
def openRow (n : Nat) (r : StkReq) (s : State) : State :=
  if rowOpen s n r then s
  else bump (stkC n 0x118) 1 (modStack n (fun st => { st with
    openRows := tset 0 st.openRows (bankOfSector r.frame r.sector) (rowOfSector r.frame r.sector + 1) }) s)

/-- Write the bytes of one or more merged writes to their sector. -/
def issueWrite (n : Nat) (rs : List StkReq) (r : StkReq) (s : State) : State :=
  let k := reqSector n r * 64
  let bytes := (rs.flatMap maskedBytes).foldl (fun t p => tset (none : Option Byte) t p.1 (some p.2)) []
  writeKeys (bytes.filterMap (fun p => p.2.map (fun b => (k + p.1, b)))) (openRow n r s)

/-- Read the sector: its bytes are returned; an invalid state-class sector needs no bank (R171). -/
def issueRead (n : Nat) (r : StkReq) (s : State) : State :=
  let sk := reqSector n r
  let zero := sectorPoison s sk == 0 && tget 0 s.mem.sector sk == 0
  let s1 := touchRead sk (if zero then s else openRow n r s)
  let s2 := if r.lc then bump (stkC n 0x140) 1 s1 else s1
  answerBytes ((List.range 64).map (fun i => if sectorPoison s sk = 0 then keyByte s (sk * 64 + i) else 0)) s2

/-- Issue one request of a channel. -/
def issueReq (n ch now : Nat) (busy : List Nat) (s : State) : State :=
  let q := queueOf s n ch
  match pickReq s n ch now busy with
  | none => s
  | some i =>
    match q[i]? with
    | none => s
    | some r =>
      if r.write then
        let set := combineSet q i r
        let rs := set.filterMap (fun j => q[j]?)
        let cover := (List.range 64).all (fun b => rs.any (fun x => bitOf x.mask b))
        if stkConfig s n 28 28 = 1 ∧ set.length > 1 ∧ cover = true then
          bump (stkC n 0x128) rs.length (issueWrite n rs r
            (setQueue n ch ((q.zipIdx.filter (fun p => !set.contains p.2)).map Prod.fst) s))
        else issueWrite n [r] r (setQueue n ch (q.eraseIdx i) s)
      else issueRead n r (setQueue n ch (q.eraseIdx i) s)

/-- Mark and count the BE requests that AGE_CAP promotes (STK_AGE_PROMOTE). -/
def promoteAged (n ch now : Nat) (s : State) : State :=
  let q := queueOf s n ch
  let k := (q.filter (fun r => aged s n now r && !r.promoted)).length
  if k = 0 then s
  else bump (stkC n 0x148) k (setQueue n ch (q.map (fun r => if aged s n now r then { r with promoted := true } else r)) s)

/-- Start the fetch of valid bits that waiting requests lack (R172), counting each miss once. -/
def startFetches (n ch : Nat) (s : State) : State :=
  let fks := (((queueOf s n ch).filter (needsVmap s n)).map (fun r => n * 2 ^ 20 + r.frame)).eraseDups
  let new := fks.filter (fun k => !(stackOf s n).vmapMiss.contains k)
  if new.isEmpty then s
  else bump (stkC n 0x138) new.length (modStack n (fun st => { st with vmapMiss := st.vmapMiss ++ new }) s)

/-- `k` issues of a channel, re-evaluating its drain, its aged requests and its fetches before each. -/
def issueMany : Nat → Nat → Nat → Nat → List Nat → State → State
  | 0, _, _, _, _, s => s
  | k + 1, n, ch, now, busy, s =>
    issueMany k n ch now busy
      (admitReqs n ch [] (issueReq n ch now busy (startFetches n ch (promoteAged n ch now (updateDrain n ch s)))))

/-- STACK_REQUEST (R159 to R162, R166, R167): requests arrive at a channel and `grants` sectors are issued to banks that are not
`busy`; `fullCycles` counts the stack-clock cycles in which the queue was full since the last command. A stack in reset or
training takes none: they wait in the network (R181). -/
def execStackRequest (stack ch : Nat) (arriving : List StkReq) (grants : Nat) (busy : List Nat) (fullCycles time : Nat)
    (s : State) : Res :=
  .next (if stack < 12 ∧ ch < 32 then
      let s0 := atTime time s
      if (stackOf s0 stack).state = 2 then
        modStack stack (fun st => { st with heldReqs := st.heldReqs ++ arriving.map (fun r => (ch, r)) }) s0
      else
        let s1 := if fullCycles = 0 then s0 else bump (stkC stack 0x150) fullCycles s0
        updateDrain stack ch (issueMany grants stack ch s1.now busy (startFetches stack ch (admitReqs stack ch arriving s1)))
    else s)

/-- VMAP_FETCH_DONE (R172): the frame's valid bits enter the mixed-frame cache as its most recent entry. -/
def execVmapFetchDone (stack frame : Nat) (s : State) : Res :=
  let fk := stack * 2 ^ 20 + frame
  .next (if (stackOf s stack).vmapMiss.contains fk then
      modStack stack (fun st => { st with
        vmapMiss := st.vmapMiss.filter (fun x => decide (x ≠ fk))
        mixed := if (frameOf s fk).summary = 3 then (fk :: st.mixed.filter (fun x => decide (x ≠ fk))).take 16384 else st.mixed }) s
    else s)

/-- FRAME_FILL_DONE (R173, R174): the poison fill of a bulk-class frame completes, and its granule becomes usable. -/
def execFrameFillDone (stack frame : Nat) (s : State) : Res :=
  let fk := stack * 2 ^ 20 + frame
  .next (if (frameOf s fk).filling then modFrame fk (fun f => { f with filling := false }) s else s)

/-- REFRESH (R176): a bank is refreshed for a number of stack-clock cycles; its row closes. -/
def execRefresh (stack bank cycles : Nat) (s : State) : Res :=
  .next (if stack < 12 ∧ bank < 1024 then
      bump (stkC stack 0x158) cycles (modStack stack (fun st => { st with openRows := tset 0 st.openRows bank 0 }) s)
    else s)

/-- XLATE_MISS_FETCH (R367): an access misses the translation caches and is served from the stack metadata. What it finds is what
`resolve` answers; the miss is counted. -/
def execXlateMissFetch (s : State) : Res := .next (bump 0x4A0 1 s)

end Sys2Proof.Machine
end

