-- ==== Sys2Proof/Machine/RasOps.lean ====
section
/-! DEFINITION. Shared operations of errors, repair and containment (chapter 18): positions, remap entries, scrubs, sparing, lost dies. -/

namespace Sys2Proof.Machine

/-- A field of RAS_CONFIG. -/
def rasConfig (s : State) (hi lo : Nat) : Nat := rfield s 0x1400000 hi lo

/-- Lines before a signature: at least 2 (Table 18.8). -/
def lineMin (s : State) : Nat := max 2 (rasConfig s 7 0)

/-- Column of a sector in its bank row (Table 7.2). -/
def colOfSector (sector : Nat) : Nat := sector / 2 % 32

/-- The position word q3 (Table 18.6). -/
def posWord (die bank row col bit sym : Nat) : Nat := die + bank * 2 ^ 4 + row * 2 ^ 10 + col * 2 ^ 25 + bit * 2 ^ 30 + sym * 2 ^ 39

/-- The position of a bit of a sector; symbols are 16 bits wide. -/
def sectorPos (frame sector bit : Nat) : Nat :=
  let b := bankOfSector frame sector
  posWord (b / 64) (b % 64) (rowOfSector frame sector) (colOfSector sector) bit (bit / 16)

/-- The owner word of a frame: tenant and order of its granule. -/
def frameOwner (s : State) (fk : Nat) : Nat :=
  match (frameOf s fk).granule.bind (fun g => tget Option.none s.mem.map g) with
  | some e => ownerWord e.tenant e.order 0
  | Option.none => ownerDev

/-! ### Remap entries (R473 to R475) -/

def remapOf (s : State) (b : Nat) : Remap := tget Remap.reset s.ras.remap b

def modRemap (b : Nat) (f : Remap → Remap) (s : State) : State :=
  { s with ras := { s.ras with remap := tmod Remap.reset s.ras.remap b f } }

/-- Free entries of a bank, those allotted to repairs under way taken off. -/
def remapFree (s : State) (b : Nat) : Nat :=
  let r := remapOf s b
  8 - r.fuse - r.rows.length - r.cols.length - (s.ras.repairs.filter (fun x => decide (x.bank = b))).length

def modScrub (f : ScrubSt → ScrubSt) (s : State) : State := { s with ras := { s.ras with scrub := f s.ras.scrub } }

/-- Retire a frame (R475): never allocated again; the floorwalker moves its granule. -/
def retireFrame (fk : Nat) (s : State) : State :=
  if (frameOf s fk).retired then s
  else
    let n := fk / 2 ^ 20
    let b := n * 1024 + fk % 512 / 32 * 64 + 2 * (fk % 32)
    rasLog 0x06 4 (unitWord 4 n 0) (keyAddr s (fk * 65536)) 0 (frameOwner s fk) (fk % 2 ^ 20)
      (bump 0x1400138 1 (modRemap b (fun r => { r with retired := min 2048 (r.retired + 1) }) (modFrame fk (fun f => { f with retired := true }) s)))

/-- A hard fault of a row (R474, R475): a row entry that takes effect at the next boundary, or the frame of the row is retired. -/
def hardRow (n frame sector bit : Nat) (scrub : Bool) (s : State) : State :=
  let b := n * 1024 + bankOfSector frame sector
  let row := rowOfSector frame sector
  let unit := unitWord 4 n 0
  let addr := keyAddr s ((n * 2 ^ 20 + frame) * 65536 + sector * 64)
  let pos := sectorPos frame sector bit
  if rasConfig s 16 16 = 0 then rasLog 0x04 1 unit addr pos ownerDev 0 s
  else if s.ras.repairs.any (fun x => decide (x.bank = b ∧ x.index = row) && !x.column) || (remapOf s b).rows.contains row then s
  else if remapFree s b > 0 then
    let s1 := rasLog 0x04 1 unit addr pos ownerDev 1 { s with ras := { s.ras with repairs := s.ras.repairs ++ [⟨b, false, row, true⟩] } }
    if scrub then modScrub (fun x => { x with rowsRemapped := x.rowsRemapped + 1 }) s1 else s1
  else
    let was := (frameOf s (n * 2 ^ 20 + frame)).retired
    let s1 := retireFrame (n * 2 ^ 20 + frame) (rasLog 0x05 4 unit addr pos ownerDev 1 s)
    if scrub then modScrub (fun x => { x with remapFull := x.remapFull + 1, framesRetired := x.framesRetired + (if was then 0 else 1) }) s1 else s1

/-- A line signature is repaired by a column entry: its copy starts (R473). -/
def repairLine (n die bank col : Nat) (s : State) : State :=
  let b := n * 1024 + die * 64 + bank
  if rasConfig s 16 16 = 0 then s
  else if remapFree s b > 0 then
    modScrub (fun x => { x with colsRemapped := x.colsRemapped + 1 }) { s with ras := { s.ras with repairs := s.ras.repairs ++ [⟨b, true, col, false⟩] } }
  else
    modScrub (fun x => { x with remapFull := x.remapFull + 1 })
      (rasLog 0x05 4 (unitWord 4 n 0) 0 (posWord die bank 0 col 0 0) ownerDev 2 s)

/-- Key of a correction's position group: stack, die, bank, column, bit. -/
def groupKey (n frame sector bit : Nat) : Nat :=
  ((n * 1024 + bankOfSector frame sector) * 32 + colOfSector sector) * 512 + bit

/-- Group a scrub correction (R472): at LINE_MIN distinct rows the group holds a line signature, which is repaired; outside any signature a
second correction of the same bit is a hard fault, and a first one is transient (R474). -/
def scrubCorrected (n frame sector bit : Nat) (s : State) : State :=
  let k := groupKey n frame sector bit
  let row := rowOfSector frame sector
  let g := (s.ras.scrub.groups.find? (fun g => decide (g.pos = k))).getD ⟨k, [], false⟩
  let g1 : PosGroup := { g with rows := if g.rows.contains row then g.rows else g.rows ++ [row] }
  let sig := decide (g1.rows.length ≥ lineMin s)
  let g2 : PosGroup := { g1 with signature := g1.signature || sig }
  let s1 := modScrub (fun x => { x with groups := x.groups.filter (fun y => decide (y.pos ≠ k)) ++ [g2] }) s
  let id := ((n * 2 ^ 20 + frame) * 1024 + sector) * 512 + bit
  if sig && !g.signature then
    repairLine n (bankOfSector frame sector / 64) (bankOfSector frame sector % 64) (colOfSector sector)
      (bump 0x1400130 1 (modScrub (fun x => { x with lines := x.lines + 1 }) s1))
  else if g2.signature then s1
  else if s.ras.seen.contains id then hardRow n frame sector bit true s1
  else { s1 with ras := { s1.ras with seen := id :: s1.ras.seen } }

/-! ### Scrubs (R468 to R471) -/

/-- The five summary words (Table 18.10). -/
def scrubSums (x : ScrubSt) (endCode time : Nat) : List Nat :=
  [min x.read (2 ^ 40 - 1) + min x.skipped (2 ^ 24 - 1) * 2 ^ 40, min x.invalid (2 ^ 40 - 1) + min x.unwritten (2 ^ 24 - 1) * 2 ^ 40,
   min x.corrected (2 ^ 32 - 1) + min x.ue (2 ^ 24 - 1) * 2 ^ 32 + min x.lines 255 * 2 ^ 56,
   min x.rowsRemapped 65535 + min x.colsRemapped 65535 * 2 ^ 16 + min x.remapFull 65535 * 2 ^ 32 + min x.framesRetired 65535 * 2 ^ 48,
   time % 2 ^ 48 + endCode * 2 ^ 48]

/-- The boundary after GO starts the scrub: its number, its counters at zero, every present stack's part; granules unbound or bound to an absent
stack are skipped. -/
def startScrub (s : State) : State :=
  if !s.ras.scrub.requested then s
  else
    let x := s.ras.scrub
    let bound := (s.mem.map.filter (fun p => decide (x.start ≤ p.1 ∧ p.1 < x.start + x.count)
      && (p.2.map (fun e => decide ((stackOf s e.stack).state ≠ 1))).getD false)).length
    modScrub (fun x => { ScrubSt.reset with
      busy := true, start := x.start, count := x.count, seq := (x.seq + 1) % 2 ^ 32
      cursor := (List.range 12).foldl (fun t n => if (stackOf s n).state ≠ 1 then tset 0 t n (x.start * 1024 + 1) else t) []
      skipped := x.count - bound, sums := [0, 0, 0, 0, 0] }) { s with ras := { s.ras with seen := s.ras.seen } }

/-- The next sector of a stack's part: granule and sector; none when the part has ended. -/
def scrubNext (s : State) (n : Nat) : Option (Nat × Nat × MapEnt) :=
  let x := s.ras.scrub
  match tget 0 x.cursor n with
  | 0 => none
  | c + 1 =>
    (s.mem.map.find? (fun p => decide (c / 1024 ≤ p.1 ∧ p.1 < x.start + x.count) && (p.2.map (fun e => decide (e.stack = n))).getD false)).bind
      (fun p => p.2.map (fun e => (p.1, (if p.1 = c / 1024 then c % 1024 else 0), e)))

/-- End the scrub: line signatures are logged with their rows, the summary is written (R470, R472). -/
def endScrub (code : Nat) (s : State) : State :=
  let x := s.ras.scrub
  let s1 := (x.groups.filter (fun g => g.signature)).foldl (fun s g =>
    let b := g.pos / 512 / 32
    let col := g.pos / 512 % 32
    let fixed := s.ras.repairs.any (fun r => decide (r.bank = b ∧ r.index = col) && r.column) || (remapOf s b).cols.contains col
    rasLog 0x03 (if fixed then 1 else 0) (unitWord 4 (b / 1024) 0) 0 (posWord (b % 1024 / 64) (b % 64) 0 col (g.pos % 512) (g.pos % 512 / 16)) ownerDev
      (min g.rows.length 65535 + (if fixed then 2 ^ 16 else 2 ^ 17)) s) s
  let sums := scrubSums x code (nowMs s1)
  modScrub (fun x => { x with busy := false, requested := false, endCode := code, time := nowMs s1, cursor := [], groups := [], sums := sums }) s1

/-! ### Sparing and lost units (R479 to R481) -/

/-- Contexts with state on a shop end with RESET_LOST (R135, R480). -/
def shopContexts (s : State) (n : Nat) : List Nat :=
  let sh := shopOf s n
  ((sh.engines.flatMap (fun e => e.queue.map (fun x => x.ctx) ++ e.runs.map (fun r => r.cmd.ctx)))
    ++ (sh.banks.filter (fun b => decide (b.st ≠ 0))).map (fun b => b.ctx) ++ sh.loads.map (fun l => l.ctx) ++ sh.lists.map (fun l => l.ctx)
    ++ sh.preempted.map (fun p => p.ctx) ++ sh.array.passes.map (fun p => p.cmd.ctx) ++ sh.launches.map (fun l => l.cmd.ctx)).eraseDups

/-- End every context with state on a shop with RESET_LOST. -/
def loseShop (n : Nat) (s : State) : State :=
  (shopContexts s n).foldl (fun s c => workFault n 0xA 0 0 c 0 0 s) s

/-- The array of a shop at its reset (R78): the fuse map, then the soft repair record that flash holds. -/
def arrayMap (a : ArraySt) : ArraySt :=
  { ArraySt.reset with
    rowsOff := a.flashRows.foldl (fun o p => (retireIdx o p).getD o) ArraySt.reset.rowsOff
    colsOff := a.flashCols.foldl (fun o p => (retireIdx o p).getD o) ArraySt.reset.colsOff
    softRows := a.flashRows, softCols := a.flashCols, flashRows := a.flashRows, flashCols := a.flashCols }

/-- A shop after a reset or on an empty spare (R81, R135): array map applied, stockroom zero and owned by none, everything else clear; its
firmware, repairs and live window records stay. -/
def shopCleared (n : Nat) (s : State) : State :=
  let s1 := { s with benches := s.benches.filterMap (fun (p : Nat × BenchSt) =>
      if p.1 / 256 ≠ n then some p else if p.2.absent then some (p.1, { BenchSt.reset with absent := true }) else none) }
  let base := roomAddr n 0
  let s2 := { s1 with mem := { s1.mem with
      bytes := s1.mem.bytes.filter (fun p => decide (p.1 < base ∨ base + 0x200000 ≤ p.1))
      line := s1.mem.line.filter (fun p => decide (p.1 * 64 < base ∨ base + 0x200000 ≤ p.1 * 64)) } }
  modShop n (fun sh =>
    let a := sh.array
    { ShopSt.reset with
      state := sh.state, spare := sh.spare, shadow := sh.shadow, spareFree := sh.spareFree, lastSpared := sh.lastSpared
      fwVersion := sh.fwVersion, fwCrc := sh.fwCrc, fwPending := sh.fwPending, imem := sh.imem.filter (fun p => decide (p.1 % 4096 < 0x400))
      array := arrayMap a }) s2

/-- A unit whose live counters restart within a period is marked (R550). -/
def markPartial (unit : Nat) (s : State) : State :=
  { s with stat := { s.stat with partialNow := if s.stat.partialNow.contains unit then s.stat.partialNow else s.stat.partialNow ++ [unit] } }

/-- Live counters of a shop's window restart at its reset (R81 step 5). -/
def clearShopCounters (n : Nat) (s : State) : State :=
  markPartial (unitWord 2 n 0) { s with regs := { s.regs with
    live := s.regs.live.filter (fun p => decide (p.1 < shopC n 0x100 ∨ shopC n 0x10000 ≤ p.1)) } }

/-- Live counters of a stack's window restart at its reset (R550), and the per-bell figures counted from them. -/
def clearStackCounters (n : Nat) (s : State) : State :=
  let keep := fun (p : Nat × Nat) => decide (p.1 < stkC n 0x100 ∨ stkC n 0x10000 ≤ p.1)
  markPartial (unitWord 4 n 0) { s with regs := { s.regs with live := s.regs.live.filter keep, bbase := s.regs.bbase.filter keep } }

/-- Spare positions of a shop's quarter in use or being moved to. -/
def sparesTaken (s : State) (q : Nat) : List Nat :=
  (s.shops.filterMap (fun p => if shopQuarter p.1 = q then p.2.spare else none))
    ++ (s.ras.moves.filter (fun m => decide (shopQuarter m.1 = q))).map (fun m => m.2 / 2)

/-- The lowest free spare position of a quarter. -/
def freeSpare (s : State) (q : Nat) : Option Nat :=
  ((List.range 4).map (fun i => 84 * q + 80 + i)).find? (fun p => !(sparesTaken s q).contains p && !s.ras.badSpares.contains p)

/-- A shop is marked absent. -/
def shopAbsent (n cause : Nat) (s : State) : State :=
  unitAbsent (unitWord 2 n 0) cause (modShop n (fun sh => { sh with state := 1 }) (loseShop n s))

/-- The shop leaves its shadow for none at the next boundary when its position becomes a spare (R21, R349). -/
def leaveShadow (n : Nat) (s : State) : State :=
  let old := (shopOf s n).shadow
  if old ≥ 12 then s
  else modPlc (fun p => { p with moved := p.moved ++ [(n, old)] }) (modShop n (fun sh => { sh with shadow := 0xF }) s)

/-- A failed shop is spared or absent (R480): the state moves to the lowest free spare position of its quarter, or the spare is taken empty. -/
def spareShop (n : Nat) (empty : Bool) (s : State) : State :=
  match freeSpare s (shopQuarter n) with
  | none => shopAbsent n 1 s
  | some p => { s with ras := { s.ras with moves := s.ras.moves ++ [(n, p * 2 + b2n empty)] } }

/-- The lost frames of a die or stack: orders with frames there fault at the next boundary, prefixes there are released. -/
def framesLost (n : Nat) (lost : Nat → Bool) (s : State) : State :=
  let hit := fun (g : Nat) => ((tget Option.none s.mem.map g).map (fun e => decide (e.stack = n) && lost e.frame)).getD false
  let os := ((s.mem.map.filterMap (fun p => p.2.bind (fun e => if e.stack = n && lost e.frame then e.order else Option.none))).eraseDups).filter
    (fun o => decide ((orderOf s o).state ≠ 0))
  let s1 := os.foldl (fun s o => modOrder o (fun r => { r with faultPend := some (r.faultPend.getD (2, 0, 0)) }) s) s
  let ns := (s1.book.nodes.filterMap (fun p => p.2.bind (fun x => if (nodeGranules s1 x).any hit then some p.1 else none)))
  ns.foldl (fun s k => releaseNode k s) s1

/-- A DRAM die is lost (R481). -/
def dieLost (n die : Nat) (s : State) : State :=
  if (stackOf s n).diesLost.contains die || decide (n ≥ 12 ∨ (stackOf s n).state = 1) then s
  else
    let s1 := framesLost n (fun f => decide (frameDie f = die)) s
    let s2 := modStack n (fun st => { st with diesLost := st.diesLost ++ [die] }) s1
    let s3 := (List.range 32).foldl (fun s i => modFul n (fun x => { x with absent := if x.absent.contains (die * 32 + i) then x.absent else x.absent ++ [die * 32 + i] }) s) s2
    bump 0x1400138 65536 (rasLog 0x0E 4 (unitWord 4 n die) 0 (posWord die 0 0 0 0 0) ownerDev 65536 s3)

/-- A stack is marked absent (R481): its invocations and the migrations that touch it end. -/
def stackAbsent (n cause : Nat) (s : State) : State :=
  if (stackOf s n).state = 1 then s
  else
    let s1 := framesLost n (fun _ => true) s
    let s2 := if (runOf s1 n).isSome then invFault n 0 0xA 0 s1 else s1
    let s3 := abortWhere 4 (fun _ e => decide (e.stack = n ∨ e.dest = n)) s2
    let s4 := modStack n (fun st => { st with state := 1, queues := [], heldReqs := [] }) s3
    bump 0x1400138 (2 ^ 20) (unitAbsent (unitWord 4 n 0) cause (modFul n (fun x => { x with absent := List.range 512 }) s4))

/-- A steward's record. -/
def stewardOf (s : State) (h : Nat) : Steward := tget Steward.reset s.sys.stewards h

def modSteward (h : Nat) (f : Steward → Steward) (s : State) : State :=
  { s with sys := { s.sys with stewards := tmod Steward.reset s.sys.stewards h f } }

/-- A steward is restarted from flash; its duties move at the next boundary (R465, R521, Table 18.4). -/
def restartSteward (h : Nat) (s : State) : State :=
  if h ≥ 8 ∨ (stewardOf s h).present = false ∨ (stewardOf s h).restarting = true then s
  else bump 0x1600108 1 (modSteward h (fun x => { x with restarting := true, halted := none }) s)

end Sys2Proof.Machine
end

