-- ==== Sys2Proof/Machine/Ras.lean ====
section
/-! DEFINITION. Meanings of the rows of chapter 18: scrubs, repairs, sparing, lost units, log access. -/

namespace Sys2Proof.Machine

/-! ### Scrubs -/

/-- A GO asks for a scrub of the range in RAS_SCRUB_START and RAS_SCRUB_COUNT, from the next boundary; while one runs, or with a
bad range, it changes nothing and is counted. -/
def askScrub (s : State) : State :=
  let start := rfield s 0x1400008 23 0
  let count := rfield s 0x1400010 24 0
  if s.ras.scrub.busy ∨ s.ras.scrub.requested ∨ count = 0 ∨ start + count > 12582912 then accessFault 0x1400000 s
  else modScrub (fun x => { x with requested := true, start := start, count := count, endCode := 0 }) s

/-- SCRUB_GO (R468). -/
def execScrubGo (s : State) : Res := .next (askScrub s)

/-- An ABORT: the running scrub ends at a sector boundary; its summary covers what it scrubbed. -/
def abortScrub (s : State) : State :=
  if s.ras.scrub.busy then endScrub 2 s
  else if s.ras.scrub.requested then modScrub (fun x => { x with requested := false, endCode := 2, sums := [0, 0, 0, 0, nowMs s % 2 ^ 48 + 2 * 2 ^ 48] }) s
  else s

/-- SCRUB_ABORT (R470). -/
def execScrubAbort (s : State) : Res := .next (abortScrub s)

/-- SCRUB_READ (R469) of the next sector of a stack's part: `symbols` in error, and the bit of a single one. -/
def execScrubRead (stack symbols bit : Nat) (s : State) : Res :=
  .next (if !s.ras.scrub.busy then s
    else match scrubNext s stack with
      | none => s
      | some (g, sec, e) =>
        let fk := stack * 2 ^ 20 + e.frame
        let sk := fk * 1024 + sec
        let s0 := modScrub (fun x => { x with cursor := tset 0 x.cursor stack (g * 1024 + sec + 2) }) s
        let f := frameOf s fk
        if frameState f && tget 0 s.mem.sector sk == 0 then modScrub (fun x => { x with invalid := x.invalid + 1 }) s0
        else
          let s1 := modScrub (fun x => { x with read := x.read + 1 }) (bump (stkC stack 0x100) 1 (countHeat fk s0))
          match sectorPoison s sk with
          | 1 => modScrub (fun x => { x with unwritten := x.unwritten + 1 }) s1
          | 2 => modScrub (fun x => { x with ue := x.ue + 1 }) s1
          | _ =>
            if symbols = 0 then s1
            else if symbols = 1 then
              scrubCorrected stack e.frame sec (bit % 512) (bump 0x1400100 1
                (modScrub (fun x => { x with corrected := x.corrected + 1 }) { s1 with ras := { s1.ras with ceStack := tset 0 s1.ras.ceStack stack (tget 0 s1.ras.ceStack stack + 1) } }))
            else
              let s2 := summarise fk { s1 with mem := { s1.mem with sector := tset 0 s1.mem.sector sk 2 } }
              let s3 := rasLog 0x02 2 (unitWord 4 stack 0) (keyAddr s (sk * 64)) (sectorPos e.frame sec 0) (frameOwner s fk) s.ras.scrub.seq
                (bump 0x1400108 1 (modScrub (fun x => { x with ue := x.ue + 1 }) s2))
              hardRow stack e.frame sec 0 true s3)

/-- SCRUB_DONE (R470): every stack has finished its part; SUM0 to SUM3 are the record's first words. -/
def execScrubDone (s : State) : Res :=
  .next (if s.ras.scrub.busy ∧ (List.range 12).all (fun n => (scrubNext s n).isNone) = true then
      let s1 := endScrub 1 s
      let w := fun (i : Nat) => (s1.ras.scrub.sums[i]?).getD 0
      rasLog 0x16 6 (w 0) (w 1) (w 2) (w 3) s1.ras.scrub.seq s1
    else s)

/-- COLUMN_REPAIR_DONE (R473): the copy to the spare column is complete; its entry takes effect at the next boundary. -/
def execColumnRepairDone (stack die bank column : Nat) (s : State) : Res :=
  let b := stack * 1024 + die * 64 + bank
  .next { s with ras := { s.ras with repairs := s.ras.repairs.map (fun r =>
    if r.bank = b ∧ r.column = true ∧ r.index = column then { r with copied := true } else r) } }

/-! ### SRAM rows and cellar units (R476, R477) -/

/-- A row of a stockroom (`warehouse` false) or warehouse bank with a hard or uncorrectable word, whose line lies at a local address, is mapped to
one of the bank's 4 spare rows; with none left the shop is spared, or the warehouse page is retired. -/
def sramRow (warehouse : Bool) (bank addr : Nat) (uncorrectable : Bool) (s : State) : State :=
  let unit := if warehouse then (addr - 0x010000000000) / 0x4000000 else (addr - 0x020000000000) / 0x200000
  let inside := if warehouse then decide (0x010000000000 ≤ addr ∧ addr < 0x010010000000)
    else decide (0x020000000000 ≤ addr ∧ addr < 0x020028000000 ∧ addr % 0x200000 < 0x180000)
  let key := (if warehouse then 512 + unit else unit) * 64 + bank
  let word := if warehouse then unitWord 1 unit 0 else unitWord 2 unit 0
  if !inside then s
  else
    let ln := addr / 64
    let s1 := if uncorrectable then
        rasLog 0x09 2 word (ln * 64) 0 ownerDev (if warehouse then 2 else 1) (bump 0x1400118 1 (setLine ln true s))
      else bump 0x1400110 1 s
    let used := tget 0 s1.ras.rowsUsed key
    if used < 4 then
      rasLog 0x0A 1 word (ln * 64) 0 ownerDev (3 - used) { s1 with ras := { s1.ras with rowsUsed := tset 0 s1.ras.rowsUsed key (used + 1) } }
    else if warehouse then
      let page := whPageOf addr
      setLine ln true { s1 with mem := { s1.mem with
        lineDead := if s1.mem.lineDead.contains ln then s1.mem.lineDead else s1.mem.lineDead ++ [ln]
        whRetired := if s1.mem.whRetired.contains page then s1.mem.whRetired else s1.mem.whRetired ++ [page] } }
    else s1

/-- SRAM_ROW_REPAIRED (R476). -/
def execSramRowRepaired (warehouse : Bool) (bank addr : Nat) (uncorrectable : Bool) (s : State) : Res :=
  .next (sramRow warehouse bank addr uncorrectable s)

/-- A write of RAS_FAR_RETIRE: a unit below CAPACITY of a port with fewer than 4,096 retired units is retired at the next boundary; any other write
changes nothing and is counted. -/
def askFarRetire (port unit : Nat) (s : State) : State :=
  let p := tget FarPort.reset s.book.far (port % 4)
  let held := (tget [] s.ras.farRetired (port % 4)).length + (s.ras.farRetirePend.filter (fun x => decide (x.1 = port % 4))).length
  if unit % 2 ^ 27 ≥ p.capacity ∨ held ≥ 4096 then accessFault 0x1400000 s
  else { s with ras := { s.ras with farRetirePend := s.ras.farRetirePend ++ [(port % 4, unit % 2 ^ 27)] } }

/-- RAS_FAR_RETIRE (R477). -/
def execRasFarRetire (port unit : Nat) (s : State) : Res := .next (askFarRetire port unit s)

/-! ### Sparing and absence (R465, R479 to R481) -/

/-- SHOP_SPARING (R480): a failed array (0), a stockroom bank without spare rows (1), an engine or command processor (2), or the network port (3);
`readable` false when the stockroom cannot be read. Nothing moves from an unreadable stockroom or a failed port, and no shop is spared during its own reset. -/
def execShopSparing (shop cause : Nat) (readable : Bool) (s : State) : Res :=
  .next (if shopPresent s shop = false ∨ s.ras.moves.any (fun m => decide (m.1 = shop)) = true ∨ (cause = 0 ∧ (shopOf s shop).array.failed = false) then s
    else
      let empty := decide (cause = 3) || !readable
      spareShop shop empty (if empty then loseShop shop s else s))

/-- SHOP_SPARE_MOVE_DONE (R480): the spare takes the logical number; work resumes where it stopped, or the spare is empty. -/
def execShopSpareMoveDone (shop : Nat) (s : State) : Res :=
  .next (match s.ras.moves.find? (fun m => decide (m.1 = shop)) with
    | none => s
    | some m =>
      let pos := m.2 / 2
      let s1 := { s with ras := { s.ras with moves := s.ras.moves.filter (fun x => decide (x.1 ≠ shop)) } }
      let s2 := if m.2 % 2 = 1 then shopCleared shop s1 else s1
      let s3 := modShop shop (fun sh => { sh with spare := some pos, array := { sh.array with
        failed := false, rowsOff := ArraySt.reset.rowsOff, colsOff := ArraySt.reset.colsOff, softRows := [], softCols := [], flashRows := [], flashCols := []
        lastRow := 0xFF, lastCol := 0xFF, transients := [] } }) s2
      leaveShadow shop (bump 0x1400140 1 (rasLog 0x0C 3 (unitWord 2 shop 0) 0 0 ownerDev pos s3)))

/-- DIE_LOST (R481): a die (`die` below 16), or with 16 the whole stack, for a failed self-check (cause 2) or interface (3). -/
def execDieLost (stack die cause : Nat) (s : State) : Res :=
  .next (if stack ≥ 12 then s else if die < 16 then dieLost stack die s else stackAbsent stack cause s)

/-- HOSTMGMT_UE (R465): an uncorrectable word of an order entry (0), a tally (1), a scheduler table entry (2, by candidate), an overflow-store record
(3, by ring) or steward memory (4). -/
def execHostmgmtUe (kind index : Nat) (s : State) : Res :=
  let s1 := rasLog 0x09 2 (unitWord 0 0 0) 0 0 ownerDev 4 (bump 0x1400118 1 s)
  .next (match kind with
    | 0 => if index < 65536 then faultOrder index 1 6 0 s1 else s1
    | 1 =>
      let ctxs := ((s1.tal.waits.filter (fun w => decide (w.tally = index))).map (fun w => w.ctx)).eraseDups
      if index < 65536 then ctxs.foldl (fun s c => ctxFaults c 0xA 0 (workEvents c 0xA 0 0 0 0 (unitWord 0 0 0) s)) (setTally index ⟨0, true⟩ s1) else s1
    | 2 => (match s1.sched.cands.find? (fun c => decide (c.id = index)) with
        | none => s1
        | some c =>
          let s2 := candGone index s1
          match c.ctx with
          | some x => ctxFaults x 0xA 0 (workEvents x 0xA 0 0 0 0 (unitWord 0 0 0) s2)
          | none => match c.order with
            | some (o, _) => modOrder o (fun r => { r with faultPend := some (r.faultPend.getD (1, 0xA, 0)) }) s2
            | none => s2)
    | 3 =>
      if (ringOf s1 index).store.isEmpty then s1
      else dropRecord index 1 (modRing index (fun r => { r with store := r.store.drop 1 }) s1)
    | 4 => restartSteward index s1
    | _ => s1)

/-- LOCKSTEP_FAILURE (R520, Table 18.4): the steward is restarted, or absent; its duties move at the next boundary. -/
def execLockstepFailure (steward : Nat) (restart : Bool) (s : State) : Res :=
  .next (if steward ≥ 8 ∨ (stewardOf s steward).present = false then s
    else if restart then restartSteward steward s
    else unitAbsent (unitWord 11 steward 0) 2 (modSteward steward (fun x => { x with present := false, halted := none, restarting := false }) s))

/-- A lane of a stack channel fails: the traffic moves to one of the channel's two spare lanes; a third loss halves the channel's rate. -/
def laneLost (stack channel lane : Nat) (s : State) : State :=
  let k := tget 0 (stackOf s stack).lanesLost channel + 1
  let s1 := modStack stack (fun st => { st with lanesLost := tset 0 st.lanesLost channel k }) s
  if k ≤ 2 then bump 0x1400140 1 (rasLog 0x0C 3 (unitWord 4 stack lane) 0 0 ownerDev k s1)
  else rasLog 0x14 4 (unitWord 4 stack channel) 0 0 ownerDev k s1

/-- STACK_CHANNEL_LANE_FAILURE (Table 18.4). -/
def execStackChannelLaneFailure (stack channel lane : Nat) (s : State) : Res :=
  .next (if stackPresent s stack = false ∨ channel ≥ 32 then s else laneLost stack channel lane s)

/-! ### Log access (R493, R495) -/

/-- A write of RAS_LOG_SEL: a snapshot of the record of a sequence number; one of the non-volatile log is read within 100 µs. -/
def selectLog (seq : Nat) (nv : Bool) (s : State) : State :=
  let s1 := rset 0x1400070 (seq % 2 ^ 32 + b2n nv * 2 ^ 32) s
  if nv then { s1 with ras := { s1.ras with pendingRead := some (seq % 2 ^ 32) } }
  else { s1 with ras := { s1.ras with
    pendingRead := none, bad := false, shown := ((s1.ras.log.find? (fun r => decide (r.seq = seq % 2 ^ 32))).map rasShown).getD (List.replicate 8 0) } }

/-- RAS_LOG_SEL (R493). -/
def execRasLogSel (seq : Nat) (nv : Bool) (s : State) : Res := .next (selectLog seq nv s)

/-- NV_LOG_READ_DONE: PENDING clears and the record is shown, marked BAD when its CRC failed. -/
def execNvLogReadDone (s : State) : Res :=
  .next (match s.ras.pendingRead with
    | none => s
    | some q => { s with ras := { s.ras with
        pendingRead := none, bad := s.ras.nvBad.contains q && s.ras.nvLog.any (fun r => decide (r.seq = q))
        shown := ((s.ras.nvLog.find? (fun r => decide (r.seq = q))).map rasShown).getD (List.replicate 8 0) } })

/-! ### The boundary's work (R473 to R475, R477) -/

/-- Remap entries whose copies are complete take effect (step 3). -/
def applyRepairs (s : State) : State :=
  let go := s.ras.repairs.filter (fun r => r.copied)
  go.foldl (fun s r => bump 0x1400128 1 (modRemap r.bank (fun m =>
      if r.column then { m with cols := m.cols ++ [r.index] } else { m with rows := m.rows ++ [r.index] }) s))
    { s with ras := { s.ras with repairs := s.ras.repairs.filter (fun r => !r.copied) } }

/-- Cellar units written to RAS_FAR_RETIRE are retired. -/
def applyFarRetire (s : State) : State :=
  s.ras.farRetirePend.foldl (fun s p =>
    let l := tget [] s.ras.farRetired p.1
    if l.contains p.2 then s else { s with ras := { s.ras with farRetired := tset [] s.ras.farRetired p.1 (l ++ [p.2]) } })
    { s with ras := { s.ras with farRetirePend := [] } }

end Sys2Proof.Machine
end

