-- ==== Sys2Proof/Machine/Boot.lean ====
section
/-! DEFINITION. Bring-up, the reset scopes and the power rows (chapter 19, R356, R571, R573). -/

namespace Sys2Proof.Machine

/-! ### What a reset leaves -/

/-- The bits of a register that flash restores at bring-up: every installer field (R321, R360, R423, R456, R535), and all of BLS_CONFIG (R423). -/
def flashMask (key : Nat) : Nat :=
  let off := key % 2 ^ 32
  if off = 0x1008008 then 2 ^ 64 - 1
  else match locate off with
    | some (b, w, o) => ((findReg b w o).map (fun r => ((r.fields.filter (fun f => f.installer)).map (fun f => 2 ^ (f.hi + 1) - 2 ^ f.lo)).sum)).getD 0
    | none => 0

/-- A register's value after a reset: its flash bits, the reset value elsewhere. -/
def restoredValue (key : Nat) (v : BitVec 64) : Option (BitVec 64) :=
  let m := flashMask key
  if m = 0 then none else some (BitVec.ofNat 64 ((v.toNat &&& m) + (resetAt (key % 2 ^ 32) &&& (2 ^ 64 - 1 - m))))

/-- Registers after a reset; counters are zero (R494), and a WOT field counts as written once it has been (R535). A compute-part reset keeps the
BLS block. -/
def restoredRegs (linkKept : Bool) (r : RegSt) : RegSt :=
  { RegSt.reset with
    vals := r.vals.filterMap (fun p =>
      if linkKept && decide (0x1000000 ≤ p.1 % 2 ^ 32 ∧ p.1 % 2 ^ 32 < 0x1100000) then some p
      else (p.2.bind (restoredValue p.1)).map (fun v => (p.1, some v)))
    old := if linkKept then r.old.filter (fun p => decide (p.1 % 2 ^ 32 = 0x1008000)) else []
    wot := r.wot, last := r.last, lastBytes := r.lastBytes }

/-- Memory after a reset (R180): every frame free and unwritten but for the retired ones; retired warehouse pages stay retired (R498). -/
def clearedMem (m : MemSt) : MemSt :=
  { MemSt.reset with
    frames := tmap Frame.reset m.frames (fun _ f => { Frame.reset with retired := f.retired })
    whRetired := m.whRetired, lineDead := m.lineDead }

/-- The error log after a reset (R494): sequence numbers continue from the non-volatile log; flash keeps repairs, retired units and that log. -/
def clearedRas (r : RasSt) : RasSt :=
  { RasSt.reset with
    nvLog := r.nvLog, nvBad := r.nvBad, seq := ((r.nvLog.head?).map (fun x => x.seq)).getD 0
    remap := r.remap, farRetired := r.farRetired, rowsUsed := r.rowsUsed }

/-- Shops after a reset: only the soft repair records that flash holds. -/
def clearedShops (t : Tbl ShopSt) : Tbl ShopSt :=
  tmap ShopSt.reset t (fun _ sh => { ShopSt.reset with array := { ArraySt.reset with flashRows := sh.array.flashRows, flashCols := sh.array.flashCols } })

/-- The quarter, shop and stack domains after a loss of power. -/
def computeCleared (s : State) : State :=
  { s with
    mem := clearedMem s.mem, stks := [], shops := clearedShops s.shops, benches := [], selectors := [], grammars := [], fulStacks := [], fullers := [] }

/-- Every 12 V domain is reset, or every one but the link domain (R505, R513 to R515): what the always-on domain and flash hold stays. -/
def domainsReset (linkKept : Bool) (s : State) : State :=
  let s0 := computeCleared (flushRefused (closeSession s))
  let y := s0.sys
  let far := tmap FarPort.reset s0.book.far (fun _ f => { FarPort.reset with present := f.present })
  { s0 with
    bell := 0, ready := false
    regs := restoredRegs linkKept s0.regs
    host := { HostSt.reset with mem := s0.host.mem, fails := s0.host.fails, perst := s0.host.perst, perstRelease := s0.host.perstRelease }
    tal := TallySt.reset, ras := clearedRas s0.ras, stat := StatSt.reset, sched := SchedSt.reset
    book := { BookSt.reset with far := far }
    bal := if linkKept then { s0.bal with reqs := [], colls := [], ctrlOut := [], heldReady := [], collSeq := [] }
      else { BalisSt.reset with active := rfield { s0 with regs := restoredRegs false s0.regs } 0x1008000 11 0 }
    therm := { s0.therm with units := [], allow := [] }
    jobs := JobSt.reset
    sys := { SysSt.reset with
      origin := y.origin, readyAt := y.readyAt, flash := y.flash, aux := y.aux, v12 := y.v12, pwrOk := y.pwrOk, sysRstN := y.sysRstN
      supplyBad := y.supplyBad, smbAddr := y.smbAddr, auditSeq := y.auditSeq, auditRead := y.auditRead, auditLast := y.auditLast
      role := { RoleSt.reset with fails := y.role.fails, lockedTill := y.role.lockedTill, state := if y.role.state = 3 then 3 else 0 }
      lockPolicy := y.lockPolicy, fuses := y.fuses, makerRecords := y.makerRecords, jtagIr := y.jtagIr, extest := y.extest
      powered := linkKept } }

/-- SYS_RST_N, a loss of 12 V or a trip: every 12 V domain at once, with no drain and no message (R515). -/
def deviceReset (origin : Nat) (s : State) : State :=
  let s1 := domainsReset false s
  { s1 with sys := { s1.sys with origin := if s.sys.powered then origin else s.sys.origin } }

/-- The units that GLB_CAPS counts (Table 22.4b): shops, stacks, quarters, stewards, selectors present, and Balis ports ready. -/
def capsCount (s : State) : Nat :=
  let shops := (List.range 320).filter (fun n => decide ((shopOf s n).state ≠ 1))
  shops.length + ((List.range 12).filter (fun n => decide ((stackOf s n).state ≠ 1))).length * 2 ^ 9
    + ((List.range 4).filter (fun q => shops.any (fun n => decide (shopQuarter n = q)))).length * 2 ^ 13
    + ((List.range 8).filter (fun h => (stewardOf s h).present)).length * 2 ^ 16
    + ((List.range 4).filter (fun q => !(selOf s q).absent)).length * 2 ^ 20
    + ((List.range 16).filter (fun n => decide ((portOf s n).state = 3))).length * 2 ^ 23

/-- GLB_CAPS: set when step 5 ends. -/
def capsWord (s : State) : Nat := if s.sys.stage = 8 then s.sys.caps else if s.sys.stage ≥ 6 then capsCount s else 0

/-- Bring-up cannot reach READY (R503): FAILED, and the quarter, shop and stack domains are powered down. -/
def bootFails (cause : Nat) (s : State) : State :=
  let s1 := computeCleared s
  { s1 with ready := false, sys := { s1.sys with stage := 8, cause := cause, caps := capsWord s } }

/-! ### Bring-up (R496 to R504) -/

/-- Step 1 (R497): slot A, then slot B; `okA` and `okB` are the outcomes of the signature and version checks. -/
def bootStep1 (okA okB : Bool) (s : State) : State :=
  let s1 := { s with sys := { s.sys with slot := if okA then 0 else 1, slotABad := !okA } }
  if okA || okB then { s1 with sys := { s1.sys with stage := 2 } } else bootFails 1 { s1 with sys := { s1.sys with slot := 0 } }

/-- SYS_RST_N_RELEASE (R496, R571, R573, R576): with auxiliary, 12 V and PWR_OK present and no trip latched, bring-up starts. -/
def execSysRstNRelease (okA okB : Bool) (time : Nat) (s : State) : Res :=
  let s := atTime time s
  if s.sys.sysRstN then .next s
  else
    let s1 := { s with sys := { s.sys with sysRstN := true } }
    .next (if s.sys.aux ∧ s.sys.v12 ∧ s.sys.pwrOk ∧ s.therm.tripLatch = false then
        bootStep1 okA okB { s1 with sys := { s1.sys with powered := true, supplyBad := false, released := s.now } }
      else s1)

/-- The shadow of a logical shop at READY (Table 14.4): a spare position lies in none. -/
def shadowOf (n : Nat) (spare : Option Nat) : Nat :=
  let i := n % 80
  let q := n / 80
  if spare.isSome then 0xF
  else if 20 ≤ i ∧ i < 30 then 3 * q else if 34 ≤ i ∧ i < 46 then 3 * q + 1 else if 50 ≤ i ∧ i < 64 then 3 * q + 2 else 0xF

/-- Step 2's end (R360, R498): every enabled channel reads below its warning threshold; the domains are powered, repair records applied, stacks and
bridges trained. -/
def execThermalGate (time : Nat) (s : State) : Res :=
  let s := atTime time s
  .next (if s.sys.stage ≠ 2 ∨ (List.range 56).any (fun c => chanEnabled s c && decide (signedOf 16 (chanReading s c) ≥ warnAt s (chanUnit c))) = true then s
    else
      let s1 := (List.range 320).foldl (fun s n => modShop n (fun sh => { sh with state := 0, shadow := shadowOf n none, array := arrayMap sh.array }) s) s
      let s2 := (List.range 12).foldl (fun s n => modStack n (fun st => { st with state := 0 }) s) s1
      { s2 with sys := { s2.sys with stage := 4 } })

/-- THERMAL_GATE_TIMEOUT (R360): the 10 s wait ends; cause THERMAL. -/
def execThermalGateTimeout (time : Nat) (s : State) : Res :=
  let s := atTime time s
  .next (if s.sys.stage = 2 then bootFails 2 s else s)

/-- The image version in use of a kind (2 command processor, 3 token selector, 4 collective engine, 5 stack controller) and unit. -/
def loadImage (kind unit : Nat) (s : State) : State :=
  { s with sys := { s.sys with inUse := tset 0 s.sys.inUse (kind * 512 + unit) (tget ⟨false, 0⟩ s.sys.flash kind).version } }

/-- A shop fails its test: the lowest free spare position takes its number, empty, or it is absent (R480, R501, R512). -/
def spareEmpty (n : Nat) (s : State) : State :=
  match freeSpare s (shopQuarter n) with
  | none => shopAbsent n 1 s
  | some p =>
    let s1 := shopCleared n (loseShop n s)
    let s2 := modShop n (fun sh => { sh with spare := some p, array := ArraySt.reset }) s1
    leaveShadow n (bump 0x1400140 1 (rasLog 0x0C 3 (unitWord 2 n 0) 0 0 ownerDev p s2))

/-- A physical row or column of a shop's array fails its test: retired, or the shop is spared (R78). -/
def retireLine (n : Nat) (row : Bool) (p : Nat) (s : State) : State :=
  let a := (shopOf s n).array
  match retireIdx (if row then a.rowsOff else a.colsOff) p with
  | some o => rasLog 0x0B 1 (unitWord 2 n 0) 0 0 ownerDev (if row then p % 256 + 0xFF00 else 0xFF + p % 256 * 256)
      (modArray n (fun a => if row then { a with rowsOff := o, softRows := a.softRows ++ [p], softPending := true, lastRow := p }
        else { a with colsOff := o, softCols := a.softCols ++ [p], softPending := true, lastCol := p }) s)
  | none => spareEmpty n s

/-- A stack's metadata is lost (R181): the stack is as at bring-up, and orders and nodes with frames there fault or are released. -/
def metaLost (n : Nat) (s : State) : State :=
  let s1 := rasLog 0x0F 4 (unitWord 4 n 0) 0 0 ownerDev 2 (framesLost n (fun _ => true) s)
  let mine := fun (k : Nat) => decide (k / 2 ^ 20 = n)
  modStack n (fun st => { st with metaLost := true, mixed := [] }) { s1 with mem := { s1.mem with
    frames := tmap Frame.reset s1.mem.frames (fun k f => if mine k then { Frame.reset with retired := f.retired } else f)
    sector := s1.mem.sector.filter (fun p => !mine (p.1 / 1024))
    bytes := s1.mem.bytes.filter (fun p => !(decide (p.1 < 0xC000000000) && mine (p.1 / 65536)))
    map := s1.mem.map.filter (fun p => !(p.2.map (fun e => decide (e.stack = n))).getD false) } }

/-- A quarter whose network or bridge ends fail (R512): its shops, selector, far port and stacks are absent. -/
def quarterLost (q : Nat) (s : State) : State :=
  let s1 := ((List.range 80).map (· + 80 * q)).foldl (fun s n => if (shopOf s n).state = 1 then s else shopAbsent n 2 s) s
  let s2 := if (selOf s1 q).absent then s1 else unitAbsent (unitWord 9 q 0) 2 (modSel q (fun x => { x with absent := true }) s1)
  let s3 := unitAbsent (unitWord 7 q 0) 2 (modFar q (fun f => { f with state := 6 }) s2)
  (List.range 3).foldl (fun s i => stackAbsent (3 * q + i) 3 s) s3

/-- The outcome of a failed self-test (Table 19.2); host and management storage fails bring-up elsewhere. -/
def testOutcome (f : TestFail) (s : State) : State :=
  match f.kind with
  | 2 => if f.unit < 8 ∧ (stewardOf s f.unit).present = true then
      unitAbsent (unitWord 11 f.unit 0) 2 (modSteward f.unit (fun x => { x with present := false, halted := none, restarting := false }) s) else s
  | 3 => if f.unit < 320 then retireLine f.unit true f.sub s else s
  | 4 => if f.unit < 320 then retireLine f.unit false f.sub s else s
  | 5 => if f.unit < 320 ∧ f.sub < 256 then retireBench (f.unit * 256 + f.sub) s else s
  | 6 =>
    let n := (f.unit * 64 - 0x020000000000) / 0x200000
    let full := decide (tget 0 s.ras.rowsUsed (n * 64 + f.sub) ≥ 4)
    if f.unit * 64 < 0x020000000000 ∨ n ≥ 320 then s else if full then spareEmpty n s else sramRow false f.sub (f.unit * 64) false s
  | 7 => sramRow true f.sub (f.unit * 64) false s
  | 8 => if f.unit < 12 ∧ f.sub < 512 then retireFuller f.unit f.sub s else s
  | 9 => if f.unit < 12 ∧ f.sub < 32 then laneLost f.unit f.sub 0 s else s
  | 10 => if f.sub < 16 then dieLost f.unit f.sub s else s
  | 11 => if f.unit < 12 then stackAbsent f.unit 2 s else s
  | 12 => if f.unit < 4 ∧ (selOf s f.unit).absent = false then
      unitAbsent (unitWord 9 f.unit 0) 2 (modSel f.unit (fun x => { x with absent := true }) s) else s
  | 14 => if f.unit < 4 then quarterLost f.unit s else s
  | 15 => { s with ras := { s.ras with badSpares := if s.ras.badSpares.contains f.unit then s.ras.badSpares else s.ras.badSpares ++ [f.unit] } }
  | 17 => if f.unit < 12 then metaLost f.unit s else s
  | 18 => if f.unit < 12 then rasLog 0x0F 2 (unitWord 4 f.unit 0) 0 0 ownerDev 1 s else s
  | 0 => s
  | _ => if f.unit < 320 then spareEmpty f.unit s else s

/-- FIRMWARE_BROADCAST (R500, R208): bench firmware to every group, the fuller library to every stack controller, and the other images; `fails` are
the units whose image failed three times. -/
def execFirmwareBroadcast (fw : Nat × Nat × List Nat) (lib : Nat × Nat × List RoutineImg) (fails : List TestFail) (time : Nat) (s : State) : Res :=
  let s := atTime time s
  .next (if s.sys.stage ≠ 4 then s
    else
      let s1 := ((List.range 320).filter (shopPresent s)).foldl (fun s n => loadImage 2 n (modShop n (fun sh =>
        { (List.range 16).foldl (fun sh g => putImem g 0 fw.2.2 sh) sh with fwVersion := fw.1, fwCrc := fw.2.1, fwPending := none }) s)) s
      let bad := fun (n : Nat) => fails.any (fun f => decide (f.kind = 8 ∧ f.unit = n ∧ f.sub ≥ 512))
      let s2 := ((List.range 12).filter (stackPresent s)).foldl (fun s n =>
        loadImage 5 n (if bad n then s else takeLibrary n lib.1 lib.2.1 lib.2.2 s)) s1
      let s3 := (List.range 4).foldl (fun s q => loadImage 4 q (loadImage 3 q s)) s2
      let s4 := fails.foldl (fun s f => testOutcome f s) s3
      { s4 with sys := { s4.sys with stage := 5 } })

/-- SELF_TEST (R501): every test has ended, with its failures; a failing word of host and management storage fails bring-up. -/
def execSelfTest (fails : List TestFail) (time : Nat) (s : State) : Res :=
  let s := atTime time s
  .next (if s.sys.stage ≠ 5 then s
    else if fails.any (fun f => decide (f.kind = 0)) then bootFails 3 s
    else
      let s1 := fails.foldl (fun s f => testOutcome f s) s
      { s1 with sys := { s1.sys with stage := 6 } })

/-- Has step 3 settled every enabled port (R499): ready, down after its first training, or without signal for 12 s? -/
def portsSettled (s : State) : Bool :=
  decide (s.sys.origin = 2) || (List.range 16).all (fun n => !portEn s n ||
    (match (portOf s n).state with
     | 3 | 4 | 5 => true
     | 2 => false
     | _ => decide (s.sys.released + 12000000000 ≤ s.now)))

/-- The conditions of READY that units set (R502). -/
def unitsReady (s : State) : Bool :=
  decide (2 ≤ ((List.range 8).filter (fun h => (stewardOf s h).present)).length)
  && (List.range 320).any (shopPresent s) && (List.range 12).any (stackPresent s) && (List.range 4).any (fun q => !(selOf s q).absent)

/-- READY (R502, R444, R319, R418): numbering is fixed, the stored lock policy set, BELL_COUNT and device time start from zero, and the operator
hears of it, and of a trip (R356). -/
def becomeReady (s : State) : State :=
  let ms := nowMs s
  let noLib := (List.range 12).filter (fun n => stackPresent s n && ((fulOf s n).slots.filter (fun p => decide (p.1 < 0x40))).isEmpty)
  let s1 := noLib.foldl (fun s n => rasLog 0x0D 4 (unitWord 4 n 0) 0 0 ownerDev 1 (modFul n (fun x => { x with absent := List.range 512 }) s)) s
  let s2 := (List.range 320).foldl (fun s n => modShop n (fun sh => { sh with shadow := shadowOf n sh.spare }) s) s1
  let s2 := applyPeriods s2
  let locks := maskOf ((List.range 16).filter (fun b => bitOf s2.sys.lockBits b || bitOf s2.sys.lockPolicy b))
  let s3 := { s2 with
    ready := true, bell := 0
    sched := { s2.sched with opened := s2.now, plc := { s2.sched.plc with absent := [], moved := [] } }
    therm := { s2.therm with units := tmap TUnit.reset s2.therm.units (fun _ u => { u with deadline := u.deadline.map (fun d => d - ms) }) }
    sys := { s2.sys with
      stage := 7, cause := 0, readyAt := s2.now, readyMs := (s2.now - s2.sys.released) / 1000000, lockBits := locks } }
  let s3 := if locks = s2.sys.lockBits then s3 else audit 0x06 3 0x300 s2.sys.lockBits locks 0 s3
  let s4 := emitOp 0x0B 0x02 0 [(s3.now - s3.host.perstRelease) / 1000000] s3
  match s4.therm.trip with
  | some [cause, c, r, _] =>
    if s4.therm.tripSaid then s4
    else emitOp 0x06 0x09 0 [unitWord 10 c 0, r, 4, cause] { s4 with therm := { s4.therm with tripSaid := true } }
  | _ => s4

/-- READY (R502): step 6 ends once the ports have settled. -/
def execReady (time : Nat) (s : State) : Res :=
  let s := atTime time s
  .next (if s.sys.stage ≠ 6 ∨ portsSettled s = false then s else if unitsReady s then becomeReady s else bootFails 4 s)

/-! ### Power and the trip (R356, R360, R515, R571, R573) -/

/-- AUX_POWER_ON (R360, R579): the always-on domain starts. -/
def execAuxPowerOn (time : Nat) (s : State) : Res :=
  let s := atTime time s
  .next (if s.sys.aux then s else { s with sys := { s.sys with aux := true, smbAddr := 0 } })

/-- SYS_RST_N_ASSERT (R515). -/
def execSysRstNAssert (time : Nat) (s : State) : Res :=
  let s1 := deviceReset 1 (atTime time s)
  .next { s1 with sys := { s1.sys with sysRstN := false } }

/-- PWR_OK_FALL (R573): a change of PWR_OK; low has the effects of SYS_RST_N, and bring-up waits for the next release of SYS_RST_N. -/
def execPwrOkFall (high : Bool) (time : Nat) (s : State) : Res :=
  let s := atTime time s
  .next (if high then { s with sys := { s.sys with pwrOk := true } }
    else
      let s1 := deviceReset 1 s
      { s1 with sys := { s1.sys with pwrOk := false } })

/-- SUPPLY_OUT_OF_RANGE (R571): 12 V at a level, in mV, for 5 µs; below 11.2 V or above 13.2 V the 12 V domains are disabled. -/
def execSupplyOutOfRange (mv time : Nat) (s : State) : Res :=
  let s := atTime time s
  .next (if 11200 ≤ mv ∧ mv ≤ 13200 then { s with sys := { s.sys with v12 := true } }
    else
      let s1 := deviceReset 0 s
      { s1 with sys := { s1.sys with v12 := false, supplyBad := true } })

/-- AUX_POWER_LOSS (R573, R515, R356): the 12 V domains are disabled, the always-on domain and its retained SRAM are cleared, and a trip's latch with
them. -/
def execAuxPowerLoss (time : Nat) (s : State) : Res :=
  let s1 := deviceReset 0 (atTime time s)
  .next { s1 with
    therm := { ThermSt.reset with
      audit := s1.therm.audit
      trip := if s1.therm.held.any (fun h => decide (h.kind = 2)) then none else s1.therm.trip
      tripFlashed := s1.therm.tripFlashed, tripSaid := s1.therm.tripSaid || s1.therm.held.any (fun h => decide (h.kind = 2)) }
    sys := { s1.sys with aux := false, smbAddr := 0, origin := 0, role := RoleSt.reset } }

/-- The shutdown threshold of a channel, in eighths of a degree; an external channel has one only with EXT_EN and EXT_SHUT set (Table 14.2, R347). -/
def shutdownAt (s : State) (c : Nat) : Option Int :=
  if c < 40 then some (unitLimit s (chanUnit c) + 40)
  else if c < 56 ∧ bitOf (inForce s 0x400000) (16 + (c - 40)) = true ∧ bitOf (inForce s 0x400000) (32 + (c - 40)) = true then
    some (unitLimit s (chanUnit c) + 40)
  else none

/-- SHUTDOWN_TRIP (R347, R356): a comparator has seen its channel at a reading at or above shutdown for 20 µs, or a wire fault; THERM_TRIP_N is
latched, the 12 V domains go down, and the record is kept. -/
def execShutdownTrip (channel reading : Nat) (wire : Bool) (time : Nat) (s : State) : Res :=
  let s := atTime time s
  let r := if wire then 0x7FFF else reading % 65536
  .next (match shutdownAt s channel with
    | none => s
    | some t =>
      if s.sys.aux = false ∨ s.therm.tripLatch = true ∨ signedOf 16 r < t then s
      else
        let rec_ : List Nat := [if wire then 2 else 1, channel, r, nowMs s]
        let was := s.therm.flashOpen
        let s1 := deviceReset 0 s
        let s2 := { s1 with therm := { s1.therm with trip := some rec_, tripFlashed := was, tripLatch := true, tripSaid := false } }
        if was then s2 else flashWrite ⟨2, none, rec_⟩ s2)

/-- TRIP_LATCH_CLEAR (R356): 12 V has stayed below 2 V for 100 ms. -/
def execTripLatchClear (time : Nat) (s : State) : Res :=
  let s := atTime time s
  .next (if s.therm.tripLatch then { s with therm := { s.therm with tripLatch := false }, sys := { s.sys with v12 := false } } else s)

/-! ### Resets of units (R505 to R514) -/

/-- Is a unit requested, or in reset? -/
def resetListed (s : State) (scope unit : Nat) : Bool := s.sys.resets.any (fun r => decide (r.scope = scope ∧ r.unit = unit))

/-- Units of a scope. -/
def scopeUnits (scope : Nat) : Nat := match scope with | 0 => 320 | 1 => 4 | 2 => 12 | _ => 1

/-- Is a unit absent? A quarter is while every shop of it is. -/
def scopeAbsent (s : State) (scope unit : Nat) : Bool :=
  match scope with
  | 0 => (shopOf s unit).state == 1
  | 1 => ((List.range 80).map (· + 80 * unit)).all (fun n => (shopOf s n).state == 1)
  | 2 => (stackOf s unit).state == 1
  | _ => false

/-- Has the installer staged an image for a unit of the scope (R516)? -/
def staged (s : State) (scope : Nat) : Bool :=
  let ok := fun (k : Nat) => (tget ⟨false, 0⟩ s.sys.flash k).valid
  match scope with | 0 => ok 2 | 1 => ok 3 || ok 4 | 2 => ok 5 | _ => true

/-- A write of GLB_RESET by a channel (R506): the first outcome that applies. -/
def requestReset (chan scope unit : Nat) (update : Bool) (s : State) : State :=
  if scope = 3 ∧ hasRight s chan 0 = false then refusedWrite 0 0x200 chan 0 (scope + unit * 4 + b2n update * 2 ^ 11) s
  else if !s.ready then accessFault 0 s
  else if unit ≥ scopeUnits scope then accessFault 0 s
  else if scopeAbsent s scope unit ∨ resetListed s scope unit ∨ (scope = 0 ∧ resetListed s 1 (unit / 80) = true)
    ∨ (scope = 2 ∧ resetListed s 1 (unit / 3) = true) then accessFault 0 s
  else
    let s1 := if update && !staged s scope then accessFault 0 s else s
    { s1 with sys := { s1.sys with resets := s1.sys.resets ++ [⟨scope, unit, update && staged s scope, 0, false, 0⟩] } }

/-- SHOP_RESET (R506). -/
def execShopReset (unit : Nat) (update : Bool) (s : State) : Res := .next (requestReset 0 0 unit update s)

/-- QUARTER_RESET (R506). -/
def execQuarterReset (unit : Nat) (update : Bool) (s : State) : Res := .next (requestReset 0 1 unit update s)

/-- STACK_RESET (R506). -/
def execStackReset (unit : Nat) (update : Bool) (s : State) : Res := .next (requestReset 0 2 unit update s)

/-- COMPUTE_PART_RESET (R506): by a channel; only the installer's path is taken. -/
def execComputePartReset (chan : Nat) (s : State) : Res := .next (requestReset chan 3 0 false s)

/-- Complete every admitted request of a stack (R162, R181). -/
def completeQueues (n : Nat) (s : State) : State :=
  let s1 := (List.range 32).foldl (fun s ch => (queueOf s n ch).foldl (fun s r => if r.write then issueWrite n [r] r s else issueRead n r s) s) s
  modStack n (fun st => { st with queues := [], openRows := [], mixed := [], draining := [], vmapMiss := [] }) s1

/-- A stack's reset is applied: invocations end, admitted requests complete, migrations and cellarings that touch it abort, its part of a scrub ends
(R181, R208, R518, Table 18.3). -/
def stopStack (n : Nat) (s : State) : State :=
  let s1 := if (runOf s n).isSome then invFault n 0 0xA 0 s else s
  let s2 := abortWhere 4 (fun _ e => decide (e.stack = n ∨ e.dest = n)) (completeQueues n s1)
  let s3 := { s2 with book := { s2.book with orders := s2.book.orders.map (fun p =>
    if p.2.state = 5 ∧ (orderStacks s2 p.1).contains n = true then
      (p.1, { p.2 with copy := p.2.copy.map (fun c => { c with failed := if c.failed = 0 then 1 else c.failed }) }) else p) } }
  let left := match scrubNext s3 n with
    | some (g, _, _) => (s3.mem.map.filter (fun p => decide (g ≤ p.1 ∧ p.1 < s3.ras.scrub.start + s3.ras.scrub.count)
        && (p.2.map (fun e => decide (e.stack = n))).getD false)).length
    | none => 0
  let s4 := if s3.ras.scrub.busy then modScrub (fun x => { x with cursor := tset 0 x.cursor n 0, skipped := x.skipped + left }) s3 else s3
  modStack n (fun st => { st with state := 2 }) s4

/-- A shop's reset is applied: contexts with state on it end. -/
def stopShop (n : Nat) (s : State) : State :=
  if (shopOf s n).state = 1 then s
  else
    let s1 := loseShop n { s with ras := { s.ras with moves := s.ras.moves.filter (fun m => decide (m.1 ≠ n)) } }
    modShop n (fun sh => { sh with state := 2 }) s1

/-- A quarter's reset is applied (R507, R290, R417, R455, R204). -/
def stopQuarter (q : Nat) (s : State) : State :=
  let s1 := ((List.range 80).map (· + 80 * q)).foldl (fun s n => stopShop n s) s
  let s2 := (s1.bal.colls.filter (fun c => decide (collQuarter c = q))).foldl (fun s c => collFault c 0xA true s) (endSelections q s1)
  let s3 := (List.range 3).foldl (fun s i => if (runOf s (3 * q + i)).isSome then invFault (3 * q + i) 0 0xA 0 s else s) s2
  let s4 := abortWhere 4 (fun _ e => decide (stackQuarter e.stack = q ∨ stackQuarter e.dest = q)) s3
  if (farPort s4 q).state = 3 then farDown q 4 4 s4 else modFar q (fun f => { f with state := if f.state = 2 then 4 else f.state }) s4

/-- Every warehouse line of a quarter becomes poisoned "corrupt" (R507). -/
def poisonWarehouse (q : Nat) (s : State) : State :=
  let inQ := fun (a : Nat) => decide (0x010000000000 + q * 0x4000000 ≤ a ∧ a < 0x010000000000 + (q + 1) * 0x4000000)
  { s with mem := { s.mem with
      line := s.mem.line.filter (fun p => !inQ (p.1 * 64)), bytes := s.mem.bytes.filter (fun p => !inQ p.1)
      whBad := if s.mem.whBad.contains q then s.mem.whBad else s.mem.whBad ++ [q] } }

/-- A shop's reset proper (R81, R135, R518): cleared, its counters at zero, the newest firmware loaded. -/
def resetShop (n : Nat) (update : Bool) (s : State) : State :=
  if (shopOf s n).state = 1 then s
  else
    let s1 := clearShopCounters n (shopCleared n s)
    let s2 := match (shopOf s1 n).fwPending with
      | none => s1
      | some (v, c, words) => fwTaken false n 0 (modShop n (fun sh =>
          { (List.range 16).foldl (fun sh g => putImem g 0 words sh) sh with fwVersion := v, fwCrc := c, fwPending := none }) s1)
    if update then loadImage 2 n s2 else s2

/-- The drain has ended: the unit is reset (R507 phase 3), and its test begins. -/
def endDrain (r : UnitReset) (s : State) : State :=
  let s1 := { s with sys := { s.sys with
    resets := s.sys.resets.map (fun x => if x.scope = r.scope ∧ x.unit = r.unit then { x with phase := 4 } else x) } }
  let s2 := if s1.sys.lastScope = r.scope ∧ s1.sys.lastUnit = r.unit then { s1 with sys := { s1.sys with lastPhase := 4 } } else s1
  match r.scope with
  | 0 => resetShop r.unit r.update s2
  | 1 =>
    let s3 := ((List.range 80).map (· + 80 * r.unit)).foldl (fun s n => resetShop n false s) (poisonWarehouse r.unit s2)
    let s4 := modSel r.unit (fun x => { SelSt.reset with absent := x.absent }) (markPartial (unitWord 9 r.unit 0) (markPartial (unitWord 1 r.unit 0) s3))
    if r.update then loadImage 4 r.unit (loadImage 3 r.unit s4) else s4
  | _ =>
    let s3 := clearStackCounters r.unit s2
    if r.update then loadImage 5 r.unit s3 else s3

/-- The reset of a unit in a phase. -/
def resetIn (s : State) (scope unit phase : Nat) : Option UnitReset :=
  s.sys.resets.find? (fun r => decide (r.scope = scope ∧ r.unit = unit ∧ r.phase = phase))

/-- DRAIN_END (R508): every answer has arrived; a stack's drain also waits for its invocation to stop. -/
def execDrainEnd (scope unit time : Nat) (s : State) : Res :=
  let s := atTime time s
  .next (match resetIn s scope unit 2 with
    | some r => if scope = 2 ∧ (runOf s unit).isSome = true then s else endDrain r s
    | none => s)

/-- DRAIN_TIMEOUT (R508): 50 µs have passed since the application. -/
def execDrainTimeout (scope unit time : Nat) (s : State) : Res :=
  let s := atTime time s
  .next (match resetIn s scope unit 2 with
    | some r =>
      if s.now < r.applied + 50000 then s
      else
        let s1 := bump 0x4B8 1 { s with sys := { s.sys with drainOut := true } }
        endDrain r s1
    | none => s)

/-- RESET_TEST_DONE (R507, R512): the tests of the units inside the boundary have ended, with their failures. -/
def execResetTestDone (scope unit : Nat) (fails : List TestFail) (time : Nat) (s : State) : Res :=
  let s := atTime time s
  .next (match resetIn s scope unit 4 with
    | some _ =>
      let s1 := fails.foldl (fun s f => testOutcome f s) s
      { s1 with sys := { s1.sys with
        failed := s1.sys.failed || !fails.isEmpty
        lastPhase := if s1.sys.lastScope = scope ∧ s1.sys.lastUnit = unit ∧ !fails.isEmpty then 6 else s1.sys.lastPhase
        resets := s1.sys.resets.map (fun x => if x.scope = scope ∧ x.unit = unit then { x with phase := 5, failed := !fails.isEmpty } else x) } }
    | none => s)

/-- RETRY (R509): a request of this device, of a tenant or the operator, finds its home in reset; it is sent again every 5 µs. -/
def execRetry (tenant : Option Nat) (addr : Nat) (s : State) : Res :=
  .next (if homeInReset s (resolve s tenant addr) then retried s else s)

/-! ### The boundary's work -/

/-- A compute-part reset (R513, R514): CTRL abort to every device that shares a valid group, then every 12 V domain but the link domain; bring-up
runs from step 1, whose checks of slots A and B the operands give, without step 3. -/
def computePartReset (okA okB : Bool) (s : State) : State :=
  let groups := (s.regs.vals.filter (fun p => decide (p.1 % 2 ^ 32 = 0x1008028))).map (fun p => p.1 / 2 ^ 32)
  let s1 := (groups.filter (fun g => (groupMembers s g).contains (ownDevice s))).foldl (fun s g => sendCtrl g 6 [g] s) s
  let s2 := domainsReset true s1
  bootStep1 okA okB { s2 with
    bal := { s2.bal with out := s1.bal.out }
    host := { s2.host with linkUp := false, width := 0, speed := 0 }
    sys := { s2.sys with origin := 2, powered := true, stage := 1, released := s.now } }

/-- The time from application before which a unit does not return (Table 19.3), ns. -/
def returnTime (scope : Nat) : Nat := match scope with | 0 => 92000 | 1 => 660000 | _ => 8000000

/-- Units whose tests have ended return at the boundary (R507 phase 5). -/
def returnUnits (s : State) : State :=
  let back := s.sys.resets.filter (fun r => decide (r.phase = 5 ∧ r.applied + returnTime r.scope ≤ s.now))
  let s1 := { s with sys := { s.sys with resets := s.sys.resets.filter (fun r => !back.contains r), done := s.sys.done || !back.isEmpty } }
  let up := fun (n : Nat) (s : State) => if (shopOf s n).state = 2 ∧ resetListed s 0 n = false ∧ resetListed s 1 (n / 80) = false then
    modShop n (fun sh => { sh with state := 0 }) s else s
  back.foldl (fun s r =>
    let s2 := match r.scope with
      | 0 => up r.unit s
      | 1 => ((List.range 80).map (· + 80 * r.unit)).foldl (fun s n => up n s) s
      | _ => if (stackOf s r.unit).state = 2 then modStack r.unit (fun st => { st with state := 0 }) s else s
    if s2.sys.lastScope = r.scope ∧ s2.sys.lastUnit = r.unit ∧ r.failed = false then { s2 with sys := { s2.sys with lastPhase := 5 } } else s2) s1

/-- Step 3: the resets requested before the boundary are applied (R506, R518). -/
def applyResets (okA okB : Bool) (s : State) : State :=
  let asked := s.sys.resets.filter (fun r => decide (r.phase = 0))
  if asked.any (fun r => decide (r.scope = 3)) then computePartReset okA okB s
  else
    let gone := fun (r : UnitReset) => decide (r.scope = 0) && asked.any (fun x => decide (x.scope = 1 ∧ x.unit = r.unit / 80))
    let now := asked.filter (fun r => !gone r)
    let s1 := { s with sys := { s.sys with
      resets := (s.sys.resets.filter (fun r => !(decide (r.phase = 0) && gone r))).map (fun r => if r.phase = 0 then { r with phase := 2, applied := s.now } else r) } }
    now.foldl (fun s r =>
      let s2 := bump 0x4A8 1 { s with sys := { s.sys with lastPhase := 2, lastScope := r.scope, lastUnit := r.unit } }
      match r.scope with
      | 0 => stopShop r.unit s2
      | 1 => stopQuarter r.unit s2
      | _ => stopStack r.unit s2) s1

end Sys2Proof.Machine
end

