-- ==== Sys2Proof/Machine/Ledger.lean ====
section
/-! DEFINITION. The figures of a closing bell, the per-bell copies, the ledger close and the statistics records (chapters 13 and 21). -/

namespace Sys2Proof.Machine

/-! ### The bell just closed (R337 to R339, R546, R554) -/

/-- Energy that a shop's, quarter's or shadow's activity has drawn in the bell, pJ; the figures are kept in units of 10 fJ. -/
def shopEnergy (s : State) (n : Nat) : Nat := tget 0 s.regs.bcount ((5 * 512 + n) * 4) / 100
def quarterEnergy (s : State) (q : Nat) : Nat := tget 0 s.regs.bcount ((1 * 512 + q) * 4) / 100

/-- The growth of a live counter since the bell opened. -/
def sinceOpen (s : State) (k : Nat) : Nat := tget 0 s.regs.live k - tget 0 s.regs.bbase k

/-- Fuller sectors, interface sectors and activations of a stack in the bell, and their energy by Table 7.8 in units of 0.1 pJ; fuller arithmetic is
22.4 pJ a sector. -/
def stackFigures (s : State) (n : Nat) : Nat × Nat × Nat × Nat :=
  let f := sinceOpen s (stkC n 0x110)
  let i := sinceOpen s (stkC n 0x100) + sinceOpen s (stkC n 0x108)
  let a := sinceOpen s (stkC n 0x118)
  (f, i, a, 1424 * f + 2000 * i + 6000 * a)

/-- Set the copies of one unit (Table 21.2). -/
def setCopies (kind n : Nat) (l : List Nat) (s : State) : State :=
  { s with regs := { s.regs with bcopy := l.zipIdx.foldl (fun t p => tset 0 t ((kind * 512 + n) * 4 + p.2) p.1) s.regs.bcopy } }

/-- Step 4 of every boundary: the per-bell copies take the figures of the bell just closed. -/
def rollCopies (s : State) : State :=
  let c := fun (kind n i : Nat) => tget 0 s.regs.bcount ((kind * 512 + n) * 4 + i)
  let s1 := (List.range 4).foldl (fun s' q => setCopies 1 q [quarterEnergy s q / 1000000, quarterClock s q, c 1 q 2, c 1 q 3 / 1000000] s') s
  let s2 := (List.range 320).foldl (fun s' n => setCopies 2 n [c 2 n 0, c 2 n 1, c 2 n 2, c 2 n 3 / 1000000] s') s1
  let s3 := (List.range 12).foldl (fun s' n => let x := stackFigures s n; setCopies 4 n [x.1, x.2.1, x.2.2.1, x.2.2.2 / 10000000] s') s2
  { s3 with stat := { s3.stat with copyBell := s.bell } }

/-- Sheet banks that hold at a pre-emption point: running, with tiles left and none admitted (R332). -/
def sheetsHeld (s : State) : Nat :=
  (s.shops.map (fun p => (p.2.banks.filter (fun b => decide (b.st = 3) && ((sheetCand s b.ctx b.addr).map
    (fun c => decide (waitingTiles c > 0 ∧ c.admitted = 0))).getD false)).length)).sum

/-- The whole-bell figures of the closing bell belong to the period that it lies in (R546). -/
def closeBell (standing : Nat) (s : State) : State :=
  let y := s.sched
  let m := y.energy / 100000
  let stand := standing * bellNs s
  let s1 := bump 0x100148 (sheetsHeld s) (bump 0x300108 (y.charged / 1000000) (bump 0x300100 m s))
  let s2 := if y.energy * 10 > y.budget * 100000000 then bump 0x300118 1 s1 else s1
  let s3 := if y.clamped then bump 0x300110 1 s2 else s2
  let s4 := (List.range 12).foldl (fun s n => if (stackOf s n).step > 0 then bump (stkC n 0x160) 1 s else s) s3
  { s4 with sched := { s4.sched with
    lastMeasured := m, lastCharged := (y.charged + stand + y.carry) / 1000000, standing := standing
    sumMeasured := y.sumMeasured + m, sumCharged := y.sumCharged + y.charged, sumStanding := y.sumStanding + stand
    clampBells := y.clampBells + b2n y.clamped, clampEnergy := if y.clamped then m else y.clampEnergy } }

/-- A quotient to the nearest whole number, ties to even. -/
def nearestEven (a b : Nat) : Nat :=
  let q := a / b
  let r := a % b
  if 2 * r < b then q else if 2 * r > b then q + 1 else q + q % 2

/-- The correction factor of the next period (R339). -/
def nextCorr (s : State) : Nat :=
  let y := s.sched
  let num := y.sumMeasured * 1000000 - y.sumStanding
  if y.sumCharged = 0 then y.corr
  else if 10 * num ≤ 8 * y.sumCharged then 102
  else if 10 * num ≥ 15 * y.sumCharged then 192
  else max 102 (min 192 (nearestEven (128 * num) y.sumCharged))

/-! ### The ledger close (R547) -/

/-- Corrected sectors of each stack in the period (R489), when RAS_CONFIG.CE_SUMMARY is set. -/
def summarise12 (s : State) : State :=
  let s1 := if bitOf (rget s 0x1400000) 17 then
      s.ras.ceStack.foldl (fun s p => if p.2 > 0 then rasLog 0x12 0 (unitWord 4 p.1 0) 0 0 ownerDev p.2 s else s) s
    else s
  { s1 with ras := { s1.ras with ceStack := [], tracker := [], poisonLogged := [] } }

/-- Soft repairs of the period go to flash (R80). -/
def softRepairs (s : State) : State :=
  s.shops.foldl (fun s p =>
    if p.2.array.softPending && !s.therm.held.any (fun h => decide (h.kind = 3 ∧ h.words.headD 0 = p.1)) then flashWrite ⟨3, none, [p.1]⟩ s else s) s

/-- The instant at which a ledger period ends: every live counter is taken and restarts from zero; the once-per-period work that rules fix follows
(R295, R318, R339, R489, R80). BUSY is set until LEDGER_CLOSE. -/
def openLedger (s : State) : State :=
  let tenants := s.regs.tlive.map (fun p => (p.1, if p.1 % 16 = 5 then p.2 / 1000000 else p.2))
  let s1 := { s with
    stat := { s.stat with
      busy := true, snap := s.regs.live, tsnap := tenants, snapSat := s.regs.sat, snapBells := s.bell - s.sched.ledgerAt
      snapPeriod := s.sched.period, snapBell := s.bell, snapMs := nowMs s, snapPartial := s.stat.partialNow, partialNow := [] }
    regs := { s.regs with live := [], tlive := [], sat := false }
    sched := { s.sched with
      ledgerAt := s.bell, corr := nextCorr s, sumMeasured := 0, sumCharged := 0, sumStanding := 0, shortSaid := false
      plc := { s.sched.plc with lowSaid := [], hotSaid := [] } }
    bal := { s.bal with loopSaid := false }
    shops := s.shops.map (fun p => (p.1, { p.2 with array := { p.2.array with transients := [] } })) }
  softRepairs (summarise12 (closeHeat (applyPeriods s1)))

/-- The sums of a STAT record with one more period. -/
def addSums (a b : List Nat) : List Nat := if a.isEmpty then b else (a.zip b).map (fun p => p.1 + p.2)

/-- The figures of the period just latched that a DEVICE record carries (Table 21.3). -/
def deviceFigures (s : State) : List Nat :=
  ([0x300100, 0x700100, 0x100100, 0x100108, 0x100118, 0x300110, 0x1400108, 0x1400118, 0x200130] : List Nat).map (fun k => tget 0 s.regs.latched k)

def tenantFigures (s : State) (t : Nat) : List Nat := (List.range 10).map (fun i => tget 0 s.regs.tlatched (t * 16 + i))

/-- Two figures in the halves of a word, each saturating. -/
def halves (a b : Nat) : Nat := min a 0xFFFFFFFF + min b 0xFFFFFFFF * 2 ^ 32

/-- A STAT record (R555): CODE the periods covered, AUX the sequence number, BELL the closing boundary. -/
def statRecord (s : State) (kind periods : Nat) (words : List Nat) : EvRec :=
  ⟨0x0A, kind, min periods 255, s.stat.snapBell % 2 ^ 32, s.stat.seq % 2 ^ 32, none, false, words⟩

/-- The records that a close writes, after BUSY has cleared (R555). -/
def statRecords (s : State) : State :=
  let ctl := inForce s 0x1A00000
  let due := decide (s.stat.seq % max 1 (bitsOf ctl 15 8) = 0)
  let sum := addSums s.stat.devSum (deviceFigures s)
  let g := fun (i : Nat) => (sum[i]?).getD 0
  let n := s.stat.devPeriods + 1
  let s1 := if due && bitOf ctl 0 then
      let s2 := { s with stat := { s.stat with devSum := [], devPeriods := 0 } }
      bump 0x1A00100 1 (emit opRing (statRecord s 1 n [g 0, g 1, g 2, g 3, halves (g 4) (g 5), halves (g 6 + g 7) (g 8)]) s2)
    else { s with stat := { s.stat with devSum := sum, devPeriods := n } }
  s1.book.enabled.foldl (fun s t =>
    let sum := addSums (tget [] s.stat.tenSum t) (tenantFigures s t)
    let g := fun (i : Nat) => (sum[i]?).getD 0
    let n := tget 0 s.stat.tenPeriods t + 1
    let keep := fun (l : List Nat) (k : Nat) => { s with stat := { s.stat with tenSum := tset [] s.stat.tenSum t l, tenPeriods := tset 0 s.stat.tenPeriods t k } }
    if due && bitOf ctl 1 then
      bump 0x1A00108 1 (emit t (statRecord s 2 n [g 0, g 1, g 5, g 6, g 7,
        min (g 8) 0xFFFF + min (g 9) 0xFFFF * 2 ^ 16 + min (g 2) 0xFFFFFFFF * 2 ^ 32]) (keep [] 0))
    else keep sum n) s1

/-! ### Selector views (R549, R554) -/

/-- The snapshot of a tenant's latched counters. -/
def snapTenant (t : Nat) (s : State) : State :=
  bump 0x1A00110 1 { s with stat := { s.stat with tval := tenantFigures s t } }

/-- The snapshot of a unit's per-bell copies. -/
def snapUnit (kind n : Nat) (s : State) : State :=
  bump 0x1A00110 1 { s with stat := { s.stat with
    bval := (List.range 4).map (fun i => tget 0 s.regs.bcopy ((kind * 512 + n) * 4 + i)), bellSeq := s.stat.copyBell } }

/-- LEDGER_CLOSE's work: every latched copy holds its new value, SEQ increments as BUSY clears, and what waited for that follows. -/
def finishLedger (s : State) : State :=
  if !s.stat.busy then s
  else
    let x := s.stat
    let s1 := { s with
      regs := { s.regs with latched := x.snap, tlatched := x.tsnap }
      stat := { x with
        busy := false, snap := [], tsnap := [], seq := (x.seq + 1) % 2 ^ 32, bells := x.snapBells, period := x.snapPeriod, sat := x.snapSat
        ms := x.snapMs, partialUnits := x.snapPartial, snapPartial := [], waitTsel := none, waitBsel := none } }
    let s2 := match x.waitTsel with | some t => snapTenant t s1 | none => s1
    let s3 := match x.waitBsel with | some v => snapUnit (v % 16) (v / 16 % 512) s2 | none => s2
    let y := s3.sched
    let s4 := if y.clampBells > 0 then
        emitOp 0x08 0x02 0 [y.clampBells, y.clampEnergy] { s3 with sched := { y with clampBells := 0, clampEnergy := 0 } }
      else s3
    statRecords s4

/-- LEDGER_CLOSE (R547): the latching that a boundary has begun completes; without one there is nothing to latch. -/
def execLedgerClose (s : State) : Res := .next (finishLedger s)

end Sys2Proof.Machine
end

