-- ==== Sys2Proof/Machine/Bells.lean ====
section
/-! DEFINITION. The bell boundary (R322, Table 13.1), scans and admissions within the bell, the governor (chapters 10, 12 to 15, 18 to 21). -/

namespace Sys2Proof.Machine

/-- Every order in use. -/
def orderKeys (s : State) : List Nat := s.book.orders.map Prod.fst

/-- Do something for every order. -/
def eachOrder (f : Nat → State → State) (s : State) : State := (orderKeys s).foldl (fun s o => f o s) s

/-! ### Step 1: ends, returns, temperatures -/

/-- Tiles admitted and not started return to the candidates, and their charge lapses (R331, R338). -/
def returnTiles (s : State) : State :=
  { s with sched := { s.sched with cands := s.sched.cands.map (fun c => { c with admitted := 0 }) } }

/-- The opening bell's accounts: units are free after their running tiles, nothing is used, the clamp has ended. -/
def openAccounts (s : State) : State :=
  let free := s.sched.running.foldl (fun t r => let k := r.unitKind * 512 + r.unit; tset 0 t k (max (tget 0 t k) r.stop)) []
  { s with
    regs := { s.regs with bcount := [], bbase := s.regs.live }
    sched := { s.sched with freeAt := free, used := [], migUsed := 0, clamped := false, energy := 0, charged := 0 } }

/-- Tiles, invocations and collectives that the watchdog ends at the boundary that opens the running bell (R128). -/
def watchdogs (s : State) : State :=
  let s1 := (s.shops.map Prod.fst).foldl (fun s n => watchShop s.bell n s) s
  let s2 := (List.range 12).foldl (fun s n =>
    if ((runOf s n).map (fun r => !r.stopping && decide (r.bell + 3 ≤ s.bell))).getD false then invFault n 0 8 0 s else s) s1
  (s2.bal.colls.filter (fun c => c.started && decide (c.bell + 3 ≤ s2.bell))).foldl (fun s c => collFault c 8 true s) s2

/-- Contexts that a fault has ended end on every other unit (R134). -/
def endContexts (s : State) : State :=
  s.sched.ending.foldl (fun s e => endContext e.1 s) { s with sched := { s.sched with ending := [] } }

/-- Orders whose fault waits for the boundary go to FAULTED (R241, R243). -/
def faultOrders (s : State) : State :=
  eachOrder (fun o s => match (orderOf s o).faultPend with
    | some (cause, code, sub) => faultOrder o cause code sub s
    | none => s) s

/-- Steps that ended in the closing bell (R218, R290): the rest of their work is cancelled unless another order of the batch runs on. -/
def endSteps (s : State) : State :=
  let os := s.sched.stepEnds
  os.foldl (fun s p =>
    match (orderOf s p.1).step with
    | none => s
    | some x =>
      let shared := s.book.orders.any (fun q => decide (q.1 ≠ p.1) && (q.2.step.map (fun y => y.admitted && decide (y.ctx = x.ctx))).getD false)
      stepEnds p.1 (if x.admitted && !shared then endContext x.ctx s else s)) { s with sched := { s.sched with stepEnds := [] } }

/-- Has an order's step completed: its work is done everywhere, and it has selected if it selects (R218)? -/
def stepDone (s : State) (o : Nat) : Bool :=
  ((orderOf s o).step.map (fun x => x.admitted && !x.attach && (!x.selects || x.selected) && !ctxBusy s x.ctx
    && ((ctxOf s x.ctx).map (fun c => c.fault.isNone)).getD false)).getD false

/-- Steps that completed in the closing bell. -/
def completeSteps (s : State) : State := eachOrder (fun o s => if stepDone s o then stepCompletes o s else s) s

/-- Refresh interval by die temperature (Table 7.7). -/
def setRefresh (s : State) : State :=
  (List.range 12).foldl (fun s n =>
    let t := unitTemp s n
    let code := if (stackOf s n).sensorFail then 2 else if t ≤ 680 then 0 else if t ≤ 760 then 1 else 2
    modStack n (fun st => { st with refresh := code }) s) s

/-- A thermal allowance for the coming bell (R351), pJ: `p` is the activity of the closing bell of `was` ns, `g` the gain in 0.01 W per °C, `cap` in W. -/
def allowance (s : State) (p was u g cap : Nat) : Nat :=
  let t := bellNs s
  let x : Int := (p * t / max 1 was : Nat) + (targetAt s u - unitTemp s u) * (g * t * 5 : Nat) / 4
  min (x.toNat) (cap * t * 1000)

/-- The allowances of quarters (kind 1), shadows (2) and stacks (4), from the activity of the closing bell. -/
def setAllowances (was : Nat) (old s : State) : State :=
  let shadow := fun (n : Nat) => (List.range 320).filter (fun k => decide ((shopOf s k).shadow = n) && shopPresent s k)
  let t1 := (List.range 4).foldl (fun t q => tset 0 t (1 * 512 + q) (allowance s (quarterEnergy old q) was (12 + q) 3330 1200)) []
  let t2 := (List.range 12).foldl (fun t n =>
    tset 0 t (2 * 512 + n) (allowance s (((shadow n).map (shopEnergy old)).sum) was n 2000 (11 * (shadow n).length))) t1
  let t3 := (List.range 12).foldl (fun t n => tset 0 t (4 * 512 + n) (allowance s ((stackFigures old n).2.2.2 / 10) was n 167 54)) t2
  { s with therm := { s.therm with allow := t3 } }

/-! ### Step 1: disagreements (R483, R484) -/

/-- The correction of Table 18.5 that changes what the model holds: a context that no unit holds is lost, an ended one is cancelled again, an allocated
frame that the data path holds free is poisoned. -/
def correct (f : Finding) (s : State) : State :=
  match f.item with
  | 1 => ctxFaults f.arg 0xA 0 (workEvents f.arg 0xA 0 0 0 0 f.unit s)
  | 2 => endContext f.arg s
  | 8 => if (frameOf s f.arg).use = .free then s else
      summarise f.arg { s with mem := { s.mem with sector := (List.range 1024).foldl (fun t i => tset 0 t (f.arg * 1024 + i) 2) s.mem.sector } }
  | _ => s

/-- Every disagreement is corrected and counted; one record for each item kind, with the number found. -/
def applyFindings (fs : List Finding) (s : State) : State :=
  let s1 := fs.foldl (fun s f => correct f s) (bump 0x1400150 fs.length s)
  ((fs.map (fun f => f.item)).eraseDups).foldl (fun s i =>
    let l := fs.filter (fun f => decide (f.item = i))
    rasLogN l.length 0x13 5 ((l.map (fun f => f.unit)).headD 0) 0 0 ownerDev i s) s1

/-! ### Step 1: the plan (R326 to R334) -/

/-- The envelope and reserve written before the instant apply (R26). -/
def applyPower (s : State) : State :=
  { s with regs := { s.regs with old := s.regs.old.filter (fun p => decide (p.1 ≠ 0x300000 ∧ p.1 ≠ 0x300008)) } }

/-- A, from B, the reserve, the standing draw of the closing bell and the carry-in (R328). -/
def setAllowance (s : State) : State :=
  let b := bellBudget s
  let carry := (s.sched.running.map (carryOf s)).sum
  let taken := b * rfield s 0x300008 4 0 / 100 + s.sched.standing * bellNs s + carry
  { s with sched := { s.sched with allow := b - taken, carry := carry, budget := b / 100000000 } }

/-- The plan of the opening bell. Candidates that step 1 does not reach wait for the dispatcher, and the boundary is counted (R322). -/
def planBell (late : List Nat) (batches : List (List Nat)) (s : State) : State :=
  let s1 := batches.foldl (fun s os => formBatch os s) (enterSteps s)
  let s2 := setAllowance (setClocks s1)
  let s3 := if late.isEmpty then s2 else bump 0x100150 1 { s2 with sched := { s2.sched with late := late } }
  let s4 := fourPasses s3
  { s4 with sched := { s4.sched with late := [] } }

/-- Step 1 after the closing bell's figures: `old` is the state in which the bell closed. -/
def step1 (b : BellIn) (old s : State) : State :=
  let s1 := endContexts (watchdogs (openAccounts (returnTiles s)))
  let s2 := completeSteps (endSteps (faultOrders s1))
  let s3 := setRefresh (thermalBoundary (applyPower (applyFindings b.findings (returnUnits s2))))
  planBell b.late b.batches (setAllowances (bellNs old) old s3)

/-! ### Step 2: the scan -/

/-- Host memory as the device finds it. -/
def seeHost (cells : List (Nat × BitVec 8)) (fails : List (Nat × Nat)) (s : State) : State :=
  { s with host := { s.host with mem := cells.foldl (fun m p => tset (0 : Byte) m p.1 p.2) s.host.mem, fails := fails } }

/-- The boundary's scan; a held early scan whose time has not come is dropped (R324): its request was counted when it was held. Only early
scans are spaced. A boundary scan of more than 4 µs is counted (R432). -/
def step2 (b : BellIn) (s : State) : State :=
  let drop := s.host.scanHeld && decide (s.host.lastScan ≠ 0 ∧ s.now < s.host.lastScan + 10000)
  let s1 := if drop then { s with host := { s.host with scanHeld := false } } else s
  let last := s1.host.lastScan
  let late := decide (b.scanNs > 4000) && decide (rfield s1 0x200000 0 0 = 1)
  let s2 := scan b.cmds s1.now (seeHost b.hostCells b.hostFails (if late then bump 0x200108 1 s1 else s1))
  { s2 with host := { s2.host with lastScan := last } }

/-! ### Step 3 -/

/-- Migrations: those that a setting stops abort, those whose copies are complete commit (R300 to R302). -/
def commitMigrations (s : State) : State :=
  let s1 := abortStopped (freeDrained s)
  (migrating s1).foldl (fun s p => commitMigration p.1 s) s1

/-- Translations that an earlier boundary removed are free of requests: their memory is freed and the commands complete (R367). -/
def freeRemoved (s : State) : State :=
  let outs := s.mem.xlatOut
  let s1 := outs.foldl (fun s x => if x.2.model = none then freeXlate x.2 s else s) { s with mem := { s.mem with xlatOut := [] } }
  (s1.jobs.jobs.filter (fun (j : Job) => decide ((j.op = 0x19 ∨ j.op = 0x11) ∧ j.bell < s1.bell))).foldl (fun s j =>
    completion j.ring j.op 0 j.tag 0 0 0 (dropJob j.id (if j.op = 0x11 then freeModel j.a s else s))) s1

/-- Orders that wait for their owner count an idle bell (R250). -/
def countIdle (s : State) : State :=
  eachOrder (fun o s => if (orderOf s o).state = 1 ∨ (orderOf s o).state = 4 then modOrder o (fun r => { r with idle := r.idle + 1 }) s else s) s

/-- The order-book work of Table 10.6. An order that a boundary closed goes to FREE at the next one, once nothing of it remains (R263). -/
def bookWork (ins : List CmdIn) (s : State) : State :=
  let s1 := eachOrder (fun o s => commitCopy o (finishClose o s)) (countIdle s)
  let s2 := eachOrder expireOrder s1
  let s3 := eachOrder (fun o s => if (orderOf s o).cutPend then cutPages o s else s) s2
  let s4 := eachOrder applyHeld (applyWaiting ins s3.now s3)
  let s5 := eachOrder idleCandidate ((List.range 12).foldl (fun s n => earlyCandidates n s) s4)
  let s6 := eachOrder startCellar s5
  let s7 := eachOrder (fun o s => if (orderOf s o).recallAsked then refuseRecall o (tryRecall o s) else s) s6
  let s8 := eachOrder missDeadline (recallsAhead s7)
  if bitOf (inForce s 0x700000) 0 then eachOrder reportTokens s8 else s8

/-- Context tags that no work holds any more are free again (R588); a job's tag goes with its completion. -/
def sweepTags (s : State) : State :=
  let live := fun (t : Nat) => ctxBusy s t || s.sched.ending.any (fun e => decide (e.1 = t))
    || s.book.orders.any (fun p => (p.2.step.map (fun y => y.admitted && decide (y.ctx = t))).getD false)
    || s.jobs.jobs.any (fun j => decide (j.ctx = some t))
  { s with sched := { s.sched with ctxs := s.sched.ctxs.filter (fun p => live p.1) } }

/-- A wait on a tally that its owner has lost ends its context with TALLY (R381). -/
def waitLost (w : TallyWait) (s : State) : State :=
  let s1 := match w.who with
    | .bench k => workFault (k / 256) 9 0 1 w.ctx 0 0 s
    | .sheet k => workFault (k / 2) 9 0 0 w.ctx 0x1E 0 s
    | .ticket n t => workFault n 9 0 0 w.ctx 0x1F (t % 65536) s
    | .invocation n _ => ctxFaults w.ctx 9 0 (workEvents w.ctx 9 0 0 0 0 (unitWord 4 n 0) (stackFaultRec n 9 0 w.ctx 0 0 s))
    | .collective _ => ctxFaults w.ctx 9 0 (workEvents w.ctx 9 0 0 0 0 (unitWord 0 0 0) s)
  endContext w.ctx s1

/-- Tally ranges written before the boundary take effect (R381). -/
def applyRanges (s : State) : State :=
  s.tal.pend.foldl (fun s p =>
    let (t, base, count) := p
    let old := tget (0, 0) s.tal.range t
    let inOld := fun (k : Nat) => decide (old.1 ≤ k ∧ k < old.1 + old.2)
    let inNew := fun (k : Nat) => decide (base ≤ k ∧ k < base + count)
    let lost := s.tal.waits.filter (fun w => !w.satisfied
      && ((decide (w.tenant = some t) && inOld w.tally && !inNew w.tally) || (w.tenant.isNone && inNew w.tally && !inOld w.tally)))
    let s1 := { s with tal := { s.tal with
      range := tset (0, 0) s.tal.range t (base, count), vals := s.tal.vals.filter (fun x => !(inNew x.1 && !inOld x.1)) } }
    lost.foldl (fun s w => waitLost w s) s1) { s with tal := { s.tal with pend := [] } }

/-- Settings whose writes waited for the boundary are in force; the device ID waits for a reset (R405). -/
def applySettings (s : State) : State :=
  let routes := s.regs.old.any (fun p => decide (p.1 % 2 ^ 32 = 0x1008018))
  let s1 : State := { s with regs := { s.regs with old := s.regs.old.filter (fun p => decide (p.1 % 2 ^ 32 = 0x1008000)) } }
  if routes then routesChanged s1 else s1

/-- Tenants' frames and cellar units at this boundary (Table 21.1). -/
def countHoldings (s : State) : State :=
  s.book.enabled.foldl (fun s t => bumpTenant (some t) 7 (cellarUsed s t) (bumpTenant (some t) 6 (framesUsed s t) s)) s

/-- Is every shop that a layer's shop work could run on in a hot shadow or a hot quarter (R309)? -/
def shopsHot (s : State) (m l : Nat) : Bool :=
  let works : List WorkItem := match modelOf s m with
    | some r => (r.prefill ++ r.decode).filter (fun (w : WorkItem) => decide (w.layer = some (l, false)))
    | none => []
  let shops := (works.flatMap (fun w => shopSet s (itemCand 0 w none false none 0 0 m 0))).eraseDups
  !shops.isEmpty && shops.all (fun n => decide (shopStep s n ≥ max 1 (plcField s 42 40)) || decide (unitTemp s (12 + shopQuarter n) ≥ warnAt s (12 + shopQuarter n)))

/-- The stack that holds most of a layer's weights, and all that hold some. -/
def weightStacks (s : State) (x : SideRec) : Option Nat × List Nat :=
  let on := fun (n : Nat) => (x.granules.filter (fun g => ((mapEnt s g).map (fun e => decide (e.stack = n))).getD false)).length
  let l := (List.range 12).filter (fun n => decide (on n > 0))
  (l.foldl (fun (b : Option Nat) n => match b with | none => some n | some k => if on n > on k then some n else b) none, l)

/-- One layer's rules of R309 at a boundary: the counters of consecutive boundaries, then the change they call for, if none of its work runs. -/
def sideBoundary (m l : Nat) (s : State) : State :=
  match modelOf s m with
  | none => s
  | some r => match r.sides.find? (fun x => decide (x.layer = l)) with
    | none => s
    | some x =>
      let batch := (s.book.orders.filter (fun p => decide (p.2.model = m ∧ p.2.state = 3))).length
      let (most, all) := weightStacks s x
      let hold := max 1 (plcField s 39 32)
      let y : SideRec := { x with
        above := if batch > x.best then x.above + 1 else 0, below := if batch > x.best then 0 else x.below + 1
        cool := if all.all (fun n => decide ((stackOf s n).step = 0)) then x.cool + 1 else 0 }
      let stackHot := (most.map (fun n => decide ((stackOf s n).step ≥ max 1 (plcField s 42 40)))).getD false
      let sHot := shopsHot s m l
      let want : Option (Bool × Nat) :=
        if x.now then (if stackHot && !sHot then some (false, 1) else if decide (y.above ≥ hold) && !sHot then some (false, 0) else none)
        else if sHot then some (true, 1)
        else if x.hot then (if y.cool ≥ hold then some (true, 1) else none)
        else if y.below ≥ hold then some (true, 0) else none
      let put := fun (z : SideRec) (s : State) => match modelOf s m with
        | some r => setModel m (some { r with sides := r.sides.map (fun q => if q.layer = l then z else q) }) s
        | none => s
      let s1 := put y s
      match want with
      | none => s1
      | some (side, cause) =>
        let s2 := changeSide m l side cause s1
        let z := ((modelOf s2 m).bind (fun r => r.sides.find? (fun q => decide (q.layer = l)))).getD y
        if z.now = side then put { z with hot := decide (cause = 1) && !side } s2 else s2

/-- R309 for every layer of every model. -/
def changeSides (s : State) : State :=
  s.book.models.foldl (fun s p => ((p.2.map (fun m => m.sides.map (fun x => x.layer))).getD []).foldl (fun s l => sideBoundary p.1 l s) s) s

/-- Selectors count the boundaries at which 16 masks are queued; an order may move off one that has stayed so (R311), with no row claimed (R267). -/
def balanceSelectors (moves : List (Nat × Nat)) (s : State) : State :=
  let s1 := (List.range 4).foldl (fun s q => modSel q (fun x => { x with full := if x.maskQueue.length ≥ 16 then x.full + 1 else 0 }) s) s
  moves.foldl (fun s mv =>
    let q := (orderOf s mv.1).selector
    if (orderOf s mv.1).state = 0 ∨ mv.2 ≥ 4 ∨ mv.2 = q ∨ selDown s mv.2 = true ∨ (selOf s q).full < max 1 (plcField s 39 32)
      ∨ (selOf s q).rows.any (fun r => decide (r.order = mv.1)) = true then s
    else
      let held := (selOf s q).held.filter (fun h => decide (h.order = mv.1))
      let s2 := modOrder mv.1 (fun r => { r with selector := mv.2 }) (forgetSel mv.1 s)
      let s3 := modSel mv.2 (fun x => { x with held := x.held ++ held }) s2
      if (orderOf s3 mv.1).state = 2 ∨ (orderOf s3 mv.1).state = 3 then queueMask mv.1 s3 else s3) s1

/-- The floorwalker's work at step 3 (R297 to R315). -/
def walkFloor (b : BellIn) (s : State) : State :=
  let s1 := balanceSelectors b.rebinds (rebindOrders (routeAbsent s))
  let s2 := b.migrations.foldl (fun s m => startMigration m.1 m.2.1 m.2.2 s) (changeSides s1)
  reportAborts (reportPinHot (reportLow (reportShadows s2)))

/-- Does a steward run? Halted ones do, for their duties, until 100 µs have passed (R521). -/
def stewardRuns (s : State) (h : Nat) : Bool :=
  let x := stewardOf s h
  x.present && !x.restarting && (match x.halted with | some t => decide (s.now < t + 100000) | none => true)

/-- The holder of a duty. -/
def dutyHolder (s : State) (d : Nat) : Nat := (tget none s.sys.duties d).getD d

/-- Duties leave stewards that do not run, and return to those that run again. -/
def moveDuties (s : State) : State :=
  (List.range 8).foldl (fun s d =>
    let give := fun (h : Nat) => { s with sys := { s.sys with duties := tset none s.sys.duties d (if h = d then none else some h) } }
    if stewardRuns s d then give d
    else if stewardRuns s (dutyHolder s d) then s
    else
      let load := fun (h : Nat) => ((List.range 8).filter (fun e => decide (dutyHolder s e = h))).length
      match (List.range 8).filter (stewardRuns s) with
      | [] => s
      | h :: t => give (t.foldl (fun b k => if load k < load b then k else b) h)) s

/-- Step 3 of the boundary. -/
def step3 (b : BellIn) (s : State) : State :=
  let s1 := bookWork b.cmds (freeRemoved (commitMigrations s))
  let s2 := (List.range 320).foldl (fun s n => takeFirmware n s) (flushCtrl s1)
  let s3 := (List.range 12).foldl (fun s n => takePendingLib n s) s2
  let s4 := (s3.jobs.jobs.filter (fun j => decide (j.op = 0x31))).foldl (fun s j =>
    finishDisable j (if j.bell < s.bell then freeTenantModels j.a s else s)) s3
  let s5 := applySettings (applyRanges (sweepTags (sweepGrammars s4)))
  let s6 := countHoldings (walkFloor b s5)
  let s7 := moveDuties (startScrub (applyFarRetire (applyRepairs s6)))
  applyResets b.boot.1 b.boot.2 (flushRefused s7)

/-- A boundary before READY (R321): the bell runs at its reset period, the scan and the settings work; nothing is planned or counted. -/
def earlyBoundary (b : BellIn) (s : State) : State :=
  let s1 := { s with sched := { s.sched with
    opened := s.now, energy := 0, charged := 0, standing := b.standing, clamped := false, budget := bellBudget s / 100000000 } }
  let s2 := step2 b (setRefresh (thermalBoundary (applyPower s1)))
  applyResets b.boot.1 b.boot.2 (flushRefused (moveDuties (applySettings (applyRanges (flushCtrl s2)))))

/-- The next bell opens; at the LEDGER-th the ledger period ends (R319, R418, R546). -/
def openBell (s : State) : State :=
  let s1 := { s with
    bell := s.bell + 1, sched := { s.sched with opened := s.now }
    bal := { s.bal with noMark := s.bal.noMark + 1, fabric := (s.bal.fabric + 1) % 2 ^ 48 } }
  if s.sched.ledgerAt + s.sched.ledger ≤ s.bell + 1 then openLedger s1 else s1

/-- A bell ends and the next opens (Table 13.1). -/
def boundary (b : BellIn) (s : State) : State :=
  let s0 := finishLedger (atTime b.time s)
  if !s0.ready then earlyBoundary b s0
  else
    let s1 := closeBell b.standing s0
    step3 b (step2 b (step1 b s1 (openBell (rollCopies s1))))

/-- BELL_BOUNDARY (R322). Before the 12 V domains are powered no bell runs. -/
def execBellBoundary (b : BellIn) (s : State) : Res := .next (if s.sys.powered && decide (s.sys.stage ≠ 8) then boundary b s else s)

/-! ### Scans and admissions within the bell -/

/-- A request for an early scan (R324), by the PF (VF 0) or a VF: taken, held, merged or ignored. -/
def askScan (vf value : Nat) (s : State) : State :=
  if bitOf value 0 = false then s
  else if !s.ready || (decide (vf > 0) && !s.book.enabled.contains (vf - 1)) || s.host.scanHeld then bump 0x100140 1 s
  else
    let s1 := { s with host := { s.host with scanHeld := true } }
    if s.now < s.host.lastScan + 10000 ∧ s.host.lastScan ≠ 0 then bump 0x100140 1 s1 else s1

/-- BELL_EARLY_SCAN (R324): a write to the PF's register (VF 0) or a VF's; EARLY_SCAN then performs the scan. -/
def execBellEarlyScan (vf value time : Nat) (s : State) : Res := .next (askScan vf value (atTime time s))

/-- EARLY_SCAN (R324): the accepted or held scan starts, with what it finds in host memory. -/
def execEarlyScan (cells : List (Nat × BitVec 8)) (fails : List (Nat × Nat)) (cmds : List CmdIn) (time : Nat) (s : State) : Res :=
  let s := atTime time s
  .next (if !s.host.scanHeld || (decide (s.host.lastScan ≠ 0) && decide (s.now < s.host.lastScan + 10000)) then s
    else scan cmds s.now (seeHost cells fails (bump 0x100138 1 { s with host := { s.host with scanHeld := false, lastScan := s.now } })))

/-- DISPATCH_ADMIT (R331): admissions from the remainder, and for LC work from H. -/
def execDispatchAdmit (time : Nat) (s : State) : Res :=
  let s := atTime time s
  .next (if s.ready && decide (s.sched.allow > 0) then admitInBell s else s)

/-- HOLD_RELEASE (R331): at HOLD_RELEASE percent of the bell what is left of H joins the remainder. -/
def execHoldRelease (time : Nat) (s : State) : Res :=
  let s := atTime time s
  .next (if 100 * (s.now - s.sched.opened) ≥ bellNs s * forceField s 0x100020 22 16 then
      { s with sched := { s.sched with remainder := s.sched.remainder + s.sched.hold, hold := 0 } }
    else s)

/-- GOVERNOR_SAMPLE (R337, R338): the energy of 1 µs in nJ; the governor adds 1 %, tests, and clamps until the bell ends. -/
def execGovernorSample (energy time : Nat) (s : State) : Res :=
  let s := atTime time s
  let s1 := { s with sched := { s.sched with energy := s.sched.energy + 101 * energy } }
  let floor := min Config.pFloorW 1900
  let hit := decide (s1.sched.energy * 10 + 14000000000 + floor * (bellEnd s1 - s1.now) * 1000 ≥ s1.sched.budget * 100000000)
  .next (if s1.sys.powered && hit && !s1.sched.clamped then
      returnTiles { s1 with sched := { s1.sched with clamped := true } }
    else s1)

end Sys2Proof.Machine
end

