-- ==== Sys2Proof/Machine/BenchMem.lean ====
section
/-! DEFINITION. Memory accesses of the bench cores: local memory (R94), device memory and its returns (R95, R96), atomics (R384),
FENCE, MWAIT and the tally instructions (R373, R374, R378). -/

namespace Sys2Proof.Machine

/-! ### Local memory (R94) -/

/-- `n` bytes of a bench's local memory. -/
def localRead (b : BenchSt) (a n : Nat) : Nat := ofLeBytes ((List.range n).map (fun i => tget 0 b.local_ (a + i)))

/-- Write bytes of a bench's local memory. -/
def localWrite (a : Nat) (l : List Byte) (b : BenchSt) : BenchSt :=
  { b with local_ := l.zipIdx.foldl (fun t p => tset 0 t (a + p.2) p.1) b.local_ }

/-- The local address A + IMM, modulo 2^64. -/
def effAddr (b : BenchSt) (a imm : Nat) : Nat := (getS b a + sext16 imm) % 2 ^ 64

/-- Is a local access aligned to its size and inside 0x000 to 0xFFF? -/
def localOk (addr n : Nat) : Bool := decide (addr % n = 0 ∧ addr + n ≤ 4096)

/-- A local access of form I: a LOCAL_ADDR fault where it is misaligned or outside, else `f` on the address. -/
def localOp (n : Nat) (ss vs : List Nat) (shop bench d a imm : Nat) (f : Nat → BenchSt → BenchSt) (s : State) : State :=
  issue shop bench (regs32 [d, a] && decide (imm < 65536)) ss vs (fun k b s =>
    let addr := effAddr b a imm
    if localOk addr n then modBench k (fun b => benchNext (f addr b)) s else benchFault k 3 s) s

/-- SLDB: a byte, sign-extended (R94). -/
def execSldb (shop bench d a imm : Nat) (s : State) : Res :=
  .next (localOp 1 [d, a] [] shop bench d a imm (fun x b => putS d (codeOf 64 (signedOf 8 (localRead b x 1))) b) s)

/-- SLDW: 32 bits, sign-extended (R94). -/
def execSldw (shop bench d a imm : Nat) (s : State) : Res :=
  .next (localOp 4 [d, a] [] shop bench d a imm (fun x b => putS d (codeOf 64 (signedOf 32 (localRead b x 4))) b) s)

/-- SLDD: 64 bits (R94). -/
def execSldd (shop bench d a imm : Nat) (s : State) : Res :=
  .next (localOp 8 [d, a] [] shop bench d a imm (fun x b => putS d (localRead b x 8) b) s)

/-- SSTB: the low byte of D (R94). -/
def execSstb (shop bench d a imm : Nat) (s : State) : Res :=
  .next (localOp 1 [d, a] [] shop bench d a imm (fun x b => localWrite x (leBytes 1 (getS b d)) b) s)

/-- SSTW: the low 32 bits of D (R94). -/
def execSstw (shop bench d a imm : Nat) (s : State) : Res :=
  .next (localOp 4 [d, a] [] shop bench d a imm (fun x b => localWrite x (leBytes 4 (getS b d)) b) s)

/-- SSTD: the 64 bits of D (R94). -/
def execSstd (shop bench d a imm : Nat) (s : State) : Res :=
  .next (localOp 8 [d, a] [] shop bench d a imm (fun x b => localWrite x (leBytes 8 (getS b d)) b) s)

/-- VLD: 32 bytes into vector D (R94). -/
def execVld (shop bench d a imm : Nat) (s : State) : Res :=
  .next (localOp 32 [a] [d] shop bench d a imm (fun x b => putV d (localRead b x 32) b) s)

/-- VST: the 32 bytes of vector D (R94). -/
def execVst (shop bench d a imm : Nat) (s : State) : Res :=
  .next (localOp 32 [a] [d] shop bench d a imm (fun x b => localWrite x (leBytes 32 (getV b d)) b) s)

/-! ### Device memory (R95, R96) -/

/-- The tenant of a context. -/
def ctxTenant (s : State) (c : Nat) : Option Nat := (ctxOf s c).bind (fun x => x.tenant)

/-- Issue the requests of a bench's access to another device; its data or completion arrives with the answer. -/
def remoteAccess (k kind dest : Nat) (p : Packet) (s : State) : State :=
  let b := benchOf s k
  sendReq p (ctxTenant s b.ctx) b.ctx (.bench k b.nextOut) 0 (addOut k kind dest [] false false s)

/-- An access of form I to a device address: waits for FENCE and for a free place of the sixteen; misaligned it is a MEM_ALIGN
fault; one whose home is in reset is tried again later (R509); otherwise `f`, then the next PC. -/
def memOp (align : Nat) (ss vs : List Nat) (legal : Bool) (addr : BenchSt → Nat) (shop bench : Nat)
    (f : Nat → Nat → BenchSt → State → State) (s : State) : State :=
  issue shop bench (legal) ss vs (fun k b s1 =>
    if !memReady b then s
    else if addr b % align ≠ 0 then benchFault k 4 s1
    else if homeInReset s (resolve s (ctxTenant s b.ctx) (addr b)) then retried s
    else f k (addr b) b s1) s

/-- VLDM: issue a 32-byte load; its data is written at BENCH_LOAD_RETURN (R95, R96). -/
def execVldm (shop bench d a imm : Nat) (s : State) : Res :=
  .next (memOp 32 [a] [d] (regs32 [d, a] && decide (imm < 65536)) (fun b => effAddr b a imm) shop bench (fun k x b s =>
    let ten := ctxTenant s b.ctx
    let adv := modBench k benchNext
    match resolve s ten x with
    | .remote dv la => adv (remoteAccess k 0 d (mkPacket 1 dv la 1 0 []) s)
    | _ =>
      let (r, s0) := readCtx b.ctx ten x 32 s
      let s1 := portBytes shop 32 s0
      if !r.ok then benchFault k 5 s
      else adv (addOut k 0 d r.data (decide (r.poison ≠ 0)) true s1)) s)

/-- VSTM: issue a 32-byte store, performed at once in this device; its completion returns by WRITE_COMPLETION (R95, R373). -/
def execVstm (shop bench d a imm : Nat) (s : State) : Res :=
  .next (memOp 32 [a] [d] (regs32 [d, a] && decide (imm < 65536)) (fun b => effAddr b a imm) shop bench (fun k x b s =>
    let ten := ctxTenant s b.ctx
    let data := leBytes 32 (getV b d)
    let adv := modBench k benchNext
    match resolve s ten x with
    | .remote dv la => adv (remoteAccess k 1 0 (mkPacket 3 dv la 1 0 data) s)
    | _ =>
      if writeOk s b.ctx ten x 32 then adv (addOut k 1 0 [] false true (portBytes shop 32 (writeCtx ten x data s)))
      else benchFault k 5 s) s)

/-- SATOM: an atomic on an aligned 8-byte warehouse word; the old value returns to D (R95, R384, R385). -/
def execSatom (shop bench d a b c m fmt : Nat) (s : State) : Res :=
  .next (memOp 8 [d, a, b] [] (regs32 [d, a, b] && zeros [m, fmt] && decide (c < 6)) (fun x => getS x a) shop bench (fun k x y s =>
    let ten := ctxTenant s y.ctx
    let adv := modBench k benchNext
    let op2 := getS y b
    let cmp := getS y d
    match resolve s ten x with
    | .warehouse w =>
      let (old, s1) := atomicAt w c op2 cmp s
      adv (addOut k 2 d (leBytes 8 old.1) old.2 true s1)
    | .remote dv la =>
      let p : Packet := { mkPacket 5 dv la (if c = 5 then 1 else 0) op2 (if c = 5 then leBytes 4 (cmp / 2 ^ 32) ++ leBytes 28 0 else []) with
        op := c, arg2 := if c = 5 then cmp % 2 ^ 32 else 0 }
      adv (remoteAccess k 2 d p s)
    | .none =>
      let l := x % 2 ^ 48
      benchFault k (if 0x010000000000 ≤ l ∧ l < 0x010010000000 then 5 else 6) s
    | _ => benchFault k 6 s) s)

/-- BENCH_LOAD_RETURN (R96): the data of an outstanding VLDM or SATOM is written to its destination; poisoned data is not
written and is a POISON fault. `stall` is the cycles its bench waited for it (Table 4.13). -/
def execBenchLoadReturn (shop bench acc stall : Nat) (s : State) : Res :=
  let k := benchKey shop bench
  .next (match (benchOf s k).out.find? (fun a => decide (a.id = acc)) with
    | none => s
    | some a =>
      if a.kind = 1 ∨ a.arrived = false then s
      else
        let s1 := bump (shopC shop 0x140) stall s
        if a.poison then benchFault k 7 (outDone k acc s1)
        else outDone k acc (modBench k (fun b =>
          if a.kind = 0 then putV a.dest (ofLeBytes a.data) b else putS a.dest (ofLeBytes a.data) b) s1))

/-- WRITE_COMPLETION (R373): the completion of a bench VSTM returns from its home. -/
def execWriteCompletion (shop bench acc : Nat) (s : State) : Res :=
  let k := benchKey shop bench
  .next (match (benchOf s k).out.find? (fun a => decide (a.id = acc)) with
    | some a => if a.kind = 1 ∧ a.arrived = true then outDone k acc s else s
    | none => s)

/-! ### Ordering and tallies -/

/-- MWAIT: waits until at most IMM accesses are outstanding (R89). -/
def execMwait (shop bench d a imm : Nat) (s : State) : Res :=
  .next (issue shop bench (zeros [d, a] && decide (imm < 65536)) [] [] (fun k _ s =>
    modBench k (fun b => { benchNext b with wait := if b.out.length ≤ imm then .run else .outstanding imm }) s) s)

/-- FENCE: every later access and tally operation waits until each earlier one is performed (R373). -/
def execFence (shop bench d a b c m fmt : Nat) (s : State) : Res :=
  .next (issueReg shop bench (zeros [d, a, b, c, m, fmt]) [] [] (fun x => { x with fence := x.out.map (fun a => a.id) }) s)

/-- TWAIT: waits until the tally in scalar A is at least B (R378); a tally outside the tenant's range is a PROTECTION fault
(R381). -/
def execTwait (shop bench d a b c m fmt : Nat) (s : State) : Res :=
  .next (issue shop bench (regs32 [a, b] && zeros [d, c, m, fmt]) [a, b] [] (fun k x s1 =>
    if !x.fence.isEmpty then s
    else
      let t := getS x a
      let v := getS x b % 2 ^ 32
      if !(decide (t < 65536) && tallyAllowed s1 (ctxTenant s1 x.ctx) t) then benchFault k 5 s1
      else if v ≤ (tallyOf s1 t).value.toNat then modBench k benchNext s1
      else
        { modBench k (fun y => { benchNext y with wait := .tally }) s1 with
          tal := { s1.tal with waits := s1.tal.waits ++ [⟨t, v, ctxTenant s1 x.ctx, x.ctx, .bench k, false⟩] } }) s)

/-- TSIG: signals the tally in scalar A by B[31:0], once every earlier access of the bench has been performed (R374). -/
def execTsig (shop bench d a b c m fmt : Nat) (s : State) : Res :=
  .next (issue shop bench (regs32 [a, b] && zeros [d, c, m, fmt]) [a, b] [] (fun k x s1 =>
    if !x.fence.isEmpty then s
    else
      let t := getS x a
      if !(decide (t < 65536) && tallyAllowed s1 (ctxTenant s1 x.ctx) t) then benchFault k 5 s1
      else
        settleOut k (modBench k (fun y => { benchNext y with
          sigs := y.sigs ++ [(y.out.map (fun a => a.id), t, getS y b % 2 ^ 32)] }) s1)) s)

end Sys2Proof.Machine
end

