-- ==== Sys2Proof/Machine/BenchScalar.lean ====
section
/-! DEFINITION. The scalar unit of the bench cores (R89, Table 4.6): integer and FP32 arithmetic, CSRs, branches, LOOP and HALT. Operands are the
fields of the instruction's form (Table 4.4); a field that the instruction does not use must be zero (R87). -/

namespace Sys2Proof.Machine

/-- A scalar integer instruction of form A: D = f A B. -/
def scalarInt (f : Nat → Nat → Nat) (shop bench d a b c m fmt : Nat) (s : State) : State :=
  issueReg shop bench (regs32 [d, a, b] && zeros [c, m, fmt]) [d, a, b] []
    (fun x => putS d (f (getS x a) (getS x b)) x) s

/-- SADD: 64-bit add (R89). -/
def execSadd (shop bench d a b c m fmt : Nat) (s : State) : Res :=
  .next (scalarInt (fun x y => x + y) shop bench d a b c m fmt s)

/-- SSUB: 64-bit subtract (R89). -/
def execSsub (shop bench d a b c m fmt : Nat) (s : State) : Res :=
  .next (scalarInt (fun x y => x + 2 ^ 64 - y) shop bench d a b c m fmt s)

/-- SMUL: the low 64 bits of the product (R89). -/
def execSmul (shop bench d a b c m fmt : Nat) (s : State) : Res :=
  .next (scalarInt (fun x y => x * y) shop bench d a b c m fmt s)

/-- SAND (R89). -/
def execSand (shop bench d a b c m fmt : Nat) (s : State) : Res :=
  .next (scalarInt (fun x y => x &&& y) shop bench d a b c m fmt s)

/-- SOR (R89). -/
def execSor (shop bench d a b c m fmt : Nat) (s : State) : Res :=
  .next (scalarInt (fun x y => x ||| y) shop bench d a b c m fmt s)

/-- SXOR (R89). -/
def execSxor (shop bench d a b c m fmt : Nat) (s : State) : Res :=
  .next (scalarInt (fun x y => x ^^^ y) shop bench d a b c m fmt s)

/-- SSHL: shift left by B[5:0] (R89). -/
def execSshl (shop bench d a b c m fmt : Nat) (s : State) : Res :=
  .next (scalarInt (fun x y => x * 2 ^ (y % 64)) shop bench d a b c m fmt s)

/-- SSHR: logical shift right by B[5:0] (R89). -/
def execSshr (shop bench d a b c m fmt : Nat) (s : State) : Res :=
  .next (scalarInt (fun x y => x / 2 ^ (y % 64)) shop bench d a b c m fmt s)

/-- SSRA: arithmetic shift right by B[5:0] (R89). -/
def execSsra (shop bench d a b c m fmt : Nat) (s : State) : Res :=
  .next (scalarInt (fun x y => codeOf 64 (signedOf 64 x / (2 ^ (y % 64) : Nat))) shop bench d a b c m fmt s)

/-- SSLT: 1 if A < B as signed (R89). -/
def execSslt (shop bench d a b c m fmt : Nat) (s : State) : Res :=
  .next (scalarInt (fun x y => if signedOf 64 x < signedOf 64 y then 1 else 0) shop bench d a b c m fmt s)

/-- SMIN: signed minimum (R89). -/
def execSmin (shop bench d a b c m fmt : Nat) (s : State) : Res :=
  .next (scalarInt (fun x y => if signedOf 64 x ≤ signedOf 64 y then x else y) shop bench d a b c m fmt s)

/-- SMAX: signed maximum (R89). -/
def execSmax (shop bench d a b c m fmt : Nat) (s : State) : Res :=
  .next (scalarInt (fun x y => if signedOf 64 x ≤ signedOf 64 y then y else x) shop bench d a b c m fmt s)

/-- SADDI: D = A + the sign-extended immediate (R89). -/
def execSaddi (shop bench d a imm : Nat) (s : State) : Res :=
  .next (issueReg shop bench (regs32 [d, a] && decide (imm < 65536)) [d, a] []
    (fun x => putS d (getS x a + sext16 imm) x) s)

/-- SLUI: D = (D << 16) OR the zero-extended immediate (R89). -/
def execSlui (shop bench d a imm : Nat) (s : State) : Res :=
  .next (issueReg shop bench (regs32 [d] && zeros [a] && decide (imm < 65536)) [d] []
    (fun x => putS d (getS x d * 65536 % 2 ^ 64 ||| imm) x) s)

/-- VBCAST: every enabled lane of vector D takes the low lane-width bits of scalar A (R88, R89); the bits are moved, so an FP8
FMT keeps its lanes (log entry 13, DEDUCED). -/
def execVbcast (shop bench d a b c m fmt : Nat) (s : State) : Res :=
  .next (issueReg shop bench (regs32 [d, a] && zeros [b, c] && decide (m < 8 ∧ fmt < 4)) [a] [d]
    (fun x => putV d (putLanes (getV x d) (laneW fmt) (((List.range (lanes fmt)).filter (bitOf (getM x m))).map
      (fun i => (i, getS x a % 2 ^ laneW fmt)))) x) s)

/-! ### FP32 in scalars -/

/-- A scalar FP32 instruction: the operation of `laneOp` on bits [31:0]; the upper bits are written zero. -/
def scalarFp (op : Nat) (legal : Bool) (shop bench d a b c : Nat) (s : State) : State :=
  issueReg shop bench (regs32 [d, a, b, c] && legal) [d, a, b, c] []
    (fun x =>
      let r := laneOp op x .fp32 .fp32 (getS x a % 2 ^ 32) (getS x b % 2 ^ 32) (getS x c % 2 ^ 32)
      putFlags r.2 (putS d r.1 x)) s

/-- SFADD (R89, R55). -/
def execSfadd (shop bench d a b c m fmt : Nat) (s : State) : Res :=
  .next (scalarFp 0 (zeros [c, m, fmt]) shop bench d a b c s)

/-- SFMUL (R89, R55). -/
def execSfmul (shop bench d a b c m fmt : Nat) (s : State) : Res :=
  .next (scalarFp 2 (zeros [c, m, fmt]) shop bench d a b c s)

/-- SFFMA: D = A × B + C with one rounding (R89, R55). -/
def execSffma (shop bench d a b c m fmt : Nat) (s : State) : Res :=
  .next (scalarFp 3 (zeros [m, fmt]) shop bench d a b c s)

/-- SFLT: D = 1 if A < B, else 0; an unordered compare is false (R89). -/
def execSflt (shop bench d a b c m fmt : Nat) (s : State) : Res :=
  .next (issueReg shop bench (regs32 [d, a, b] && zeros [c, m, fmt]) [d, a, b] []
    (fun x =>
      let u := getS x a % 2 ^ 32
      let v := getS x b % 2 ^ 32
      putFlags (b2n (sNan .fp32 u || sNan .fp32 v))
        (putS d (b2n (ltV (operand (bFtz x) .fp32 u) (operand (bFtz x) .fp32 v))) x)) s)

/-- int64 to FP32 by RMODE. -/
def cvtToF32 (x : BenchSt) (v : Nat) : Nat × Nat :=
  let i := signedOf 64 v
  bEncode .fp32 (bRmode x) false (.fin (decide (i < 0)) i.natAbs 0)

/-- FP32 to int64 by CVT, saturating: the code and the flags SAT (32) and NX (16) (R91). -/
def cvtToI64 (x : BenchSt) (v : Nat) : Nat × Nat :=
  let c := cvtOfBits (bCvt x)
  let r := cvtRnd c (if c.rmode = 2 then srRandom x.seed x.bsridx.toNat else 0)
  let val := operand (bFtz x) .fp32 v
  let code := encodeInt 64 r val
  let (sat, nx) : Bool × Bool := match val with
    | .nan => (false, false)
    | .inf _ => (true, false)
    | .fin n m e =>
      let i := roundInt r n m e
      (decide (clampInt (-9223372036854775808) 9223372036854775807 i ≠ i), !eqV (finOf i 0) (.fin n m e))
  (code, (if sat then 32 else 0) + (if nx then 16 else 0))

/-- SFCVT (R89, R91): C = 0 int64 to FP32, C = 1 FP32 to int64. CVT's code 0b11 counts a format event (R38, R42). -/
def execSfcvt (shop bench d a b c m fmt : Nat) (s : State) : Res :=
  .next (issue shop bench (regs32 [d, a] && zeros [b, m, fmt] && decide (c < 2)) [d, a] [] (fun k x s =>
    let r := if c = 0 then cvtToF32 x (getS x a) else cvtToI64 x (getS x a % 2 ^ 32)
    let s1 := fmtEvents shop (if c = 1 ∧ bCvt x % 4 = 3 then 1 else 0) s
    modBench k (fun x => benchNext (putFlags r.2 (putS d r.1 x))) s1) s)

/-- VMVS: scalar D = bits of lane C of vector A; a lane number at or above the lane count has no stated result (R89, log entry
5). -/
def execVmvs (shop bench d a b c m fmt : Nat) (s : State) : Res :=
  .next (issueReg shop bench (regs32 [d, a, c] && zeros [b, m] && decide (fmt < 4)) [d] [a]
    (fun x => putS d (if c < lanes fmt then laneAt (getV x a) (laneW fmt) c
      else Config.openResult 1 (getV x a) (c * 4 + fmt) % 2 ^ laneW fmt) x) s)

/-! ### Control and status registers (R85, R86) -/

/-- Cycles since the instance's start, at the quarter's clock (Table 4.2). -/
def bCycle (s : State) (shop : Nat) (x : BenchSt) : Nat := (s.now - x.start) * quarterClock s (shopQuarter shop) / 20

/-- A CSR's value; none for an index that Table 4.2 does not list. -/
def csrRead (s : State) (shop bench : Nat) (x : BenchSt) (i : Nat) : Option Nat :=
  match i with
  | 0 => some x.bctl
  | 1 => some x.bflags
  | 2 => some (bench + bench / 16 * 2 ^ 8 + shop * 2 ^ 12)
  | 3 => some x.inst
  | 4 => some x.arg
  | 5 => some x.seed
  | 6 => some x.bsridx.toNat
  | 7 => some (bCycle s shop x)
  | 8 => some x.ctx
  | _ => none

/-- CSRR: D = CSR[IMM] (R85). -/
def execCsrr (shop bench d a imm : Nat) (s : State) : Res :=
  .next (issue shop bench (regs32 [d] && zeros [a] && decide (imm < 9)) [d] [] (fun k x s =>
    modBench k (fun y => benchNext (putS d ((csrRead s shop bench x imm).getD 0) y)) s) s)

/-- CSRW: CSR[IMM] = A, for the read-write CSRs; bits that Table 4.3 does not list ignore writes (R85, R86). -/
def execCsrw (shop bench d a imm : Nat) (s : State) : Res :=
  .next (issueReg shop bench (regs32 [a] && zeros [d] && decide (imm = 0 ∨ imm = 1 ∨ imm = 6)) [a] []
    (fun x =>
      let v := getS x a
      match imm with
      | 0 => { x with bctl := v &&& 0xF7 }
      | 1 => { x with bflags := v &&& 0x3F }
      | _ => { x with bsridx := BitVec.ofNat 64 v }) s)

/-! ### Branches, jumps, LOOP, HALT -/

/-- A branch of form J: taken to PC + OFF when the condition holds (R89, R93). -/
def branch (cond : Int → Int → Bool) (shop bench a b off : Nat) (s : State) : State :=
  issue shop bench (regs32 [a, b] && decide (off < 65536)) [a, b] [] (fun k _ s =>
    modBench k (fun x => if cond (sInt x a) (sInt x b) then jumpTo (((x.pc : Int) + signedOf 16 off) % 4096).toNat x
      else benchNext x) s) s

/-- BEQ: branch if equal (R89). -/
def execBeq (shop bench a b off : Nat) (s : State) : Res :=
  .next (branch (fun x y => decide (x = y)) shop bench a b off s)

/-- BNE: branch if not equal (R89). -/
def execBne (shop bench a b off : Nat) (s : State) : Res :=
  .next (branch (fun x y => decide (x ≠ y)) shop bench a b off s)

/-- BLT: branch if less than, signed (R89). -/
def execBlt (shop bench a b off : Nat) (s : State) : Res :=
  .next (branch (fun x y => decide (x < y)) shop bench a b off s)

/-- BGE: branch if greater or equal, signed (R89). -/
def execBge (shop bench a b off : Nat) (s : State) : Res :=
  .next (branch (fun x y => decide (y ≤ x)) shop bench a b off s)

/-- JAL: D = PC + 1; PC = PC + IMM (R89). -/
def execJal (shop bench d a imm : Nat) (s : State) : Res :=
  .next (issue shop bench (regs32 [d] && zeros [a] && decide (imm < 65536)) [d] [] (fun k _ s =>
    modBench k (fun x => jumpTo (((x.pc : Int) + signedOf 16 imm) % 4096).toNat (putS d ((x.pc + 1) % 4096) x)) s) s)

/-- JR: PC = A[11:0] (R89). -/
def execJr (shop bench d a b c m fmt : Nat) (s : State) : Res :=
  .next (issue shop bench (regs32 [a] && zeros [d, b, c, m, fmt]) [a] [] (fun k _ s =>
    modBench k (fun x => jumpTo (getS x a) x) s) s)

/-- LOOP: repeats the next IMM instructions A times; a count of zero skips the body; a LOOP inside a body is illegal (R93). -/
def execLoop (shop bench d a imm : Nat) (s : State) : Res :=
  .next (issue shop bench (regs32 [a] && zeros [d] && decide (1 ≤ imm ∧ imm ≤ 1024)
      && (benchOf s (benchKey shop bench)).loop.isNone) [a] [] (fun k _ s =>
    modBench k (fun x =>
      let n := getS x a
      if n = 0 then { x with pc := (x.pc + 1 + imm) % 4096 }
      else { x with pc := (x.pc + 1) % 4096, loop := some ((x.pc + 1) % 4096, (x.pc + 1 + imm) % 4096, n) }) s) s)

/-- HALT: the instance ends; its flags join the launch's; the bench takes the next undispatched instance, unless a reset waits
for it (R99, R109). Loads still outstanding are of no further use. -/
def execHalt (shop bench d a b c m fmt : Nat) (s : State) : Res :=
  .next (issue shop bench (zeros [d, a, b, c, m, fmt]) [] [] (fun k x s =>
    match x.launch with
    | none => s
    | some i =>
      let s1 := modLaunch shop i (fun l => { l with halted := l.halted + 1, flags := l.flags ||| x.bflags }) s
      takeInstance k (modBench k (fun y => { y with
        launch := none, loop := none
        out := (y.out.filter (fun a => a.kind != 0)).map (fun a => { a with dest := 0 }) }) s1)) s)

end Sys2Proof.Machine
end

