-- ==== Sys2Proof/Machine/BenchVector.lean ====
section
/-! DEFINITION. The vector unit of the bench cores (R88 to R92, Table 4.6): lane arithmetic, special functions, compares, conversions, reductions
and permutations. -/

namespace Sys2Proof.Machine

/-- VADD (R88, R89). -/
def execVadd (shop bench d a b c m fmt : Nat) (s : State) : Res :=
  .next (issueReg shop bench (vecLegal d m fmt [a, b] [] && zeros [c]) [] ([a, b] ++ pairRegs fmt [d])
    (vecOp 0 d a b 0 m fmt) s)

/-- VSUB (R88, R89). -/
def execVsub (shop bench d a b c m fmt : Nat) (s : State) : Res :=
  .next (issueReg shop bench (vecLegal d m fmt [a, b] [] && zeros [c]) [] ([a, b] ++ pairRegs fmt [d])
    (vecOp 1 d a b 0 m fmt) s)

/-- VMUL (R88, R89). -/
def execVmul (shop bench d a b c m fmt : Nat) (s : State) : Res :=
  .next (issueReg shop bench (vecLegal d m fmt [a, b] [] && zeros [c]) [] ([a, b] ++ pairRegs fmt [d])
    (vecOp 2 d a b 0 m fmt) s)

/-- VMAX: IEEE 754 maximum (R57) (R88, R89). -/
def execVmax (shop bench d a b c m fmt : Nat) (s : State) : Res :=
  .next (issueReg shop bench (vecLegal d m fmt [a, b] [] && zeros [c]) [] ([a, b] ++ pairRegs fmt [d])
    (vecOp 4 d a b 0 m fmt) s)

/-- VMIN: IEEE 754 minimum (R88, R89). -/
def execVmin (shop bench d a b c m fmt : Nat) (s : State) : Res :=
  .next (issueReg shop bench (vecLegal d m fmt [a, b] [] && zeros [c]) [] ([a, b] ++ pairRegs fmt [d])
    (vecOp 5 d a b 0 m fmt) s)

/-- VFMA: D = A × B + C with one rounding (R88, R89). -/
def execVfma (shop bench d a b c m fmt : Nat) (s : State) : Res :=
  .next (issueReg shop bench (vecLegal d m fmt [a, b] [c]) [] ([a, b] ++ pairRegs fmt [d, c])
    (vecOp 3 d a b c m fmt) s)

/-- The lanes of a register moved to the result's format without rounding: FP8 lanes widen to BF16. -/
def widenLane (fmt c : Nat) : Nat := if isFp8 fmt then encodeFloat .bf16 .rne true false (decodeFloat (laneFmt fmt) c) else c

/-- VNEG: the sign bit of each enabled lane is inverted; FP8 lanes widen to BF16 first (R88, R89). -/
def execVneg (shop bench d a b c m fmt : Nat) (s : State) : Res :=
  .next (issueReg shop bench (vecLegal d m fmt [a] [] && zeros [b, c]) [] (a :: pairRegs fmt [d]) (fun x =>
    let w := laneW fmt
    let rw := if isFp8 fmt then 16 else w
    let en := (List.range (lanes fmt)).filter (bitOf (getM x m))
    let neg := fun (i : Nat) => let v := widenLane fmt (laneAt (getV x a) w i)
      if bitOf v (rw - 1) then v - 2 ^ (rw - 1) else v + 2 ^ (rw - 1)
    if isFp8 fmt then
      let lo := (en.filter (fun i => decide (i < 16))).map (fun i => (i, neg i))
      let hi := (en.filter (fun i => decide (i ≥ 16))).map (fun i => (i - 16, neg i))
      putV (d + 1) (putLanes (getV x (d + 1)) 16 hi) (putV d (putLanes (getV x d) 16 lo) x)
    else putV d (putLanes (getV x d) w (en.map (fun i => (i, neg i)))) x) s)

/-! ### Special functions (R58) -/

/-- One special function on an FP32 code: 0 exp, 1 reciprocal square root, 2 reciprocal; the result and the flags. OVF of CVT
governs an overflowing exp (Table 2.11). -/
def specialLane (fn : Nat) (x : BenchSt) (c0 : Nat) : Nat × Nat :=
  let ftz := bFtz x
  let c := if ftz then flushIn c0 else c0
  let r0 := match fn with
    | 0 => expOp 0 (bitOf (bCvt x) 2) c
    | 1 => rsqOp 0 c
    | _ => rcpOp 0 c
  let r := if ftz then flushIn r0 else r0
  let v := ofF32 c
  let zero := decide (c % 2 ^ 31 = 0)
  let snan := if sNan .fp32 c0 then 1 else 0
  let fl := match v with
    | .nan => 0
    | .inf n => if fn = 1 ∧ n = true then 1 else 0
    | .fin n m e =>
      if fn ≠ 0 ∧ zero = true then 2
      else if fn = 1 ∧ n = true then 1
      else if fn = 0 ∧ m = 0 then 0
      else if fn = 0 ∧ ltV (.fin false 887 0) (mulV (.fin n m e) (.fin false 10 0)) = true then 4 + 16
      else if fn = 0 ∧ r % 2 ^ 31 = 0 then 8 + 16
      else 16
  (r, fl ||| snan)

/-- A special function over the enabled FP32 lanes; another defined lane format is a FORMAT fault (Table 4.8). -/
def specialVec (fn shop bench d a b c m fmt : Nat) (s : State) : State :=
  issue shop bench (regs32 [d, a] && zeros [b, c] && decide (m < 8 ∧ fmt < 4)) [] [a, d] (fun k _ s =>
    if fmt ≠ 0 then benchFault k 2 s
    else modBench k (fun x =>
      let res := ((List.range 8).filter (bitOf (getM x m))).map (fun i => (i, specialLane fn x (laneAt (getV x a) 32 i)))
      benchNext (putFlags ((res.map (fun p => p.2.2)).foldl orMask 0)
        (putV d (putLanes (getV x d) 32 (res.map (fun p => (p.1, p.2.1)))) x))) s) s

/-- VEXP (R58, R89). -/
def execVexp (shop bench d a b c m fmt : Nat) (s : State) : Res := .next (specialVec 0 shop bench d a b c m fmt s)

/-- VRSQ (R58, R89). -/
def execVrsq (shop bench d a b c m fmt : Nat) (s : State) : Res := .next (specialVec 1 shop bench d a b c m fmt s)

/-- VRCP (R58, R89). -/
def execVrcp (shop bench d a b c m fmt : Nat) (s : State) : Res := .next (specialVec 2 shop bench d a b c m fmt s)

/-! ### Compare, select, permute, random -/

/-- A compare of two values: 0 equal, 1 less, 2 less or equal, 3 unordered. -/
def cmpV (cond : Nat) (a b : FVal) : Bool :=
  match cond with
  | 0 => eqV a b
  | 1 => ltV a b
  | 2 => ltV a b || eqV a b
  | _ => isNanV a || isNanV b

/-- VCMP: the enabled lanes' bits of mask register m[D[2:0]] (R89). -/
def execVcmp (shop bench d a b c m fmt : Nat) (s : State) : Res :=
  .next (issueReg shop bench (regs32 [a, b] && decide (d < 8 ∧ c < 4 ∧ m < 8 ∧ fmt < 4)) [] [a, b] (fun x =>
    let f := laneFmt fmt
    let w := laneW fmt
    let en := (List.range (lanes fmt)).filter (bitOf (getM x m))
    let la := fun (i : Nat) => laneAt (getV x a) w i
    let lb := fun (i : Nat) => laneAt (getV x b) w i
    let res := en.map (fun i => (i, cmpV c (operand (bFtz x) f (la i)) (operand (bFtz x) f (lb i))))
    let v := res.foldl (fun v p => if p.2 then setBit v p.1 else clrBit v p.1) (getM x d)
    putFlags (b2n (en.any (fun i => sNan f (la i) || sNan f (lb i)))) (putM d v x)) s)

/-- VSEL: lane i of D = lane i of A where m[M] bit i is 1, else lane i of B; lane bits move as they are (R89). -/
def execVsel (shop bench d a b c m fmt : Nat) (s : State) : Res :=
  .next (issueReg shop bench (regs32 [d, a, b] && zeros [c] && decide (m < 8 ∧ fmt < 4)) [] [a, b, d] (fun x =>
    let w := laneW fmt
    putV d (putLanes 0 w ((List.range (lanes fmt)).map (fun i =>
      (i, laneAt (if bitOf (getM x m) i then getV x a else getV x b) w i)))) x) s)

/-- VPERM: lane i of D = lane j of A, where j is the low log₂(lanes) bits of lane i of B (R89). -/
def execVperm (shop bench d a b c m fmt : Nat) (s : State) : Res :=
  .next (issueReg shop bench (regs32 [d, a, b] && zeros [c] && decide (m < 8 ∧ fmt < 4)) [] [a, b, d] (fun x =>
    let w := laneW fmt
    putV d (putLanes (getV x d) w (((List.range (lanes fmt)).filter (bitOf (getM x m))).map (fun i =>
      (i, laneAt (getV x a) w (laneAt (getV x b) w i % lanes fmt))))) x) s)

/-- RNG: eight words of the generator, keyed by scalar A, lane i at count B + i (R275, Table 11.2). -/
def execRng (shop bench d a b c m fmt : Nat) (s : State) : Res :=
  .next (issueReg shop bench (regs32 [d, a, b] && zeros [c, fmt] && decide (m < 8)) [a, b] [d] (fun x =>
    putV d (putLanes (getV x d) 32 (((List.range 8).filter (bitOf (getM x m))).map (fun i =>
      let n := (getS x b + i) % 2 ^ 64
      (i, philoxX0 (getS x a) (n % 2 ^ 32) (n / 2 ^ 32) 1 0)))) x) s)

/-! ### Reductions (R92) -/

/-- The fixed tree of eight lanes, lanes that are absent contributing nothing. -/
def tree8 (add : Nat → Nat → Nat) (l : List (Option Nat)) : Option Nat :=
  let j := fun (p q : Option Nat) => match p, q with
    | some u, some v => some (add u v)
    | some u, none => some u
    | none, q => q
  let g := fun (i : Nat) => (l[i]?).getD none
  j (j (j (g 0) (g 1)) (j (g 2) (g 3))) (j (j (g 4) (g 5)) (j (g 6) (g 7)))

/-- The sum of FP32 lanes with its flags: each addition is rounded by RMODE. -/
def sumF32 (x : BenchSt) (l : List (Option Nat)) : Nat × Nat :=
  let enc := fun (u : Nat) => u
  let r := tree8 (fun p q =>
    let o := laneOp 0 x .fp32 .fp32 (p % 2 ^ 32) (q % 2 ^ 32) 0
    o.1 + ((p / 2 ^ 32) ||| (q / 2 ^ 32) ||| o.2) * 2 ^ 32) (l.map (fun o => o.map enc))
  ((r.getD 0) % 2 ^ 32, (r.getD 0) / 2 ^ 32)

/-- The reduction of the enabled lanes of vector A as FP32, and its flags. -/
def reduceVec (x : BenchSt) (a c m fmt : Nat) : Nat × Nat :=
  let f := laneFmt fmt
  let en := (List.range (lanes fmt)).filter (bitOf (getM x m))
  let code := fun (i : Nat) => laneAt (getV x a) (laneW fmt) i
  let vals := en.map (fun i => operand (bFtz x) f (code i))
  let snan := b2n (en.any (fun i => sNan f (code i)))
  if c = 0 then
    if fmt = 0 then
      let r := sumF32 x ((List.range 8).map (fun i => if bitOf (getM x m) i then some (code i) else none))
      (r.1, r.2 ||| snan)
    else
      let r := bEncode .fp32 (bRmode x) (bFtz x) (match vals with
        | [] => .fin false 0 0
        | v :: t => t.foldl (addR (bRmode x)) v)
      let nv := vals.any (fun v => decide (v = .inf true)) && vals.any (fun v => decide (v = .inf false))
      (r.1, r.2 ||| snan ||| b2n nv)
  else match vals with
    | [] => (Config.openResult 2 (getV x a) c % 2 ^ 32, 0)
    | v :: t => (encodeFloat .fp32 .rne true false (t.foldl (if c = 1 then maxV else minV) v), snan)

/-- VRED: scalar D = the reduction of vector A as FP32: C = 0 sum, 1 max, 2 min. With no lane enabled the sum is +0, and a max
or min has no stated result (R92, log entry 5, DESIGN CHOICE). -/
def execVred (shop bench d a b c m fmt : Nat) (s : State) : Res :=
  .next (issueReg shop bench (regs32 [d, a] && zeros [b] && decide (c < 3 ∧ m < 8 ∧ fmt < 4)) [d] [a] (fun x =>
    let r := reduceVec x a c m fmt
    putFlags r.2 (putS d r.1 x)) s)

/-! ### VCVT (R90, R91) -/

/-- Widths of a VCVT: elements N, and bytes of the narrow side. -/
def cvtN (fs fd : Fmt) : Nat := let w := max (fmtBits fs) (fmtBits fd); 256 / (if w = 6 then 8 else w)
def cvtSize (fs fd : Fmt) : Nat := cvtN fs fd * min (fmtBits fs) (fmtBits fd) / 8

/-- May the part be taken (R90)? -/
def cvtPartOk (fs fd : Fmt) (part : Nat) : Bool :=
  if fmtBits fs = fmtBits fd then part == 0 else decide (part * cvtSize fs fd + cvtSize fs fd ≤ 32)

/-- The register's 32 bytes. -/
def vecBytes (v : Nat) : List Byte := leBytes 32 v

/-- One element's conversion: its code, the flags, and whether it counts a format event. -/
def cvtElem (x : BenchSt) (fs fd : Fmt) (i c : Nat) : Nat × Nat × Bool :=
  let ctl := cvtOfBits (bCvt x)
  let v := decodeElem fs c
  let wide := fmtHolds fd fs
  let rnd := if ctl.rmode = 2 then srRandom x.seed (x.bsridx.toNat + i) else 0
  let ctl1 : CvtCtl := if wide then ⟨0, true, false⟩ else ctl
  let code := convertTo fd ctl1 rnd v
  let back := decodeElem fd code
  let fl := match v with
    | .nan => 0
    | .inf _ => (match back with | .inf _ => 0 | _ => 32)
    | .fin n m e =>
      if eqV back (.fin n m e) then 0
      else match back with
        | .inf _ => 4 + 16
        | .fin _ p q =>
          let i := roundInt (cvtRnd ctl1 rnd) n m e
          let w := fmtBits fd
          let sat := if fmtFloat fd then ltV (decodeFloat fd (maxCode fd)) (.fin false m e)
            else decide (clampInt (-2 ^ (w - 1)) (2 ^ (w - 1) - 1) i ≠ i)
          let tiny := fmtFloat fd && (decide (p = 0) || dyLt p q 1 (1 - (fmtBias fd : Int)))
          16 + (if sat then 32 else 0) + (if tiny then 8 else 0)
        | .nan => 0
  (code, fl, !wide && convertCounts fd ctl v)

/-- A VCVT's 32 destination bytes, its flags and the format events that it counts. -/
def cvtVec (x : BenchSt) (d a : Nat) (fs fd : Fmt) (part m : Nat) : Nat × Nat × Nat :=
  let widen := decide (fmtBits fs < fmtBits fd)
  let off := part * cvtSize fs fd
  let sb := (vecBytes (getV x a)).drop (if widen then off else 0)
  let db := (vecBytes (getV x d)).drop (if widen then 0 else off)
  let res := (List.range (cvtN fs fd)).map (fun i =>
    if bitOf (getM x m) (i % 32) then cvtElem x fs fd i (elemCode fs sb i) else (elemCode fd db i, 0, false))
  let bytes := packElems fd (res.map Prod.fst)
  let out := if widen then (bytes ++ List.replicate 32 0).take 32 else spliceBytes (vecBytes (getV x d)) off bytes
  (ofLeBytes out, (res.map (fun r => r.2.1)).foldl orMask 0, (res.filter (fun r => r.2.2)).length)

/-- VCVT: N elements from one side's packing to the other's (R90, R91). -/
def execVcvt (shop bench d a src dst part m : Nat) (s : State) : Res :=
  let fs := (codeFmt src).getD .fp32
  let fd := (codeFmt dst).getD .fp32
  .next (issue shop bench (regs32 [d, a] && decide (src < 11 ∧ dst < 11 ∧ part < 4 ∧ m < 8) && cvtPartOk fs fd part) [] [a, d]
    (fun k x s =>
      let r := cvtVec x d a fs fd part m
      let sr := !fmtHolds fd fs && bCvt x % 4 == 2
      modBench k (fun y => benchNext (putFlags r.2.1
        { putV d r.1 y with bsridx := if sr then y.bsridx + BitVec.ofNat 64 (cvtN fs fd) else y.bsridx })) (fmtEvents shop r.2.2 s)) s)

end Sys2Proof.Machine
end

