-- ==== Sys2Proof/Machine/Engines.lean ====
section
/-! DEFINITION. What the load, store and transform engines of a shop do with the command they run (R62, R124 to R125, R146 to
R152, R221, R268). Each command acts on the engine's running command of its opcode; with none it changes nothing (log entry
10). -/

namespace Sys2Proof.Machine

/-- Send the requests of a run that reads another device, once. -/
def askRemote (shop eng op : Nat) (r : Run) (d a len : Nat) (s : State) : State :=
  if r.asked then s
  else
    let s1 := readRemote d a len r.cmd.tenant r.cmd.ctx (.engine shop eng) s
    modRun shop eng op (fun r => { r with asked := true, need := newReqs s s1 }) s1

/-- A run's refused or lost access ends its command (R409, R421). -/
def runRefused (shop : Nat) (r : Run) (s : State) : State :=
  match r.refused with
  | some code => cmdFault shop r.cmd code 0 s
  | none => s

/-- LOAD (R62, R124): copy LENGTH bytes from SRC to the same offset of every target's stockroom. A poisoned source sector is
not written, and is a POISON fault; a target that has been marked absent is left out. -/
def loadRun (shop : Nat) (r : Run) (s : State) : State :=
  let b := r.cmd.body
  let src := bf b 0 63 0
  let len := bf b 1 41 21
  let dst := bf b 1 20 0
  if r.refused.isSome then runRefused shop r s
  else match sourceBytes s r src len with
    | (none, s1) => match remoteOf s r.cmd.tenant src with
      | some (d, a) => askRemote shop 0 1 r d a len s
      | none => s1
    | (some bytes, s1) =>
      let put := fun (s : State) (t : Nat) =>
        if winOk s r.cmd.ctx t dst len then
          writeKeys ((sectorClean src bytes).map (fun p => (roomAddr t dst + p.1, p.2))) s
        else s
      let s2 := portBytes shop len ((loadTargets s shop b).foldl put s1)
      if bytes.any (fun p => p.2) then cmdFault shop r.cmd 6 0 s2 else runDone shop 0 1 s2

def execLoad (shop : Nat) (s : State) : Res :=
  .next (match activeRun s shop 0 1 with
    | some r => loadRun shop r s
    | none => s)

/-- One block of a LOAD_PLANE: its expanded elements and header go to the targets. The state and a fault code: 4 where its
format is wider than EXPFMT, 3 or 5 where it lies outside the stockroom or its windows, 6 where its planes hold poison. -/
def loadBlock (shop : Nat) (r : Run) (bytes : List Byte) (bad : List Nat) (g : Segment) (j idx : Nat) (s : State) : State × Nat :=
  let b := r.cmd.body
  let f := (codeFmt (bf b 1 45 42)).getD .fp32
  let h := g.headers.getD j 0
  let narrow := planeFormat (bitsOf h 6 3) (h % 8 + 1)
  let dst := bf b 1 20 0 + idx * elemBytes f 256
  let sdst := bf b 4 20 0 + idx * 16
  let targets := loadTargets s shop b
  let code := firstCode (targets.flatMap (fun t => [rangeCode s r.cmd.ctx t dst (elemBytes f 256), rangeCode s r.cmd.ctx t sdst 16]))
  let from_ := g.off + blockOffset g j
  let poisoned := bad.any (fun i => decide (from_ ≤ i ∧ i < from_ + 32 * (h % 8 + 1)))
  if code ≠ 0 then (s, code)
  else if planeHeaderOk h && !fmtHolds f narrow then (s, 4)
  else if poisoned then (s, 6)
  else
    let vals := expandBlock h (blockPlanes bytes g j)
    let (codes, k) := convertList f 0 0 (vals.map (fun v => (v, 0)))
    let s1 := targets.foldl (fun s t => roomWrite t sdst (leBytes 16 h) (roomWrite t dst (packElems f codes) s)) (fmtEvents shop k s)
    (if planeHeaderOk h then s1
     else { s1 with ras := { s1.ras with fmtErrors := (unitWord 2 shop 0, bf b 0 63 0 + g.off + 16 * j) :: s1.ras.fmtErrors } }, 0)

/-- The blocks of the parsed segments in order, stopping at the first fault. -/
def loadBlocks (shop : Nat) (r : Run) (bytes : List Byte) (bad : List Nat) :
    List (Segment × Nat) → Nat → State → State × Nat
  | [], _, s => (s, 0)
  | (g, j) :: t, idx, s =>
    let hdrBad := bad.any (fun i => decide (g.off ≤ i ∧ i < g.off + 1024))
    let (s1, c) := if hdrBad then (s, 6) else loadBlock shop r bytes bad g j idx s
    if c ≠ 0 then (s1, c) else loadBlocks shop r bytes bad t (idx + 1) s1

/-- LOAD_PLANE (R146, R49): whole segments are read, their blocks expanded to DST and their headers copied to SCALEDST. Segment
lengths that do not add up to LENGTH are a FORMAT fault; blocks before the mismatch stay. -/
def loadPlaneRun (shop : Nat) (r : Run) (s : State) : State :=
  let b := r.cmd.body
  let src := bf b 0 63 0
  let len := bf b 1 41 21
  if r.refused.isSome then runRefused shop r s
  else match sourceBytes s r src len with
    | (none, s1) => match remoteOf s r.cmd.tenant src with
      | some (d, a) => askRemote shop 0 2 r d a len s
      | none => s1
    | (some l, s1) =>
      let bytes := l.map Prod.fst
      let bad := (l.zipIdx.filter (fun p => p.1.2)).map Prod.snd
      let s1 := portBytes shop l.length s1
      let (segs, ok) := segmentsOf bytes (len / 1024 + 1) 0
      let todo := segs.flatMap (fun g => (List.range g.headers.length).map (fun j => (g, j)))
      let (s2, c) := loadBlocks shop r bytes bad todo 0 s1
      if c ≠ 0 then cmdFault shop r.cmd c 0 s2
      else if !ok then cmdFault shop r.cmd 4 0 s2
      else runDone shop 0 2 s2

def execLoadPlane (shop : Nat) (s : State) : Res :=
  .next (match activeRun s shop 0 2 with
    | some r => loadPlaneRun shop r s
    | none => s)

/-! ### STORE and STORE_KV -/

/-- STORE (R124): ELEMENTS source elements are converted, scaled first when SCALED, and written to DST: memory, another
device, host memory, a reduction alias or a selector row. Destination sectors that a poisoned source line touches are not
written, and the poison is a POISON fault. -/
def storeRun (shop : Nat) (r : Run) (s : State) : State :=
  let b := r.cmd.body
  let c := r.cmd
  let dst := bf b 0 63 0
  let src := bf b 1 20 0
  let e := bf b 1 47 21
  let fs := (codeFmt (bf b 1 51 48)).getD .fp32
  let fd := (codeFmt (bf b 1 55 52)).getD .fp32
  if r.refused.isSome then runRefused shop r s
  else if r.asked then (if r.need.isEmpty then runDone shop 3 0x30 s else s)
  else if homeInReset s (resolve s c.tenant dst) then retried s
  else
    let raw := roomRead s shop src (elemBytes fs e)
    let scale := ofF32 (bf b 2 31 0)
    let val := fun (i : Nat) =>
      let v := decodeElem fs (elemCode fs raw i)
      if bitOf (bf b 1 56 56) 0 then mulV v scale else v
    let (codes, k) := convertList fd c.cvt c.seed ((List.range e).map (fun i => (val i, bf b 3 39 0 + i)))
    let out := packElems fd codes
    let badElem := fun (i : Nat) => roomPoison s shop (src + i * fmtBits fs / 8) (max 1 (fmtBits fs / 8))
    let anyBad := roomPoison s shop src (elemBytes fs e)
    let marks := out.zipIdx.map (fun p => (p.1, anyBad && badElem (p.2 * 8 / fmtBits fd)))
    let s1 := portBytes shop out.length (fmtEvents shop k s)
    let finish := fun (s : State) => if anyBad then cmdFault shop c 6 0 s else runDone shop 3 0x30 s
    match resolve s c.tenant dst with
    | .remote d a =>
      let slot := (a - 0x0C0000000000) / 4194304
      let s2 := if 0x0C0000000000 ≤ a ∧ a < 0x0C0010000000 then
          (match slotOrder s c.ctx slot with
           | some o => writeRemoteAs 6 o d a out c.tenant c.ctx (.engine shop 3) s1
           | none => writeRemote d a out c.tenant c.ctx (.engine shop 3) s1)
        else writeRemote d a out c.tenant c.ctx (.engine shop 3) s1
      if anyBad then cmdFault shop c 6 0 s1
      else modRun shop 3 0x30 (fun r => { r with asked := true, need := newReqs s1 s2 }) s2
    | .selector off =>
      if !apertureOk s c.ctx off (4 * e) then cmdFault shop c 5 0 s1
      else finish (if anyBad then s1 else apertureStore c.ctx off codes false s1)
    | _ =>
      if anyBad then
        finish ((cleanSectors dst marks).foldl (fun s p => writeCtx c.tenant (dst + p.1) p.2 s) s1)
      else finish (writeCtx c.tenant dst out s1)

def execStore (shop : Nat) (s : State) : Res :=
  .next (match activeRun s shop 3 0x30 with
    | some r => storeRun shop r s
    | none => s)

/-- The order that a STORE_KV names (R221): a Table 5.11 code where it may not. -/
def storeKvOrder (s : State) (c : Cmd) : Nat ⊕ Nat :=
  let b := c.body
  let n := if bf b 2 37 37 = 1 then slotOrder s c.ctx (bf b 2 5 0) else some (bf b 2 15 0)
  match n with
  | none => .inl 5
  | some o =>
    let bound := ((ctxOf s c.ctx).map (fun x => x.slots.contains o)).getD false
    if !bound || decide (c.tenant ≠ some (orderOf s o).tenant) then .inl 5 else .inr o

/-- STORE_KV (R221): TOKENS rows are converted and written as key or value rows of one layer and head; rows of other members
go to them over Balis. -/
def storeKvRun (shop : Nat) (r : Run) (s : State) : State :=
  let b := r.cmd.body
  let c := r.cmd
  let p0 := bf b 0 31 0
  let src := bf b 1 20 0
  let tokens := bf b 1 33 21
  let d := bf b 1 43 34
  let fs := (codeFmt (bf b 1 47 44)).getD .fp32
  let fd := (codeFmt (bf b 1 51 48)).getD .fp32
  let l := bf b 2 27 16
  let h := bf b 2 35 28
  let kvSel := bf b 2 36 36
  if r.refused.isSome then runRefused shop r s
  else if r.asked then (if r.need.isEmpty then runDone shop 3 0x31 s else s)
  else match storeKvOrder s c with
    | .inl code => cmdFault shop c code 0 s
    | .inr o =>
      match kvCheck s o l h p0 tokens d (bf b 1 47 44) (bf b 1 51 48), orderKv s o with
      | 0, some kv =>
        let raw := roomRead s shop src (elemBytes fs (tokens * d))
        let row := fun (t : Nat) => convertList fd c.cvt c.seed ((List.range d).map (fun i =>
          (decodeElem fs (elemCode fs raw (t * d + i)), kvElemIndex kv l h (p0 + t) kvSel i)))
        let bad := fun (t : Nat) => roomPoison s shop (src + t * d * fmtBits fs / 8) (d * fmtBits fs / 8)
        let events := ((List.range tokens).map (fun t => (row t).2)).sum
        let s1 := (List.range tokens).foldl (fun s t => if bad t then s
          else placeKvRow o l h (p0 + t) kvSel (packElems fd (row t).1) c.tenant c.ctx (.engine shop 3) s) (portBytes shop (tokens * d * fmtBits fd / 8) (fmtEvents shop events s))
        let ids := newReqs s s1
        if (List.range tokens).any bad then cmdFault shop c 6 0 s1
        else if ids.isEmpty then runDone shop 3 0x31 s1
        else modRun shop 3 0x31 (fun r => { r with asked := true, need := ids }) s1
      | code, _ => cmdFault shop c code 0 s

def execStoreKv (shop : Nat) (s : State) : Res :=
  .next (match activeRun s shop 3 0x31 with
    | some r => storeKvRun shop r s
    | none => s)

/-! ### The transform engine -/

/-- A layout descriptor read from its words (Table 6.5). -/
structure Layout where
  rank : Nat
  oob : Nat
  idxfmt : Nat
  gdim : Nat
  revdim : Nat
  rev : Bool
  rotdim : Nat
  rot : Bool
  rotamt : Nat
  ext : List Nat
  sstr : List Nat
  dstr : List Nat
  sext : Nat
  reserved : Bool
deriving DecidableEq, Repr

/-- The descriptor of eight words. -/
def layoutOf (w : List Nat) : Layout :=
  let q := fun (i : Nat) => (w[i]?).getD 0
  { rank := bitsOf (q 0) 1 0 + 1, oob := bitsOf (q 0) 3 2, idxfmt := bitsOf (q 0) 5 4, gdim := bitsOf (q 0) 7 6
    revdim := bitsOf (q 0) 9 8, rev := bitOf (q 0) 10, rotdim := bitsOf (q 0) 12 11, rot := bitOf (q 0) 13
    rotamt := bitsOf (q 0) 63 32
    ext := (List.range 4).map (fun i => bitsOf (q 1) (16 * i + 15) (16 * i))
    sstr := (List.range 4).map (fun i => bitsOf (q (2 + i / 2)) (32 * (i % 2) + 31) (32 * (i % 2)))
    dstr := (List.range 4).map (fun i => bitsOf (q (4 + i / 2)) (32 * (i % 2) + 31) (32 * (i % 2)))
    sext := bitsOf (q 6) 31 0
    reserved := bitsOf (q 0) 31 14 != 0 || bitsOf (q 6) 63 32 != 0 || q 7 != 0 }

/-- Coordinates of a view, in ascending order, dimension 0 outermost. -/
def coords : List Nat → List (List Nat)
  | [] => [[]]
  | e :: t => (List.range e).flatMap (fun i => (coords t).map (fun x => i :: x))

/-- Element offset of a coordinate under strides. -/
def strideDot (x str : List Nat) : Nat := ((x.zip str).map (fun p => p.1 * p.2)).sum

/-- Reversal, then rotation, of a coordinate (R148). -/
def revRot (y : Layout) (x : List Nat) : List Nat :=
  let e := fun (d : Nat) => (y.ext[d]?).getD 0
  let x1 := if y.rev then x.modify y.revdim (fun i => e y.revdim - 1 - i) else x
  if y.rot then x1.modify y.rotdim (fun i => (i + y.rotamt) % e y.rotdim) else x1

/-- Coordinate `x` with one dimension replaced. -/
def withDim (x : List Nat) (d i : Nat) : List Nat := x.set d i

/-- An index as the policy reads it: none is skipped or zero (R150). -/
def policyIdx (y : Layout) (i : Int) : Option Nat :=
  if 0 ≤ i ∧ i < y.sext then some i.toNat
  else match y.oob with
    | 2 => some (if i < 0 then 0 else y.sext - 1)
    | 3 => some (i % (y.sext : Int)).toNat
    | _ => none

/-- A move of the transform: source element (none: a zero is written) and destination element. -/
abbrev Move := Option Nat × Nat

/-- The moves of a transform: `op` 0x40, 0x41 or 0x42, and the index tensor. -/
def movesOf (op : Nat) (y : Layout) (idx : List Int) : List Move :=
  let v := y.ext.take y.rank
  (coords v).filterMap (fun x =>
    let g := (x[y.gdim]?).getD 0
    let i := policyIdx y ((idx[g]?).getD 0)
    match op with
    | 0x41 => some (i.map (fun i => strideDot (withDim x y.gdim i) y.sstr), strideDot (revRot y x) y.dstr)
    | 0x42 => i.map (fun i => (some (strideDot x y.sstr), strideDot (withDim (revRot y x) y.gdim i) y.dstr))
    | _ => some (some (strideDot x y.sstr), strideDot (revRot y x) y.dstr))

/-- First and last byte + 1 of the elements of a format at element offsets from a base. -/
def byteSpan (f : Fmt) (base : Nat) (offs : List Nat) : Nat × Nat :=
  let b := fmtBits f
  let lo := offs.foldl min ((offs.headD 0))
  let hi := offs.foldl max 0
  match b with
  | 4 => (base + lo / 2, base + hi / 2 + 1)
  | 6 => (base + lo / 4 * 3, base + hi / 4 * 3 + 3)
  | _ => (base + lo * (b / 8), base + (hi + 1) * (b / 8))

/-- Offsets that strides can reach: the corners of the view. -/
def spanOffs (ext str : List Nat) : List Nat := [0, ((ext.zip str).map (fun p => (p.1 - 1) * p.2)).sum]

/-- Do two half-open ranges overlap? -/
def overlap (a b : Nat × Nat) : Bool := decide (a.1 < b.2 ∧ b.1 < a.2)

/-- Write one element's code, keeping the others of its byte or group (R152). -/
def putElem (n : Nat) (f : Fmt) (base off code : Nat) (s : State) : State :=
  match fmtBits f with
  | 4 =>
    let a := base + off / 2
    let old := (keyByte s (roomAddr n a)).toNat
    roomWrite n a (leBytes 1 (if off % 2 = 0 then setBits old 3 0 code else setBits old 7 4 code)) s
  | 6 =>
    let a := base + off / 4 * 3
    let old := keyWord s (roomAddr n a) 3
    roomWrite n a (leBytes 3 (setBits old (6 * (off % 4) + 5) (6 * (off % 4)) code)) s
  | w => roomWrite n (base + off * (w / 8)) (leBytes (w / 8) code) s

/-- The layout descriptor of a transform command, and its format. -/
def transformLayout (s : State) (shop : Nat) (r : Run) : Layout := layoutOf (layoutWords s shop (bf r.cmd.body 1 20 0))

def transformFmt (r : Run) : Fmt := (codeFmt (bf r.cmd.body 2 30 27)).getD .fp32

/-- Byte ranges that a transform reads, writes and takes its indices from. -/
def transformRanges (s : State) (shop op : Nat) (r : Run) : (Nat × Nat) × (Nat × Nat) × (Nat × Nat) :=
  let b := r.cmd.body
  let y := transformLayout s shop r
  let v := y.ext.take y.rank
  let f := transformFmt r
  let sv := if op = 0x41 then v.set y.gdim y.sext else v
  let dv := if op = 0x42 then v.set y.gdim y.sext else v
  let isz := if y.idxfmt = 0 then 4 else 2
  (byteSpan f (bf b 0 20 0) (spanOffs sv y.sstr), byteSpan f (bf b 0 41 21) (spanOffs dv y.dstr),
   (bf b 0 62 42, bf b 0 62 42 + (y.ext[y.gdim]?).getD 0 * isz))

/-- The index tensor of a gather or scatter (R149). -/
def transformIdx (s : State) (shop op : Nat) (r : Run) : List Int :=
  let y := transformLayout s shop r
  let isz := if y.idxfmt = 0 then 4 else 2
  if op ≠ 0x40 then (List.range ((y.ext[y.gdim]?).getD 0)).map (fun i =>
    signedOf (8 * isz) (ofLeBytes (roomRead s shop (bf r.cmd.body 0 62 42 + i * isz) isz))) else []

/-- Indices outside the source extent (R150). -/
def transformOob (s : State) (shop op : Nat) (r : Run) : Nat :=
  ((transformIdx s shop op r).filter (fun (i : Int) => decide (i < 0 ∨ i ≥ ((transformLayout s shop r).sext : Int)))).length

/-- The checks of R150 and R151: a Table 5.11 code, 0 when the transform may run. -/
def transformCode (s : State) (shop op : Nat) (r : Run) : Nat :=
  let b := r.cmd.body
  let c := r.cmd
  let ld := bf b 1 20 0
  let y := transformLayout s shop r
  let v := y.ext.take y.rank
  let gather := decide (op ≠ 0x40)
  let (sr, dr, ir) := transformRanges s shop op r
  if (codeFmt (bf b 2 30 27)).isNone then 4
  else
    let shapeBad := y.reserved || (y.ext.drop y.rank).any (fun e => e != 0) || v.any (fun e => e == 0)
      || bf b 2 26 0 != v.foldl (· * ·) 1
      || (y.rev && decide (y.revdim ≥ y.rank)) || (y.rot && decide (y.rotdim ≥ y.rank))
      || (y.rot && decide (y.rotamt ≥ (y.ext[y.rotdim]?).getD 0))
      || (gather && (decide (y.sext = 0) || decide (y.idxfmt ≥ 2) || decide (y.gdim ≥ y.rank)))
      || (!gather && y.sext != 0)
      || (op == 0x42 && ((y.rev && y.revdim == y.gdim) || (y.rot && y.rotdim == y.gdim)))
      || decide (sr.2 > 0x180000 ∨ dr.2 > 0x180000 ∨ ld + 64 > 0x180000) || (gather && decide (ir.2 > 0x180000))
      || overlap dr sr || overlap dr (ld, ld + 64) || (gather && overlap dr ir)
    if shapeBad then 3
    else if !(winOk s c.ctx shop ld 64 && winOk s c.ctx shop sr.1 (sr.2 - sr.1) && winOk s c.ctx shop dr.1 (dr.2 - dr.1)
        && (!gather || winOk s c.ctx shop ir.1 (ir.2 - ir.1))) then 5
    else if gather && decide (transformOob s shop op r > 0) && y.oob == 0 then 3
    else if roomPoison s shop ld 64 || (gather && roomPoison s shop ir.1 (ir.2 - ir.1)) then 6
    else 0

/-- The moves of a transform command, in ascending order of the view. -/
def transformMoves (s : State) (shop op : Nat) (r : Run) : List Move :=
  movesOf op (transformLayout s shop r) (transformIdx s shop op r)

/-- Does a source element lie on a poisoned line? -/
def elemPoison (s : State) (shop : Nat) (f : Fmt) (base off : Nat) : Bool :=
  let p := byteSpan f base [off]; roomPoison s shop p.1 (p.2 - p.1)

/-- A transform command (R147 to R152): its checks, then every move; elements of poisoned lines are not written, and are a POISON fault. -/
def transformRun (shop op : Nat) (r : Run) (s : State) : State :=
  let src := bf r.cmd.body 0 20 0
  let dst := bf r.cmd.body 0 41 21
  let f := transformFmt r
  match transformCode s shop op r with
  | 0 =>
    let raw := roomRead s shop src ((transformRanges s shop op r).1.2 - src)
    let moves := transformMoves s shop op r
    let bad := moves.any (fun m => (m.1.map (elemPoison s shop f src)).getD false)
    let s1 := moves.foldl (fun s1 m => match m.1 with
      | some o => if elemPoison s shop f src o then s1 else putElem shop f dst m.2 (elemCode f raw o) s1
      | none => putElem shop f dst m.2 0 s1) s
    let oob := transformOob s shop op r
    let s2 := if oob = 0 then s1 else bump (shopC shop 0x188) oob s1
    if bad then cmdFault shop r.cmd 6 0 s2 else runDone shop 4 op s2
  | code => cmdFault shop r.cmd code 0 s

/-- Cycles of a transform go to SHOP_XFORM_BUSY. -/
def transformOp (shop op cycles : Nat) (s : State) : State :=
  match activeRun s shop 4 op with
  | some r => transformRun shop op r (bump (shopC shop 0x190) cycles s)
  | none => s

/-- XLAYOUT (R148). -/
def execXlayout (shop cycles : Nat) (s : State) : Res := .next (transformOp shop 0x40 cycles s)

/-- XGATHER (R149, R150). -/
def execXgather (shop cycles : Nat) (s : State) : Res := .next (transformOp shop 0x41 cycles s)

/-- XSCATTER (R149, R150). -/
def execXscatter (shop cycles : Nat) (s : State) : Res := .next (transformOp shop 0x42 cycles s)

end Sys2Proof.Machine
end

