-- ==== Sys2Proof/Machine/RegView.lean ====
section
/-! DEFINITION. What a read of each register returns (chapter 22 and the field tables of the owning chapters): stored fields, and RO fields
computed from the state they show. -/

namespace Sys2Proof.Machine

/-! ### Words from fields -/

/-- A word from its fields: low bit, width, value. -/
def pack (l : List (Nat × Nat × Nat)) : Nat := (l.map (fun f => f.2.2 % 2 ^ f.2.1 * 2 ^ f.1)).sum

/-- A word with bit i set where a condition holds of i, for i below a bound. -/
def bitsWhere (n : Nat) (p : Nat → Bool) : Nat := ((List.range n).map (fun i => b2n (p i) * 2 ^ i)).sum

/-- The bank that a selector register gives a register behind it. -/
def regBank (s : State) (off : Nat) : Nat :=
  match off with
  | 0x100030 => rfield s 0x100028 11 0
  | 0x500038 => rfield s 0x500030 11 0
  | 0x600060 | 0x600068 | 0x600070 | 0x600078 => rfield s 0x600058 11 0
  | 0x1008018 => rfield s 0x1008010 11 0
  | 0x1008028 => rfield s 0x1008020 11 0
  | 0x1008038 => rfield s 0x1008030 15 0
  | _ => 0

/-- The key of a register's stored value: its offset and the bank selected. -/
def regKey (s : State) (off : Nat) : Nat := off + regBank s off * 2 ^ 32

/-- Is a register a counter latched at the ledger close (R546)? -/
def isCounter (blk o : Nat) : Bool :=
  if blk = 0 then decide (0x480 ≤ o ∧ o < 0x4C0)
  else decide (0x100 ≤ o ∧ o < 0x200) || (decide (blk = 9) && decide (0x8100 ≤ o ∧ o < 0x8138))

/-! ### GLB -/

/-- STAGE of GLB_BOOT_STATUS (Table 19.1): step 3 is shown while step 6 waits for the ports. -/
def shownStage (s : State) : Nat := if s.sys.stage = 6 ∧ portsSettled s = false then 3 else s.sys.stage

/-- GLB_IDENT (Table 22.4a); FW reads 0 before the end of step 1 and in FAILED with cause BOOT. -/
def identWord (s : State) : Nat :=
  let fw := if s.sys.stage ≤ 1 ∨ (s.sys.stage = 8 ∧ s.sys.cause = 1) then 0 else (tget ⟨false, 0⟩ s.sys.flash s.sys.slot).version
  pack [(0, 16, 0x800), (16, 8, 0xA1), (24, 8, 0x4C), (32, 16, fw)]

/-- GLB_RESET_STATUS (Table 19.6). -/
def resetStatus (s : State) : Nat :=
  let y := s.sys
  pack [(0, 3, y.lastPhase), (3, 2, y.lastScope), (5, 9, y.lastUnit), (14, 1, b2n y.done), (15, 1, b2n y.failed), (16, 1, b2n y.drainOut),
    (17, 4, bitsWhere 4 (unitInReset s 1)), (21, 12, bitsWhere 12 (unitInReset s 2)),
    (33, 9, (y.resets.filter (fun r => decide (r.scope = 0 ∧ r.phase ≠ 0))).length)]

/-- GLB_BOOT_STATUS (Table 19.7). -/
def bootStatus (s : State) : Nat :=
  let y := s.sys
  pack [(0, 4, shownStage s), (4, 4, y.cause), (8, 1, y.slot), (9, 1, b2n y.slotABad), (10, 2, y.origin), (32, 32, y.readyMs)]

/-- A tenant's tally range as last written, in tallies: base and count. -/
def rangeWritten (s : State) (t : Nat) : Nat × Nat :=
  ((s.tal.pend.filter (fun p => decide (p.1 = t))).getLast?.map Prod.snd).getD (tget (0, 0) s.tal.range t)

/-- GLB_TALLY_VALUE (Table 15.10). -/
def tallyView (s : State) (t : Nat) : Nat :=
  pack [(0, 32, (tallyOf s t).value.toNat), (32, 1, b2n (tallyOf s t).ovf), (33, 12, (tallyOwner s t).getD 0), (45, 1, b2n (tallyOwner s t).isSome),
    (46, 1, b2n (decide (65472 ≤ t))), (47, 1, b2n (s.tal.waits.any (fun w => decide (w.tally = t) && !w.satisfied)))]

def viewGlb (s : State) (o w : Nat) : Nat :=
  match o with
  | 0x0 => identWord s
  | 0x8 => capsWord s
  | 0x208 => resetStatus s
  | 0x210 => bootStatus s
  | 0x300 => s.sys.lockBits
  | 0x408 => let r := rangeWritten s (rfield s 0x400 11 0); pack [(0, 10, r.1 / 64), (10, 11, r.2 / 64)]
  | 0x418 => tallyView s (rfield s 0x410 15 0)
  | _ => w

/-! ### BELL and SCHED, HQ, PWR, THM -/

def viewBell (s : State) (o w : Nat) : Nat :=
  match o with
  | 0x8 => pack [(0, 7, s.sched.period), (7, 16, s.sched.ledger), (23, 1, b2n (s.sched.nextPeriod.isSome || s.sched.nextLedger.isSome))]
  | 0x10 => s.bell
  | 0x38 =>
    let n := fun (lc : Bool) => min 0xFFFF (s.sched.cands.filter (fun c => (c.lc == lc) && decide (waitingTiles c > 0))).length
    pack [(0, 16, n true), (16, 16, n false), (32, 1, b2n s.sched.short)]
  | _ => w

def viewHq (s : State) (o w : Nat) : Nat :=
  let t := rfield s 0x200010 12 0
  let r := ringOf s t
  match o with
  | 0x8 => pack [(0, 13, s.book.enabled.length), (13, 13, storeCount s),
      (26, 1, b2n (s.host.linkUp && !decide (s.host.width = 16 ∧ s.host.speed = 6))), (27, 5, s.host.width), (32, 3, s.host.speed)]
  | 0x18 => r.sqLog % 32 + r.sqBase / 4096 * 4096
  | 0x20 => r.eqLog % 32 + r.eqBase / 4096 * 4096
  | 0x28 => pack [(0, 20, r.pasid), (20, 1, b2n r.pasidEn), (21, 1, b2n r.started), (22, 1, b2n r.stopped)]
  | 0x30 => pack [(0, 32, r.memMax), (32, 32, if t < 4096 then memUsed s t else 0)]
  | 0x38 => pack [(0, 32, r.consumed), (32, 32, r.produced)]
  | _ => w

def viewPwr (s : State) (o w : Nat) : Nat :=
  if 0x10 ≤ o ∧ o < 0x30 then
    let q := (o - 0x10) / 8
    w % 2 ^ 16 + pack [(16, 6, quarterClock s q), (24, 6, quarterCeil s q), (32, 6, fitFloor s), (38, 1, b2n s.sched.clamped)]
  else match o with
    | 0x30 => pack [(0, 16, s.sched.budget), (16, 16, s.sched.standing / 1000), (32, 16, min Config.pFloorW 1900), (48, 8, s.sched.corr)]
    | 0x38 => pack [(0, 32, s.sched.lastMeasured), (32, 32, s.sched.lastCharged)]
    | _ => w

/-- THM_UNIT_STATUS (Table 14.11). -/
def unitStatus (s : State) : Nat :=
  let warn := fun (u : Nat) => (unitOf s u).warn
  let slow := fun (u : Nat) => (unitOf s u).slow || (unitOf s u).enforcing
  let enf := fun (u : Nat) => (unitOf s u).enforcing
  pack [(0, 12, bitsWhere 12 warn), (12, 12, bitsWhere 12 slow), (24, 12, bitsWhere 12 enf),
    (36, 4, bitsWhere 4 (fun q => warn (12 + q))), (40, 4, bitsWhere 4 (fun q => slow (12 + q))), (44, 4, bitsWhere 4 (fun q => enf (12 + q)))]

/-- Has a channel failed (Table 14.3)? -/
def chanFailed (s : State) (c : Nat) : Bool := chanEnabled s c && decide ((chanOf s c).state ≠ 0)

/-- THM_EXT_STATUS. -/
def extStatus (s : State) : Nat :=
  let u := fun (i : Nat) => unitOf s (16 + i)
  pack [(0, 16, bitsWhere 16 (fun i => (u i).warn)), (16, 16, bitsWhere 16 (fun i => (u i).slow || (u i).enforcing)),
    (32, 16, bitsWhere 16 (fun i => (u i).enforcing)), (48, 16, bitsWhere 16 (fun i => chanFailed s (40 + i)))]

/-- THM_FAIL. -/
def failStatus (s : State) : Nat := bitsWhere 40 (chanFailed s)

/-- THM_TRIP (Table 14.13). -/
def tripWord (s : State) : Nat :=
  match s.therm.trip with
  | some [cause, c, r, t] => pack [(0, 2, cause), (2, 6, c), (8, 16, r), (24, 1, b2n s.therm.tripFlashed), (32, 32, t)]
  | _ => 0

/-- THM_CHAN (Table 14.10). -/
def chanWord (s : State) (c : Nat) : Nat :=
  let x := chanOf s c
  pack [(0, 16, chanReading s c), (16, 2, if chanEnabled s c then x.state else 3), (18, 2, x.rate), (20, 3, unitLevel s (chanUnit c)), (24, 16, x.peak)]

def viewThm (s : State) (o w : Nat) : Nat :=
  let sh := rfield s 0x400040 3 0
  if 0x48 ≤ o ∧ o < 0x70 then bitsWhere 64 (fun i => decide ((o - 0x48) / 8 * 64 + i < 320) && decide ((shopOf s ((o - 0x48) / 8 * 64 + i)).shadow = sh))
  else match o with
    | 0x20 => chanWord s (rfield s 0x400018 5 0)
    | 0x28 => unitStatus s
    | 0x30 => extStatus s
    | 0x38 => failStatus s
    | 0x70 =>
      let a := fun (kind n : Nat) => tget 0 s.therm.allow (kind * 512 + n) / 1000000
      pack [(0, 20, min (a 4 sh) 0xFFFFF), (20, 20, min (a 2 sh) 0xFFFFF), (40, 24, min (a 1 (stackQuarter sh)) 0xFFFFFF)]
    | 0x78 => pack [(0, 16, s.therm.flashTemp), (16, 1, b2n s.therm.flashOpen), (17, 4, bitsWhere 4 (fuseOk s)), (21, 7, s.therm.held.length)]
    | 0x80 => tripWord s
    | _ => w

/-! ### PLC, OBK, TSL -/

/-- A placement-map entry as PLC_MAP_ENTRY shows it (Table 12.2). -/
def mapWord (e : Option MapEnt) : Nat :=
  match e with
  | none => 0
  | some e => pack [(0, 20, e.frame), (20, 4, e.stack), (24, 1, 1), (25, 1, b2n e.pinned), (26, 1, b2n e.migrating),
      (27, 4, if e.migrating then e.dest else 0), (31, 1, b2n e.stateCls), (32, 8, e.heat), (40, 12, e.tenant.getD 0), (52, 1, b2n e.tenant.isNone)]

/-- Whole degrees of a stack below its warning threshold; 0 at or above it. -/
def stackMargin (s : State) (n : Nat) : Nat := min 255 ((warnAt s n - unitTemp s n).toNat / 8)

def viewPlc (s : State) (o w : Nat) : Nat :=
  match o with
  | 0x8 => pack [(0, 17, (migrating s).length), (20, 12, bitsWhere 12 (fun n => (unitOf s n).warn)), (32, 12, bitsWhere 12 (stackLow s)),
      (44, 12, bitsWhere 12 (pinHot s))]
  | 0x18 => s.sys.mapShown
  | 0x28 =>
    let n := rfield s 0x500020 3 0
    pack [(0, 21, freeFrames s n), (21, 21, pinnedOn s n), (42, 8, stackMargin s n), (50, 3, (stackOf s n).step)]
  | _ => w

def viewObk (s : State) (o w : Nat) : Nat :=
  let t := rfield s 0x600058 11 0
  if 0x18 ≤ o ∧ o < 0x58 then (s.book.shown[(o - 0x18) / 8]?).getD 0
  else match o with
    | 0x8 =>
      let n := fun (st : Nat) => (s.book.orders.filter (fun p => decide (p.2.state = st))).length
      pack [(0, 17, 65536 - (s.book.orders.filter (fun p => decide (p.2.state ≠ 0))).length), (17, 17, n 6),
        (34, 21, (s.book.nodes.filter (fun p => p.2.isSome)).length), (55, 1, b2n (poolUsable s))]
    | 0x60 => w % 2 ^ 17 + bitsOf w 63 63 * 2 ^ 63 + pack [(32, 17, (tenantOrders s t).length)]
    | 0x68 => w % 2 ^ 32 + pack [(32, 32, framesUsed s t)]
    | 0x70 => w % 2 ^ 32 + pack [(32, 32, cellarUsed s t)]
    | 0x78 => w % 2 ^ 21 + pack [(32, 21, nodesUsed s t)]
    | 0x80 => if s.ready then nowMs s % 2 ^ 48 else 0
    | _ => w

def viewTsl (s : State) (o w : Nat) : Nat :=
  match o with
  | 0x8 => ((List.range 4).map (fun q => pack [(16 * q, 5, (selOf s q).rows.length), (16 * q + 5, 5, (selOf s q).maskQueue.length),
      (16 * q + 10, 1, b2n (selOf s q).absent)])).sum
  | 0x10 => pack [(0, 11, (s.grammars.filter (fun p => p.2.isSome)).length), (16, 17, (s.grammars.map (fun p => (p.2.map (fun g => g.frames.length)).getD 0)).sum)]
  | 0x20 =>
    let k := rfield s 0x700018 9 0
    match grammarOf s k with
    | none => 0
    | some g =>
      let users := (s.book.orders.filter (fun p => decide (p.2.state ≠ 0) && p.2.grammarEn && decide (p.2.grammar = k))).length
      pack [(0, 12, g.tenant), (12, 3, g.state), (16, 17, users), (33, 20, g.vocab)]
  | _ => w

/-! ### STK, BLS, FAR -/

def viewStk (s : State) (n o w : Nat) : Nat :=
  let x := stackOf s n
  let f := fulOf s n
  match o with
  | 0x0 => pack [(0, 4, n), (4, 2, stackQuarter n), (6, 2, if unitInReset s 2 n && decide (x.state = 0) then 2 else x.state),
      (8, 5, 16 - f.sparesUsed.length), (13, 10, f.absent.length)]
  | 0x10 => pack [(0, 3, x.step), (4, 2, x.refresh), (8, 8, x.temp), (16, 1, b2n x.sensorFail), (17, 15, x.mixed.length)]
  | 0x18 =>
    let mine := (s.mem.frames.filter (fun p => decide (p.1 / 2 ^ 20 = n))).map Prod.snd
    let held := mine.filter (fun y => decide (y.use ≠ .free))
    pack [(0, 21, (held.filter frameState).length), (21, 21, (held.filter (fun y => !frameState y)).length),
      (42, 21, (mine.filter (fun y => y.filling)).length)]
  | 0x20 => match f.run with
    | none => f.records.length % 64 * 2 ^ 39
    | some r =>
      pack [(0, 8, recSlot r.inv), (8, 1, 1), (9, 1, b2n (((ctxOf s (recCtx r.inv)).map (fun c => c.lc)).getD false)), (10, 16, recCtx r.inv),
        (26, 12, bitsOf (recWord r.inv 0) 43 32), (38, 1, b2n r.stopping), (39, 6, f.records.length)]
  | 0x28 => match f.fault with
    | some [code, sub, ctx, slot, i] =>
      pack [(0, 8, code), (8, 4, sub), (16, 16, ctx), (32, 8, slot), (40, 9, i), (49, 1, 1), (50, 1, b2n f.faultOver)]
    | _ => 0
  | 0x30 => pack [(0, 16, f.libVersion), (16, 32, f.libCrc), (48, 1, b2n f.libPending.isSome)]
  | _ => w

/-- A port's state as BLS_PORT_STATUS shows it: 0 while the port is not enabled. -/
def portShown (s : State) (n : Nat) : Nat := if portEn s n then (portOf s n).state else 0

def viewBls (s : State) (n o w : Nat) : Nat :=
  let p := portOf s n
  match o with
  | 0x8 => pack [(0, 3, portShown s n), (3, 9, p.pass), (12, 4, p.spare), (16, 12, p.peer), (28, 4, p.peerPort), (32, 16, p.latency)]
  | 0x18 =>
    let l := rfield s (blsC n 0x10) 3 0
    pack [(0, 1, b2n (portUp s n && bitOf p.pass l && decide (p.spare ≠ l) && !p.failed.contains l)), (1, 1, b2n (decide (p.spare = l))),
      (2, 1, b2n (p.failed.contains l)), (3, 1, b2n (bitOf p.lock l)), (32, 32, min (tget 0 p.errors l) 0xFFFFFFFF)]
  | 0x20 => match p.err with
    | some [typ, cause, dev, ten] => pack [(0, 5, typ), (5, 3, cause), (8, 12, dev), (20, 12, ten), (32, 1, 1), (33, 1, b2n p.errOver)]
    | _ => 0
  | 0x8000 => w % 2 ^ 12 + pack [(16, 12, s.bal.active)]
  | 0x8018 => w % 2 ^ 20 + bitsWhere 16 (fun q => bitOf w q && portUp s q) * 2 ^ 32
  | 0x8028 =>
    let g := rfield s 0x1008020 11 0
    let me := (groupMembers s g).contains (ownDevice s) && decide (g ≠ 0)
    w % 2 ^ 28 + bitsOf w 41 41 * 2 ^ 41 + pack [(28, 12, if me then memberIndex s g else 0), (40, 1, b2n me)]
  | 0x8040 => pack [(0, 48, s.bal.fabric), (48, 1, b2n s.bal.aligned)]
  | _ => w

def viewFar (s : State) (o w : Nat) : Nat :=
  if 0x20 ≤ o ∧ o < 0x40 then
    let f := farPort s ((o - 0x20) / 8)
    pack [(0, 3, f.state), (3, 5, f.width), (8, 3, f.speed), (12, 27, f.capacity)]
  else if o = 0x60 then
    let es := poolEntries s
    let total := (es.map (fun e => e.2.2)).sum
    let gone := ((unitsHeld s).filter (fun u => es.any (fun e => decide (e.1 = u.1 ∧ e.2.1 ≤ u.2 ∧ u.2 < e.2.1 + e.2.2)))).length
    pack [(0, 3, es.length), (3, 1, b2n (poolUsable s)), (4, 29, total - gone)]
  else w

/-! ### RAS, STW and BBD, ROLE, STAT, SHOP -/

def viewRas (s : State) (o w : Nat) : Nat :=
  let r := s.ras
  if 0x20 ≤ o ∧ o < 0x48 then (r.scrub.sums[(o - 0x20) / 8]?).getD 0
  else if 0x78 ≤ o ∧ o < 0xB8 then (r.shown[(o - 0x78) / 8]?).getD 0
  else match o with
    | 0x18 => pack [(2, 1, b2n (r.scrub.busy || r.scrub.requested)), (8, 32, r.scrub.seq)]
    | 0x50 =>
      let v := rget s 0x1400048
      let k := (bitsOf v 3 0 * 16 + bitsOf v 7 4) * 64 + bitsOf v 13 8
      let m := remapOf s k
      pack [(0, 4, m.fuse), (4, 4, m.rows.length), (8, 4, m.cols.length), (12, 4, remapFree s k), (16, 12, m.retired)]
    | 0x60 => ((List.range 4).map (fun p => (tget [] r.farRetired p).length % 2 ^ 13 * 2 ^ (13 * p))).sum
    | 0x68 => pack [(0, 32, r.seq), (32, 13, r.log.length), (45, 1, b2n r.pendingRead.isSome), (46, 17, r.nvLog.length), (63, 1, b2n r.bad)]
    | _ => w

/-- Is a bellboard source of the level kind (Table 20.3)? -/
def levelSource (n : Nat) : Bool := decide (n < 357) || (decide (359 ≤ n) && decide (n ≤ 414)) || (decide (424 ≤ n) && decide (n ≤ 431))

/-- Sources that can become pending: 433 to 511 and 1,023 never do (R522). -/
def sourceExists (n : Nat) : Bool := decide (n < 1023) && !(decide (433 ≤ n) && decide (n ≤ 511))

/-- Is a source pending (R522)? A level source is while its input is asserted and it is not active. -/
def bbdPending (s : State) (n : Nat) : Bool :=
  sourceExists n && (s.sys.bbdPend.contains n || (s.sys.bbdLevel.contains n && (tget none s.sys.bbdActive n).isNone))

/-- STW_LOCK_STATUS of a lock (Table 20.11). -/
def lockStatus (l : DevLock) : Nat :=
  pack [(0, 8, l.owner), (8, 24, l.epoch), (32, 7, l.staged.length), (39, 4, l.lastBroken)]

def viewStw (s : State) (o w : Nat) : Nat :=
  if 0x1000 ≤ o ∧ o < 0x1080 then bitsWhere 64 (fun i => bbdPending s ((o - 0x1000) / 8 * 64 + i))
  else if 0x1080 ≤ o ∧ o < 0x1100 then bitsWhere 64 (fun i => (tget none s.sys.bbdActive ((o - 0x1080) / 8 * 64 + i)).isSome)
  else match o with
    | 0x0 => pack [(0, 8, bitsWhere 8 (fun h => (stewardOf s h).present)), (8, 8, bitsWhere 8 (fun h => (stewardOf s h).halted.isSome)),
        (16, 8, bitsWhere 8 (fun h => (stewardOf s h).restarting)), (24, 3, s.sys.role.level)]
    | 0x10 => lockStatus (tget DevLock.reset s.sys.locks (rfield s 0x1600008 7 0))
    | _ => w

/-- ROLE_DEVICE_SERIAL, a maker fuse. -/
def deviceSerial : Nat := Config.deviceSerial % 2 ^ 64

def viewRole (s : State) (o w : Nat) : Nat :=
  let r := s.sys.role
  if 0x18 ≤ o ∧ o < 0x48 then (r.challenge[(o - 0x18) / 8]?).getD 0
  else if 0x78 ≤ o ∧ o < 0xB8 then (s.sys.auditShown[(o - 0x78) / 8]?).getD 0
  else match o with
    | 0x0 => pack [(0, 2, r.state), (2, 2, r.role), (4, 2, r.channel), (8, 8, r.rights), (16, 32, r.serial)]
    | 0x48 => pack [(0, 4, r.cause), (4, 1, b2n r.done)]
    | 0x58 => deviceSerial
    | 0x68 => pack [(0, 32, s.sys.auditSeq), (32, 15, s.therm.audit.length), (47, 7, (s.therm.held.filter (fun h => decide (h.kind = 1))).length)]
    | _ => w

/-- The units of a kind marked partial for the latched copies, as a mask from a first number. -/
def partialMask (s : State) (kind first n : Nat) : Nat := bitsWhere n (fun i => s.stat.partialUnits.contains (unitWord kind (first + i) 0))

def viewStat (s : State) (o w : Nat) : Nat :=
  let y := s.stat
  if 0x18 ≤ o ∧ o < 0x40 then partialMask s 2 ((o - 0x18) / 8 * 64) 64
  else if 0x50 ≤ o ∧ o < 0xA0 then (y.tval[(o - 0x50) / 8]?).getD 0
  else if 0xB0 ≤ o ∧ o < 0xD0 then (y.bval[(o - 0xB0) / 8]?).getD 0
  else match o with
    | 0x8 => pack [(0, 32, y.seq), (32, 1, b2n y.busy), (33, 16, y.bells), (49, 7, y.period), (56, 1, b2n y.sat)]
    | 0x10 => y.ms % 2 ^ 48
    | 0x40 => pack [(0, 12, partialMask s 4 0 12), (12, 4, partialMask s 1 0 4), (16, 4, partialMask s 9 0 4)]
    | 0xA8 => y.bellSeq
    | _ => w

/-- The physical position that serves a logical shop: its own, or its spare (Table 1.1). -/
def shopPhys (s : State) (n : Nat) : Nat := ((shopOf s n).spare).getD (84 * shopQuarter n + n % 80)

/-- A shop's state as SHOP_IDENT shows it: in reset while its own or its quarter's reset runs. -/
def shopShown (s : State) (n : Nat) : Nat :=
  if (unitInReset s 0 n || unitInReset s 1 (shopQuarter n)) && decide ((shopOf s n).state = 0) then 2 else (shopOf s n).state

def viewShop (s : State) (n o w : Nat) : Nat :=
  let x := shopOf s n
  let a := x.array
  match o with
  | 0x0 => pack [(0, 9, n), (9, 9, shopPhys s n), (18, 2, shopQuarter n), (20, 4, x.shadow), (24, 2, shopShown s n)]
  | 0x8 => pack [(0, 3, (a.rowsOff.filter (fun p => p.2)).length), (4, 3, (a.colsOff.filter (fun p => p.2)).length), (8, 3, a.softRows.length),
      (12, 3, a.softCols.length), (16, 8, a.lastRow), (24, 8, a.lastCol)]
  | 0x10 => pack [(0, 16, x.transient), (16, 8, x.hard), (24, 8, x.parity), (32, 1, b2n a.failed)]
  | 0x18 => pack [(0, 5, x.spareFree), (5, 9, ((List.range 256).filter (fun b => (benchOf s (n * 256 + b)).absent)).length), (14, 9, x.lastSpared)]
  | 0x20 => match x.benchFault with
    | some [code, bench, pc, ctx] => pack [(0, 4, code), (4, 8, bench), (12, 12, pc), (24, 16, ctx), (40, 1, 1), (41, 1, b2n x.benchOver)]
    | _ => 0
  | 0x28 => pack [(0, 16, x.fwVersion), (16, 32, x.fwCrc), (48, 1, b2n x.fwPending.isSome)]
  | 0x38 =>
    let b := fun (i : Nat) => (x.banks[i]?).getD SheetBank.reset
    pack [(0, 2, (b 0).st), (2, 2, (b 1).st), (4, 16, (b 0).ctx), (20, 16, (b 1).ctx), (36, 5, x.windows.length), (41, 5, x.preempted.length),
      (46, 2, (x.lists.filter (fun l => l.resident)).length)]
  | 0x40 => match x.fault with
    | some [code, sub, eng, c, templ, ticket] =>
      pack [(0, 8, code), (8, 4, sub), (12, 3, eng), (16, 16, c), (32, 5, templ), (37, 16, ticket), (53, 1, 1), (54, 1, b2n x.faultOver)]
    | _ => 0
  | 0x48 => ((List.range 5).map (fun e => (((x.engines[e]?).map (fun g => g.queue.length)).getD 0) % 1024 * 2 ^ (10 * e))).sum
  | _ => w

/-! ### One register -/

/-- The value of a block's register at an offset within it; `w` is the stored value. -/
def viewBlock (s : State) (blk win o w : Nat) : Nat :=
  match blk with
  | 0 => viewGlb s o w
  | 1 => viewBell s o w
  | 2 => viewHq s o w
  | 3 => viewPwr s o w
  | 4 => viewThm s o w
  | 5 => viewPlc s o w
  | 6 => viewObk s o w
  | 7 => viewTsl s o w
  | 8 => viewStk s win o w
  | 9 => viewBls s win o w
  | 10 => viewFar s o w
  | 11 => viewRas s o w
  | 12 => viewStw s o w
  | 13 => viewRole s o w
  | 14 => viewStat s o w
  | 15 => viewShop s win o w
  | _ => w

/-- The bits of WO fields, which read as zero (R5). -/
def readMask (fs : List FieldDef) : Nat :=
  ((fs.filter (fun f => decide (f.acc ≠ .wo))).map (fun f => 2 ^ (f.hi + 1) - 2 ^ f.lo)).sum

/-- The current value of the register at an 8-byte aligned offset of the physical function's BAR0; zero where none lies (R558). -/
def regValue (s : State) (off : Nat) : Nat :=
  match locate off with
  | none => 0
  | some (blk, win, o) =>
    if o = 0xF0 ∨ o = 0xF8 then rget s off
    else match findReg blk win o with
      | none => 0
      | some r =>
        if isCounter blk o then tget 0 s.regs.latched off
        else viewBlock s blk win o (rget s (regKey s off)) &&& readMask r.fields

/-! ### Reads (R8, R10, R558) -/

/-- The read side effect of a register: its RC fields take their reset values. BBD_CLAIM's is a claim, made elsewhere (R524). -/
def clearRc (off : Nat) (s : State) : State :=
  match locate off with
  | none => s
  | some (blk, win, o) =>
    if o = 0xF0 ∨ o = 0xF8 then rset off 0 s
    else match blk, o with
      | 4, 0x20 => modChan (rfield s 0x400018 5 0) (fun x => { x with peak := 0x8000 }) s
      | 8, 0x28 => modFul win (fun x => { x with fault := none, faultOver := false }) s
      | 9, 0x20 => modPort win (fun p => { p with err := none, errOver := false }) s
      | 15, 0x10 => modShop win (fun x => { x with transient := 0, hard := 0, parity := 0 }) s
      | 15, 0x20 => modShop win (fun x => { x with benchFault := none, benchOver := false }) s
      | 15, 0x40 => modShop win (fun x => { x with fault := none, faultOver := false }) s
      | _, _ => s

/-- The base of the block or window in whose counters an access of an offset is counted; GLB for the unused ranges. -/
def faultBase (off : Nat) : Nat := match locate off with | some (blk, win, _) => blockBase blk win | none => 0

/-- Is an access of a size at an offset one that R8 accepts? -/
def accessOk (off size : Nat) : Bool := decide ((size = 4 ∨ size = 8) ∧ off % size = 0)

/-- The bits of an aligned register that an access reads. -/
def halfOf (off size v : Nat) : Nat := if size = 8 then v else if off % 8 = 4 then v / 2 ^ 32 % 2 ^ 32 else v % 2 ^ 32

/-- All ones of a size. -/
def allOnes (size : Nat) : Nat := 2 ^ (8 * min size 8) - 1

/-! ### A virtual function's BAR0 (R458, R566) -/

/-- HQ_VF_STATUS (Table 17.17). -/
def vfStatus (s : State) (t : Nat) : Nat :=
  let r := ringOf s t
  pack [(0, 12, t), (12, 1, b2n (s.book.enabled.contains t)), (13, 1, b2n s.ready), (14, 1, b2n r.stopped), (15, 1, b2n r.armed),
    (16, 1, b2n r.eqOverflow), (17, 1, b2n r.eqLost)]

/-- The value at an aligned offset of a VF's BAR0, for its tenant; the MSI-X structures alone with the operator's set (the PF's own table). -/
def vfValue (s : State) (t o : Nat) : Nat :=
  let r := ringOf s t
  match o with
  | 0x0 => if t < 4096 then vfStatus s t else 0
  | 0x8 => if t < 4096 then r.consumed % 2 ^ 32 + r.produced % 2 ^ 32 * 2 ^ 32 else 0
  | 0x10 => if t < 4096 then r.lost % 2 ^ 32 else 0
  | 0x8000 => r.msixAddr % 2 ^ 64
  | 0x8008 => pack [(0, 32, r.msixData), (32, 1, b2n r.msixMask)]
  | 0x9000 => b2n r.msixPend
  | _ => 0

/-- A read of a VF's BAR0. -/
def vfRead (t off size : Nat) (s : State) : Nat × State :=
  if accessOk off size = false then (allOnes size, accessFault 0x200000 s)
  else
    let o := off / 8 * 8
    (halfOf off size (vfValue s t o), if o = 0x10 ∧ size = 8 ∧ t < 4096 then modRing t (fun r => { r with lost := 0 }) s else s)

end Sys2Proof.Machine
end

