-- ==== Sys2Proof/Machine/RoleOps.lean ====
section
/-! DEFINITION. Roles (R530 to R538): challenges, certificates and sessions, unlocking, image writes, recovery, and the audit view. -/

namespace Sys2Proof.Machine

def modRole (f : RoleSt → RoleSt) (s : State) : State := { s with sys := { s.sys with role := f s.sys.role } }

/-- A role command ends with a cause in ROLE_RESULT (Table 20.14). -/
def roleEnds (cause : Nat) (s : State) : State := modRole (fun r => { r with cause := cause, done := true }) s

/-- Bytes of ROLE_BUF. -/
def roleBuf (s : State) (off n : Nat) : List Byte :=
  (List.range n).map (fun i => BitVec.ofNat 8 (rget s (0x1800400 + (off + i) / 8 * 8) / 2 ^ (8 * ((off + i) % 8)) % 256))

/-- A little-endian field of the certificate in ROLE_BUF. -/
def certField (s : State) (off n : Nat) : Nat := ofLeBytes (roleBuf s off n)

/-- The debug level in force: level 3 only while no tenant is enabled (R541). -/
def debugLevel (s : State) : Nat := if s.sys.role.level = 3 ∧ s.book.enabled ≠ [] then 2 else s.sys.role.level

/-! ### Challenge and response (R531, R532) -/

/-- A challenge on a channel: 48 random bytes, unless a session is open or challenges are refused. -/
def challengeOn (chan : Nat) (s : State) : State :=
  if s.sys.role.state = 3 then roleEnds 8 s
  else if s.sys.role.state = 2 then roleEnds 6 s
  else
    let (w, s1) := takeFrees 6 s
    roleEnds 0 (modRole (fun r => { r with state := 1, channel := chan, challenge := w.map BitVec.toNat, issued := s.now }) s1)

/-- The cause with which a response on a channel is refused; none when it opens a session. -/
def responseFault (chan : Nat) (i : RoleIn) (s : State) : Option Nat :=
  let r := s.sys.role
  let role := certField s 5 1
  let dev := certField s 16 8
  if r.state = 3 then some 8
  else if r.state = 2 then some 6
  else if r.state ≠ 1 ∨ r.channel ≠ chan ∨ r.issued + 60000000000 < s.now then some 5
  else if certField s 0 4 ≠ 0x54524543 ∨ certField s 4 1 ≠ 1 ∨ (role ≠ 1 ∧ role ≠ 2) ∨ (dev ≠ 0 ∧ dev ≠ deviceSerial)
    ∨ certField s 12 4 ≠ 0 ∨ certField s 24 40 ≠ 0 then some 2
  else if !i.certSig then some 1
  else if certField s 8 4 < rfield s 0x1800050 31 0 then some 3
  else if role = 1 ∧ certField s 6 2 / 16 % 8 ≠ 0 then some 4
  else if !i.respSig then some 1
  else if role = 2 ∧ s.book.enabled ≠ [] then some 7
  else none

/-- A failed response: audited, counted, and the third within 60 s locks challenges out for 60 s. -/
def responseFails (chan cause : Nat) (s : State) : State :=
  let recent := s.now :: s.sys.role.fails.filter (fun t => decide (s.now < t + 60000000000))
  let s1 := bump 0x1800108 1 (audit 0x05 chan 0 0 0 cause s)
  let s2 := modRole (fun r => { r with
    state := if r.state = 2 then 2 else if recent.length ≥ 3 then 3 else if r.state = 1 ∧ r.channel = chan then 0 else r.state
    challenge := if r.state = 1 ∧ r.channel ≠ chan then r.challenge else []
    fails := recent, lockedTill := if recent.length ≥ 3 then s.now + 60000000000 else r.lockedTill }) s1
  roleEnds cause s2

/-- The debug level that a session opens with: on JTAG only, 3 with the maker's right and no tenant enabled, 2 with RIGHTS bit 3 (R541). -/
def openLevel (chan role rights : Nat) (s : State) : Nat :=
  if chan ≠ 2 then 0
  else if role = 2 ∧ bitOf rights 6 = true ∧ s.book.enabled = [] then 3
  else if bitOf rights 3 then 2 else 0

/-- A response on a channel (R532). -/
def respondOn (chan : Nat) (i : RoleIn) (s : State) : State :=
  match responseFault chan i s with
  | some cause => if cause = 8 then roleEnds 8 s else responseFails chan cause s
  | none =>
    let role := certField s 5 1
    let rights := certField s 6 2 % 256
    let s1 := modRole (fun r => { r with
      state := 2, role := role, channel := chan, rights := rights, serial := certField s 8 4, challenge := [], lastWrite := s.now }) s
    let s2 := bump 0x1800100 1 (audit 0x03 chan 0 0 0 0 s1)
    roleEnds 0 (setLevel (openLevel chan role rights s2) s2)

/-! ### Commands of a session (R533, R534, R536) -/

/-- A close command on a channel. -/
def closeOn (chan : Nat) (s : State) : State :=
  if s.sys.role.state = 2 ∧ s.sys.role.channel = chan then roleEnds 0 (closeSession s)
  else roleEnds (if s.sys.role.state = 2 then 6 else 5) s

/-- An unlock command: GLB_LOCK bits clear in a session with RIGHTS bit 2. -/
def unlockOn (chan mask : Nat) (s : State) : State :=
  if hasRight s chan 2 then
    let old := s.sys.lockBits
    let new := maskOf ((bitList old 16).filter (fun b => !bitOf mask b))
    let s1 := { s with sys := { s.sys with lockBits := new } }
    roleEnds 0 (if new = old then s1 else audit 0x07 chan 0x300 old new 0 s1)
  else roleEnds 4 s

/-- The checks of an image to be written (R536), in the order of their causes: host read, signature and target, version, size, flash window. -/
def imageFault (s : State) (i : RoleIn) : Option Nat :=
  if !i.readOk then some 12
  else if !i.imgSig || decide (i.target ≠ 0xA1) then some 1
  else if !i.secOk then some 9
  else if !i.fits then some 11
  else if !s.therm.flashOpen then some 10
  else none

/-- Set what a flash region of images holds. -/
def setFlash (k : Nat) (x : FlashImg) (s : State) : State := { s with sys := { s.sys with flash := tset ⟨false, 0⟩ s.sys.flash k x } }

/-- An image write of a kind (Table 20.14) by the PF: slot A, copied to B first when the device booted from A, or the region of the kind; a window that
closes during the write leaves the region invalid. -/
def imageOn (chan kind : Nat) (i : RoleIn) (s : State) : State :=
  if chan ≠ 0 ∨ hasRight s 0 1 = false then roleEnds 4 s
  else
    let region := if kind = 0 then 0 else kind + 1
    let old := tget ⟨false, 0⟩ s.sys.flash region
    let tell := fun (cause : Nat) (s : State) => roleEnds cause (audit 0x08 chan region old.version i.version cause s)
    if kind ≥ 7 then tell 11 s
    else match imageFault s i with
      | some c => tell c s
      | none =>
        let s1 := if kind = 0 ∧ s.sys.slot = 0 then setFlash 1 old s else s
        if i.closed then tell 10 (setFlash region ⟨false, 0⟩ s1) else tell 0 (setFlash region ⟨true, i.version⟩ s1)

/-- A write of ROLE_CMD on a channel (Table 20.14); other OP values do nothing. -/
def roleCmd (chan v : Nat) (i : RoleIn) (s : State) : State :=
  match bitsOf v 3 0 with
  | 1 => challengeOn chan s
  | 2 => respondOn chan i s
  | 3 => closeOn chan s
  | 4 => unlockOn chan (bitsOf v 19 4) s
  | 5 => imageOn chan (bitsOf v 22 20) i s
  | _ => s

/-- A recovery image (R537), in FAILED with cause BOOT only: checked as R536 does and written to both slots. -/
def recover (chan : Nat) (addr : Nat) (i : RoleIn) (s : State) : State :=
  if s.sys.stage ≠ 8 ∨ s.sys.cause ≠ 1 then s
  else match imageFault s i with
    | some c => auditEntry 0x0D 3 chan 1 (nowMs s) addr 0 0 i.version c s
    | none => auditEntry 0x0D 3 chan 1 (nowMs s) addr 0 0 i.version 0 (setFlash 0 ⟨true, i.version⟩ (setFlash 1 ⟨true, i.version⟩ s))

/-! ### GLB_LOCK and the audit view (R534, R539) -/

/-- A W1S write of GLB_LOCK. -/
def lockOn (chan v : Nat) (s : State) : State :=
  let old := s.sys.lockBits
  let new := maskOf ((List.range 16).filter (fun b => bitOf old b || bitOf v b))
  if new = old then s else audit 0x06 chan 0x300 old new 0 { s with sys := { s.sys with lockBits := new } }

/-- The entry of a sequence number, in flash or held for it. -/
def auditFind (s : State) (seq : Nat) : Option (List Nat) :=
  (((s.therm.held.filter (fun h => decide (h.kind = 1))).map (fun h => h.words)) ++ s.therm.audit).find? (fun w => decide (((w[7]?).getD 0) % 2 ^ 32 = seq))

/-- ROLE_AUDIT_SEL's snapshot: the entry is shown, and counts as read. -/
def showAudit (seq : Nat) (s : State) : State :=
  match auditFind s seq with
  | some w => { s with sys := { s.sys with auditShown := w, auditRead := if s.sys.auditRead.contains seq then s.sys.auditRead else seq :: s.sys.auditRead } }
  | none => { s with sys := { s.sys with auditShown := List.replicate 8 0 } }

end Sys2Proof.Machine
end

