-- ==== Sys2Proof/Machine/RegWrite.lean ====
section
/-! DEFINITION. Register writes (R5 to R10, R535, R558 to R563): access types, locks, rights, halves, range checks, and the effects of each register;
and the rows of plain accesses and of the selectors that take a snapshot. -/

namespace Sys2Proof.Machine

/-- The role channel of a path: 0 PF, 1 SMBus, 2 JTAG, 3 none. -/
def chanOf_ : RegPath → Nat
  | .pf | .vf _ => 0
  | .smbus => 1
  | .jtag | .aperture => 2
  | .steward _ => 3

/-- Does an access on a path reach the registers? The host and management domain is up; the PF and VFs need the endpoint (R503, R504, R577), SMBus the
end of step 1, the aperture its debug level, a steward its presence. -/
def pathOpen (s : State) (p : RegPath) (level : Nat) : Bool :=
  s.sys.powered && decide (2 ≤ s.sys.stage) && (match p with
    | .pf => !s.host.perst
    | .vf v => !s.host.perst && decide (v ≤ 4096) && (decide (v = 0) || (s.host.vfEnable && decide (v ≤ s.host.numVfs)))
    | .smbus => !decide (s.sys.stage = 8 ∧ s.sys.cause = 1)
    | .jtag => true
    | .aperture => decide (level ≤ debugLevel s)
    | .steward h => decide (h < 8) && (stewardOf s h).present)

/-! ### Which fields a write reaches -/

/-- Does a write of a size at an offset reach the whole of a field? -/
def reaches (off size : Nat) (f : FieldDef) : Bool :=
  decide (size = 8) || (if off % 8 = 4 then decide (32 ≤ f.lo) else decide (f.hi < 32))

/-- Does R7 refuse to write a field: its block locked, a WOT field written already, or an installer's field without the right? -/
def fieldRefused (s : State) (blk chan key : Nat) (f : FieldDef) : Bool :=
  match f.acc with
  | .rwl => bitOf s.sys.lockBits blk || (f.installer && !hasRight s chan 0)
  | .wot => s.regs.wot.contains key || (f.installer && !hasRight s chan 0)
  | _ => false

/-- Is a field one that stores what is written? -/
def fieldStores (f : FieldDef) : Bool := decide (f.acc = .rw ∨ f.acc = .rwl ∨ f.acc = .wot)

/-- The register's value after the stored fields of a list take theirs from `v`. -/
def mergeFields (fs : List FieldDef) (cur v : Nat) : Nat := fs.foldl (fun w f => setBits w f.hi f.lo (bitsOf v f.hi f.lo)) cur

/-- Registers whose writes take effect at the next boundary: the old value stays in force until then. -/
def boundaryReg (off : Nat) : Bool :=
  ([0x100000, 0x100020, 0x100030, 0x300000, 0x300008, 0x300010, 0x300018, 0x300020, 0x300028, 0x500000, 0x500038, 0x600060, 0x600068, 0x600070, 0x600078,
    0x1008000, 0x1008018, 0x1008028, 0x1008038, 0x1200040, 0x1200048, 0x1200050, 0x1200058, 0x1A00000] : List Nat).contains off

/-- Store a register's value, keeping the value in force of one that waits for a boundary. -/
def storeReg (off key v : Nat) (s : State) : State :=
  let s1 := if boundaryReg off ∧ (tget none s.regs.old key).isNone ∧ rget s key ≠ v then
      { s with regs := { s.regs with old := tset none s.regs.old key (some (BitVec.ofNat 64 (rget s key))) } } else s
  rset key v s1

/-! ### Range and consistency checks -/

/-- Raise or lower a field into bounds. -/
def clampField (hi lo a b v : Nat) : Nat := setBits v hi lo (max a (min b (bitsOf v hi lo)))

/-- Does a range of the pool overlap another valid entry, as written (R454)? -/
def poolOverlap (s : State) (e v : Nat) : Bool :=
  bitOf v 2 && (List.range 4).any (fun j =>
    let w := rget s (0x1200040 + 8 * j)
    decide (j ≠ e) && bitOf w 2 && decide (bitsOf w 1 0 = bitsOf v 1 0 ∧ bitsOf w 29 3 < bitsOf v 29 3 + bitsOf v 56 30
      ∧ bitsOf v 29 3 < bitsOf w 29 3 + bitsOf w 56 30))

/-- Is a group named by a loaded model (R408)? -/
def groupUsed (s : State) (g : Nat) : Bool := s.book.models.any (fun p => (p.2.map (fun m => m.groups.contains g)).getD false)

/-- Is a tally range, in units of 64, one that a tenant may be given (R381, Table 15.8)? -/
def tallyRangeOk (s : State) (t base count : Nat) : Bool :=
  decide (base + count ≤ 1023) && ((tkeys s.tal.range ++ s.tal.pend.map Prod.fst).eraseDups).all (fun u =>
    let r := rangeWritten s u
    decide (u = t ∨ count = 0 ∨ r.2 = 0 ∨ r.1 + r.2 ≤ base * 64 ∨ (base + count) * 64 ≤ r.1))

/-- A value kept only when a condition holds. -/
def keepIf (c : Bool) (v : Nat) : Option Nat := if c then some v else none

/-- Checks and roundings of the bell, scheduler, host and power registers. -/
def checkBell (s : State) (off v : Nat) : Option Nat :=
  match off with
  | 0x408 => keepIf (tallyRangeOk s (rfield s 0x400 11 0) (bitsOf v 9 0) (bitsOf v 20 10)) v
  | 0x100000 =>
    let lo := bitsOf v 14 8
    let hi := bitsOf v 22 16
    keepIf (decide (5 ≤ lo ∧ lo ≤ hi ∧ hi ≤ 100)) (clampField 39 24 10 65535 (clampField 6 0 lo hi v))
  | 0x100020 =>
    let share := min 100 (bitsOf v 6 0)
    keepIf (decide (bitsOf v 13 8 ≤ 50 ∧ bitsOf v 13 8 ≤ share)) (clampField 22 16 0 100 (setBits v 6 0 share))
  | 0x100030 => some (clampField 7 0 1 255 v)
  | 0x200010 => keepIf (decide (bitsOf v 12 0 ≤ 4096)) v
  | 0x200018 | 0x200020 | 0x200028 =>
    let t := rfield s 0x200010 12 0
    keepIf (!(ringOf s t).started && !s.book.enabled.contains t && !(decide (t = 4096) && bitOf (rget s 0x200000) 0)) v
  | 0x300000 => keepIf (decide (48 ≤ bitsOf v 6 0 ∧ bitsOf v 6 0 ≤ 80)) v
  | 0x300008 => keepIf (decide (1 ≤ bitsOf v 4 0 ∧ bitsOf v 4 0 ≤ 20)) v
  | 0x300010 | 0x300018 | 0x300020 | 0x300028 =>
    let w := clampField 13 8 12 44 (clampField 5 0 12 44 v)
    keepIf (decide (bitsOf w 5 0 ≤ bitsOf w 13 8)) w
  | _ => some v

/-- Checks and roundings of the thermal, placement, order book, reliability, role and statistics registers. -/
def checkRest (s : State) (off v : Nat) : Option Nat :=
  match off with
  | 0x400000 => keepIf (decide (1 ≤ bitsOf v 7 0 ∧ bitsOf v 7 0 ≤ 200)) v
  | 0x400008 | 0x400010 => keepIf ((List.range 8).all (fun i => decide (40 ≤ v / 2 ^ (8 * i) % 256 ∧ v / 2 ^ (8 * i) % 256 ≤ 125))) v
  | 0x400018 => keepIf (decide (bitsOf v 5 0 ≤ 55)) v
  | 0x400040 | 0x500020 => keepIf (decide (bitsOf v 3 0 ≤ 11)) v
  | 0x500000 =>
    let w := clampField 42 40 1 7 (clampField 39 32 1 255 (clampField 23 16 1 255 (clampField 12 4 1 400 v)))
    keepIf (decide (bitsOf w 23 16 < bitsOf w 31 24)) w
  | 0x600000 => keepIf (decide (1 ≤ bitsOf v 16 0 ∧ bitsOf v 16 0 ≤ 86400)) (clampField 31 20 1 4095 v)
  | 0x600060 => some (clampField 16 0 0 65536 v)
  | 0x1400000 => some (clampField 15 8 1 100 (clampField 7 0 2 255 v))
  | 0x1800050 => keepIf (decide (rfield s 0x1800050 31 0 ≤ bitsOf v 31 0)) v
  | 0x1A00000 => some (clampField 15 8 1 255 v)
  | 0x1A000A0 =>
    let n := bitsOf v 12 4
    keepIf (match bitsOf v 3 0 with
      | 1 => decide (n < 4) && !scopeAbsent s 1 n
      | 2 => decide (n < 320) && !scopeAbsent s 0 n
      | 4 => decide (n < 12) && !scopeAbsent s 2 n
      | _ => false) v
  | _ => some v

/-- Checks and roundings of the windowed blocks and of the fabric and far-port registers. -/
def checkUnits (s : State) (blk o cur v : Nat) : Option Nat :=
  match blk, o with
  | 8, 0x8 => keepIf (decide (bitsOf v 27 22 < bitsOf v 21 16)) (clampField 15 8 1 255 (clampField 5 0 0 32 v))
  | 9, 0x10 => keepIf (decide (bitsOf v 3 0 ≤ 8)) v
  | 9, 0x8008 => some (clampField 39 32 3 255 (clampField 31 16 1 65535 v))
  | 9, 0x8018 => keepIf (decide (bitsOf v 19 16 ≤ 8)) v
  | 9, 0x8028 => keepIf (decide (bitsOf v 27 12 + bitsOf v 11 0 ≤ 65536 ∧ (v = cur ∨ groupUsed s (rfield s 0x1008020 11 0) = false))) v
  | 10, 0x40 | 10, 0x48 | 10, 0x50 | 10, 0x58 =>
    keepIf (s.book.orders.all (fun p => (orderUnits p.2).isEmpty) && !poolOverlap s ((o - 0x40) / 8) v
      && decide (bitsOf v 29 3 + bitsOf v 56 30 ≤ (farPort s (bitsOf v 1 0)).capacity)) v
  | _, _ => some v

/-- The value that a register takes: none when a range or consistency check refuses the write, which is counted. Checks are made on the value after the
write (R8). -/
def checkReg (s : State) (blk off o cur v : Nat) : Option Nat :=
  if blk = 8 ∨ blk = 9 ∨ blk = 10 then checkUnits s blk o cur v else (checkBell s off v).bind (checkRest s off)

/-! ### Effects -/

/-- A new PERIOD or LEDGER waits for the ledger close; nothing waits for a field written with the value in force (R318). -/
def waitPeriods (v : Nat) (s : State) : State :=
  let p := bitsOf v 6 0
  let l := bitsOf v 39 24
  { s with sched := { s.sched with
    nextPeriod := if p = s.sched.period then none else some p, nextLedger := if l = s.sched.ledger then none else some l } }

/-- A change of BLS_PORT_CFG.EN: an enabled port waits for signal, a disabled one goes to electrical idle (Table 16.9). -/
def portEnable (n old v : Nat) (s : State) : State :=
  if bitOf old 0 = bitOf v 0 then s
  else if bitOf v 0 then modPort n (fun p => { p with state := 1 }) s
  else portDown n 2 0 s

/-- A change of FAR_CFG.EN (Table 23.7): a disabled port goes down and shows state 0; an enabled one trains once it is enumerated. -/
def farEnable (p old v : Nat) (s : State) : State :=
  if bitOf old 0 = bitOf v 0 then s
  else if bitOf v 0 then modFar p (fun f => { f with state := if f.present then 2 else 1 }) s
  else if (farPort s p).state = 3 then farDown p 0 1 s
  else modFar p (fun f => { f with state := 0 }) s

/-- Snapshots of the selector registers (R239, R294, R549, R554, R539). -/
def orderView (o : Nat) (s : State) : State := { s with book := { s.book with shown := entryWords (orderOf s o) } }
def mapView (g : Nat) (s : State) : State := { s with sys := { s.sys with mapShown := mapWord (mapEnt s g) } }
def tenantView (t : Nat) (s : State) : State := if s.stat.busy then { s with stat := { s.stat with waitTsel := some t } } else snapTenant t s
def unitView (v : Nat) (s : State) : State :=
  if s.stat.busy then { s with stat := { s.stat with waitBsel := some (v % 2 ^ 13) } } else snapUnit (bitsOf v 3 0) (bitsOf v 12 4) s

/-- Change the ring set that HQ_TSEL selects. -/
def selRing (f : RingSet → RingSet) (s : State) : State := modRing (rfield s 0x200010 12 0) f s

/-- The bellboard's pending word w takes a written value; asserted level inputs are pending again at once (R526). -/
def setPend (w v : Nat) (s : State) : State :=
  { s with sys := { s.sys with
    bbdPend := s.sys.bbdPend.filter (fun n => decide (n / 64 ≠ w)) ++ ((bitList v 64).map (fun i => w * 64 + i)).filter sourceExists } }

/-- A completion of a source by a steward; `none` is no steward (R525). -/
def completeSource (by_ : Option Nat) (n : Nat) (s : State) : State :=
  match tget none s.sys.bbdActive n, by_ with
  | some h, some k => if h = k then { s with sys := { s.sys with bbdActive := tset none s.sys.bbdActive n none } } else bump 0x1600110 1 s
  | _, _ => bump 0x1600110 1 s

/-- The steward for which a path completes and claims: its own, or DBG_CTL.HART of the aperture (R542). -/
def pathSteward (s : State) : RegPath → Option Nat
  | .steward h => some h
  | .aperture => some (rfield s 0x1600018 3 1)
  | _ => none

/-- Where the stored fields of a write go: most registers to their key, some to the state that they configure. -/
def commit (off cur v : Nat) (s : State) : State :=
  match off with
  | 0x408 =>
    let t := rfield s 0x400 11 0
    { s with tal := { s.tal with pend := s.tal.pend.filter (fun p => decide (p.1 ≠ t)) ++ [(t, bitsOf v 9 0 * 64, bitsOf v 20 10 * 64)] } }
  | 0x100000 => waitPeriods v (storeReg off off v s)
  | 0x200000 => setDbBase v s
  | 0x200018 => selRing (fun r => { r with sqLog := v % 32, sqBase := v / 4096 * 4096 }) s
  | 0x200020 => selRing (fun r => { r with eqLog := v % 32, eqBase := v / 4096 * 4096 }) s
  | 0x200028 => selRing (fun r => { r with pasid := bitsOf v 19 0, pasidEn := bitOf v 20 }) s
  | 0x200030 => selRing (fun r => { r with memMax := v % 2 ^ 32 }) s
  | 0x500010 => mapView (bitsOf v 23 0) (rset off v s)
  | 0x600010 => orderView (bitsOf v 15 0) (rset off v s)
  | 0x1400070 => selectLog (bitsOf v 31 0) (bitOf v 32) s
  | 0x1800070 => showAudit (bitsOf v 31 0) (rset off v s)
  | 0x1A00048 => tenantView (bitsOf v 11 0) (rset off v s)
  | 0x1A000A0 => unitView v (rset off v s)
  | _ =>
    if 0x1601000 ≤ off ∧ off < 0x1601080 then setPend ((off - 0x1601000) / 8) v s
    else if 0x1000000 ≤ off ∧ off < 0x1100000 ∧ off % 0x10000 = 0 then portEnable ((off - 0x1000000) / 0x10000) cur v (rset off v s)
    else if 0x1200000 ≤ off ∧ off < 0x1200020 then farEnable ((off - 0x1200000) / 8) cur v (rset off v s)
    else storeReg off (regKey s off) v s

/-- The effects of a register's WO, W1C and W1S fields; `v` holds the written value of the fields that the write reaches. -/
def actOn (path : RegPath) (off v : Nat) (i : RoleIn) (s : State) : State :=
  let chan := chanOf_ path
  match off with
  | 0x200 => requestReset chan (bitsOf v 1 0) (bitsOf v 10 2) (bitOf v 11) s
  | 0x208 => { s with sys := { s.sys with
      done := s.sys.done && !bitOf v 14, failed := s.sys.failed && !bitOf v 15, drainOut := s.sys.drainOut && !bitOf v 16 } }
  | 0x300 => lockOn chan v s
  | 0x308 => recover chan v i s
  | 0x100018 => askScan 0 v s
  | 0x1400018 =>
    let s1 := if bitOf v 1 then abortScrub s else s
    if bitOf v 0 then askScrub s1 else s1
  | 0x1400058 => askFarRetire (bitsOf v 1 0) (bitsOf v 28 2) s
  | 0x1604000 => completeSource (pathSteward s path) (bitsOf v 9 0) s
  | 0x1800008 => roleCmd chan v i s
  | _ => if 0x2000000 ≤ off ∧ off < 0x3400000 ∧ off % 0x10000 = 0x30 then askBenchReset ((off - 0x2000000) / 0x10000) (bitsOf v 8 0) s else s

/-! ### One write -/

/-- A write of the session's own channel puts its 300 s off (R533). -/
def touchSession (chan : Nat) (s : State) : State :=
  if s.sys.role.state = 2 ∧ s.sys.role.channel = chan then modRole (fun r => { r with lastWrite := s.now }) s else s

/-- Bellboard registers that only stewards and the aperture write (R526), DBG_CTL that only the aperture writes, and ROLE_BUF, that only the channel of the
challenge writes: none when the path may write; otherwise whether the write is counted. -/
def pathBar (s : State) (path : RegPath) (off : Nat) : Option Bool :=
  let inside := match path with | .steward _ | .aperture => true | _ => false
  if 0x1601000 ≤ off ∧ off < 0x1601C00 then (if inside then none else some true)
  else if off = 0x1600018 then (if path = .aperture then none else some false)
  else if 0x1800400 ≤ off ∧ off < 0x1800800 then
    (if (s.sys.role.state = 1 ∨ s.sys.role.state = 2) ∧ s.sys.role.channel = chanOf_ path then none else some false)
  else none

/-- The fields of a register take their part of a write at an accepted offset: `v` is the 64-bit value, with zeros outside the half written. -/
def writeFields (path : RegPath) (blk win off size v o : Nat) (r : RegDef) (i : RoleIn) (s : State) : State :=
  let base := blockBase blk win
  let reg := off / 8 * 8
  let chan := chanOf_ path
  let key := regKey s reg
  let cur := regValue s reg
  let stores := r.fields.filter fieldStores
  let hit := stores.filter (reaches off size)
  let wos := r.fields.filter (fun f => decide (f.acc = .wo))
  let acts := r.fields.filter (fun f => decide (f.acc = .w1c ∨ f.acc = .w1s) && reaches off size f)
  let woAll := wos.all (reaches off size)
  let spans := r.fields.any (fun f => decide (f.acc ≠ .ro ∧ f.acc ≠ .rc) && !reaches off size f && decide (f.lo < 32 ∧ 32 ≤ f.hi))
  let refused := hit.filter (fieldRefused s blk chan key)
  let new := mergeFields (hit.filter (fun f => !fieldRefused s blk chan key f)) cur v
  let s1 := if spans || !woAll then accessFault base s else s
  let s2 := if refused.any (fun f => decide (bitsOf v f.hi f.lo ≠ bitsOf cur f.hi f.lo)) then refusedWrite base reg chan cur v s1 else s1
  let s3 := if hit.isEmpty then s2 else match checkReg s blk reg (reg - (off - o)) cur new with
    | none => accessFault base s2
    | some w =>
      let marked := hit.filter (fun f => !fieldRefused s blk chan key f && (f.installer || decide (f.acc = .wot)))
      let changed := marked.any (fun f => decide (bitsOf w f.hi f.lo ≠ bitsOf cur f.hi f.lo))
      let s4 := if changed then audit 0x01 chan reg cur w 0 s2 else s2
      let s5 := if marked.any (fun f => decide (f.acc = .wot)) then { s4 with regs := { s4.regs with wot := s4.regs.wot ++ [key] } } else s4
      commit reg cur w s5
  if (!wos.isEmpty && woAll) || !acts.isEmpty then actOn path reg v i s3 else s3

/-- A write of 4 or 8 bytes, or a dropped one, to the physical function's registers. -/
def regWrite (path : RegPath) (off size v : Nat) (i : RoleIn) (s : State) : State :=
  let s := touchSession (chanOf_ path) s
  if accessOk off size = false then accessFault (faultBase off) s
  else match locate off with
    | none => accessFault 0 s
    | some (blk, win, o) =>
      if o / 8 * 8 = 0xF0 ∨ o / 8 * 8 = 0xF8 then s
      else match findReg blk win o with
        | none => accessFault (blockBase blk win) s
        | some r => match pathBar s path (off / 8 * 8) with
          | some counted => if counted then accessFault (blockBase blk win) s else s
          | none => writeFields path blk win off size (if off % 8 = 4 then v % 2 ^ 32 * 2 ^ 32 else v % 2 ^ (8 * size)) o r i s

/-! ### A virtual function's BAR0 -/

/-- The vector of a function is unmasked or masked: a pending message is sent on unmasking (R451). -/
def setMask (t : Nat) (mask : Bool) (s : State) : State :=
  let r := ringOf s t
  let s1 := modRing t (fun r => { r with msixMask := mask }) s
  if !mask && r.msixPend then bump 0x200138 1 (hostWrite r.msixAddr (leBytes 4 r.msixData) (modRing t (fun r => { r with msixPend := false }) s1)) else s1

/-- A write to a VF's BAR0 for tenant t, or to the PF's own MSI-X table with the operator's set. -/
def vfWrite (t off size v : Nat) (s : State) : State :=
  if accessOk off size = false then accessFault 0x200000 s
  else
    let reg := off / 8 * 8
    let lowHalf := decide (size = 8 ∨ off % 8 = 0)
    let highHalf := decide (size = 8 ∨ off % 8 = 4)
    let w := if off % 8 = 4 then v % 2 ^ 32 * 2 ^ 32 else v % 2 ^ (8 * size)
    match reg with
    | 0x0 => if t < 4096 ∧ lowHalf = true then
        modRing t (fun r => { r with eqOverflow := r.eqOverflow && !bitOf w 16, eqLost := r.eqLost && !bitOf w 17 }) s else s
    | 0x18 => if t < 4096 ∧ lowHalf = true then askScan (t + 1) w s else s
    | 0x8000 => modRing t (fun r => { r with msixAddr :=
        (if lowHalf then w % 2 ^ 32 else r.msixAddr % 2 ^ 32) + (if highHalf then w / 2 ^ 32 else r.msixAddr / 2 ^ 32 % 2 ^ 32) * 2 ^ 32 }) s
    | 0x8008 =>
      let s1 := if lowHalf then modRing t (fun r => { r with msixData := w % 2 ^ 32 }) s else s
      if highHalf then setMask t (bitOf w 32) s1 else s1
    | _ => s

/-- The ring set of a virtual function; 0 stands for the PF's own. -/
def vfSet (v : Nat) : Nat := if v = 0 then opRing else v - 1

/-! ### Claims and reads -/

/-- A claim of a source by a steward (R524): the number, or 0x3FF. -/
def claim (h n : Nat) (s : State) : Nat × State :=
  if bbdPending s n && (tget none s.sys.bbdActive n).isNone && bitOf (rget s (0x1601800 + n / 8 * 8) / 2 ^ (8 * (n % 8)) % 256) h then
    (n, { s with sys := { s.sys with bbdPend := s.sys.bbdPend.filter (fun x => decide (x ≠ n)), bbdActive := tset none s.sys.bbdActive n (some h) } })
  else (0x3FF, bump 0x1600118 1 s)

/-- The value of a register as a path reads it: claim registers show 0x3FF but to a steward or the aperture, DBG_CTL 0 but to the aperture. -/
def readValue (s : State) (path : RegPath) (off : Nat) : Nat :=
  if 0x1602000 ≤ off ∧ off < 0x1604000 then (match pathSteward s path with
    | some h => (claim h ((off - 0x1602000) / 8) s).1
    | none => 0x3FF)
  else if off = 0x1600018 ∧ path ≠ .aperture then 0
  else regValue s off

/-- Does a 64-bit read on a path take its side effect (R10, R542, R581)? -/
def readActs (s : State) : RegPath → Bool
  | .smbus => false
  | .aperture => bitOf (rget s 0x1600018) 0
  | _ => true

/-- A read of a size: a 64-bit read clears RC fields, or claims; a 32-bit read is a peek; any other is dropped, counted, and reads all ones. -/
def regRead (path : RegPath) (off size : Nat) (s : State) : Nat × State :=
  if accessOk off size = false then (allOnes size, accessFault (faultBase off) s)
  else
    let reg := off / 8 * 8
    let v := halfOf off size (readValue s path reg)
    if size ≠ 8 ∨ readActs s path = false then (v, s)
    else if 0x1602000 ≤ reg ∧ reg < 0x1604000 then (match pathSteward s path with
      | some h => claim h ((reg - 0x1602000) / 8) s
      | none => (v, s))
    else (v, clearRc reg s)

/-! ### Rows -/

/-- A write over SMBus (R581): it takes effect in a session open on that channel, and where the exchange that opens one needs it (ROLE_CMD, ROLE_ARG,
ROLE_BUF); any other is refused. -/
def smbWrite (off size v : Nat) (i : RoleIn) (s : State) : State :=
  let reg := off / 8 * 8
  let inSession := decide (s.sys.role.state = 2 ∧ s.sys.role.channel = 1)
  let exchange := decide (reg = 0x1800008 ∨ reg = 0x1800010 ∨ (0x1800400 ≤ reg ∧ reg < 0x1800800))
  if inSession || exchange then regWrite .smbus off size v i s
  else match locate off with
    | none => accessFault 0 s
    | some (blk, win, o) =>
      if (findReg blk win o).isSome then refusedWrite (blockBase blk win) reg 1 (regValue s reg) (v % 2 ^ (8 * size)) s
      else accessFault (blockBase blk win) s

/-- A write on a path: the JTAG data register reaches the first 2,048 bytes of the ROLE block only (R540). -/
def pathWrite (path : RegPath) (off size v : Nat) (i : RoleIn) (s : State) : State :=
  match path with
  | .vf n => vfWrite (vfSet n) off size v s
  | .smbus => smbWrite off size v i s
  | .jtag => if 0x1800000 ≤ off ∧ off < 0x1800800 then regWrite .jtag off size v i s else s
  | p => regWrite p off size v i s

/-- A lock is broken: its stores are discarded, OWNER is 0 and EPOCH is incremented (R529). -/
def breakLock (k : Nat) (s : State) : State :=
  { s with sys := { s.sys with locks := tmod DevLock.reset s.sys.locks k (fun l => ⟨0, (l.epoch + 1) % 2 ^ 24, [], none, l.owner % 16⟩) } }

/-- A lease that has run out breaks its lock, and the break is counted (R529). -/
def expireLock (k : Nat) (s : State) : State :=
  match (tget DevLock.reset s.sys.locks k).lease with
  | some e => if e ≤ s.now then bump 0x1600100 1 (breakLock k s) else s
  | none => s

/-- A store of the holder to a guarded range is staged. -/
def stage (k : Nat) (x : LockStore) (s : State) : State :=
  if (tget DevLock.reset s.sys.locks k).staged.length ≥ 64 then breakLock k s
  else { s with sys := { s.sys with locks := tmod DevLock.reset s.sys.locks k (fun l => { l with staged := l.staged ++ [x] }) } }

/-- REGISTER_WRITE (R5): a write of `size` bytes at an offset of BAR0 (of the VF's, on its path); `guard` names the device lock whose guarded ranges a
steward's store meets. -/
def execRegisterWrite (path : RegPath) (off size value : Nat) (guard : Option Nat) (ins : RoleIn) (time : Nat) (s : State) : Res :=
  let s := atTime time s
  .next (if pathOpen s path 2 = false then s
    else match path, guard with
      | .steward h, some k =>
        let s := expireLock (k % 256) s
        if (tget DevLock.reset s.sys.locks (k % 256)).owner = h + 1 ∧ size = 8 then stage (k % 256) ⟨true, off, value, ins⟩ s
        else regWrite path off size value ins s
      | _, _ => pathWrite path off size value ins s)

/-- RC_READ (R10): a read of `size` bytes; the value is returned. -/
def execRcRead (path : RegPath) (off size time : Nat) (s : State) : Res :=
  let s := atTime time s
  .next (if pathOpen s path 1 = false then answer (allOnes size) s
    else
      let (v, s1) := match path with
        | .vf n => if s.ready || decide (n = 0) then vfRead (vfSet n) off size s else (0, s)
        | p => regRead p off size s
      answer v s1)

/-- A 64-bit write of a register by the PF, for the rows that name one register. -/
def pfWrite (off value : Nat) (i : RoleIn) (s : State) : State := if pathOpen s .pf 0 then regWrite .pf off 8 value i s else s

/-- Checks that fail, for writes that need none. -/
def noRole : RoleIn := ⟨false, false, false, false, 0, false, false, false, 0⟩

/-- OBK_SEL (R239). -/
def execObkSel (order : Nat) (s : State) : Res := .next (pfWrite 0x600010 order noRole s)

/-- PLC_MAP_SEL (R294). -/
def execPlcMapSel (granule : Nat) (s : State) : Res := .next (pfWrite 0x500010 granule noRole s)

/-- STAT_TSEL (R549). -/
def execStatTsel (tenant : Nat) (s : State) : Res := .next (pfWrite 0x1A00048 tenant noRole s)

/-- STAT_BSEL (R554): KIND in [3:0], NUMBER in [12:4]. -/
def execStatBsel (value : Nat) (s : State) : Res := .next (pfWrite 0x1A000A0 value noRole s)

/-- ROLE_AUDIT_SEL (R539). -/
def execRoleAuditSel (seq : Nat) (s : State) : Res := .next (pfWrite 0x1800070 seq noRole s)

/-- BRIDGE_LANE_LOSS (R17): a bridge with more lost lanes than spares runs at half width, and the operator hears of it. -/
def execBridgeLaneLoss (bridge lost spares : Nat) (s : State) : Res :=
  .next (if bridge < 4 ∧ spares < lost then rasLog 0x14 4 (unitWord 1 bridge 0) 0 0 ownerDev lost s else s)

end Sys2Proof.Machine
end

