-- ==== Sys2Proof/Machine/Stew.lean ====
section
/-! DEFINITION. Stewards, the bellboard, device locks, roles and debug (chapter 20): the rows of R520 to R543. -/

namespace Sys2Proof.Machine

/-! ### The bellboard (R522 to R527) -/

/-- A source input changes. A rising edge sets an edge source's pending bit; a level source is pending while its input is asserted and it is not active,
and its bit, once set, stays when the input falls. -/
def sourceInput (n : Nat) (asserted : Bool) (s : State) : State :=
  let setPending := fun (s : State) =>
    { s with sys := { s.sys with bbdPend := if s.sys.bbdPend.contains n then s.sys.bbdPend else s.sys.bbdPend ++ [n] } }
  if levelSource n then
    if asserted then { s with sys := { s.sys with bbdLevel := if s.sys.bbdLevel.contains n then s.sys.bbdLevel else s.sys.bbdLevel ++ [n] } }
    else
      let s1 := if bbdPending s n then setPending s else s
      { s1 with sys := { s1.sys with bbdLevel := s1.sys.bbdLevel.filter (fun x => decide (x ≠ n)) } }
  else if asserted && sourceExists n && decide (n < 512) then setPending s
  else s

/-- BELLBOARD_SOURCE (R522, R527): an input of the bellboard rises or falls; `gated` says that the bellboard's clock was stopped and restarts. -/
def execBellboardSource (source : Nat) (asserted gated : Bool) (time : Nat) (s : State) : Res :=
  let s := atTime time s
  .next (if !s.sys.powered then s
    else
      let s1 := sourceInput source asserted s
      if gated && asserted && sourceExists source && decide (source < 512) then bump 0x1600120 1 s1 else s1)

/-- BBD_CLAIM (R524, R542): a 64-bit read of a claim register. -/
def execBbdClaim (path : RegPath) (source time : Nat) (s : State) : Res :=
  let s := atTime time s
  .next (if pathOpen s path 1 = false then answer (allOnes 8) s
    else
      let (v, s1) := regRead path (0x1602000 + 8 * (source % 1024)) 8 s
      answer v s1)

/-- BBD_COMPLETE (R525). -/
def execBbdComplete (path : RegPath) (source time : Nat) (s : State) : Res :=
  let s := atTime time s
  .next (if pathOpen s path 2 then pathWrite path 0x1604000 8 (source % 1024) noRole s else s)

/-- BBD_PEND (R526): a write of pending word `word`. -/
def execBbdPend (path : RegPath) (word value time : Nat) (s : State) : Res :=
  let s := atTime time s
  .next (if pathOpen s path 2 then pathWrite path (0x1601000 + 8 * (word % 16)) 8 value noRole s else s)

/-! ### Device locks (R528, R529) -/

/-- Can a steward run instructions: present, not restarting, not halted? -/
def stewardActive (s : State) (h : Nat) : Bool :=
  s.sys.powered && decide (h < 8) && (stewardOf s h).present && !(stewardOf s h).restarting && (stewardOf s h).halted.isNone

/-- LOCK_ACQUIRE (R528): LR.D has read `epoch`; the SC.D succeeds, and answers 0, when the lock is free at that EPOCH; else it answers 1. -/
def execLockAcquire (steward lock epoch time : Nat) (s : State) : Res :=
  let k := lock % 256
  let s := expireLock k (atTime time s)
  let l := tget DevLock.reset s.sys.locks k
  .next (if stewardActive s steward && decide (l.owner = 0 ∧ l.epoch = epoch) then
      answer 0 { s with sys := { s.sys with locks := tset DevLock.reset s.sys.locks k ⟨steward + 1, epoch, [], some (s.now + 10000), l.lastBroken⟩ } }
    else answer 1 s)

/-- A staged store is performed. -/
def performStore (h : Nat) (s : State) (x : LockStore) : State :=
  if x.bar0 then regWrite (.steward h) x.addr 8 x.value x.ins s else (writeDev none x.addr (leBytes 8 x.value) s).1

/-- LOCK_RELEASE (R528): the SC.D of OWNER 0 and EPOCH + 1 by the holder performs every staged store together, those staged to device memory (`mem`: local
address and value) after those to registers; a buffer of more than 64 fails. -/
def execLockRelease (steward lock epoch : Nat) (mem : List (Nat × Nat)) (time : Nat) (s : State) : Res :=
  let k := lock % 256
  let s := expireLock k (atTime time s)
  let l := tget DevLock.reset s.sys.locks k
  .next (if (stewardActive s steward && decide (l.owner = steward + 1 ∧ l.epoch = epoch)) = false then answer 1 s
    else if 64 < l.staged.length + mem.length then answer 1 (breakLock k s)
    else
      let s1 := { s with sys := { s.sys with locks := tset DevLock.reset s.sys.locks k ⟨0, (l.epoch + 1) % 2 ^ 24, [], none, l.lastBroken⟩ } }
      answer 0 ((l.staged ++ mem.map (fun p => (⟨false, p.1, p.2, noRole⟩ : LockStore))).foldl (performStore steward) s1))

/-- LEASE_EXPIRY (R529). -/
def execLeaseExpiry (lock time : Nat) (s : State) : Res := .next (expireLock (lock % 256) (atTime time s))

/-- STEWARD_WATCHDOG (R521): a running steward that is not halted has not refreshed its watchdog for 1 ms. -/
def execStewardWatchdog (steward : Nat) (s : State) : Res := .next (if stewardActive s steward then restartSteward steward s else s)

/-- STEWARD_RESTART_DONE (R521). -/
def execStewardRestartDone (steward : Nat) (s : State) : Res :=
  .next (if steward < 8 ∧ (stewardOf s steward).present = true then modSteward steward (fun x => { x with restarting := false }) s else s)

/-! ### Roles (R531 to R538) -/

/-- A write of ROLE_CMD on a path. -/
def roleWrite (path : RegPath) (v : Nat) (i : RoleIn) (s : State) : State := if pathOpen s path 2 then pathWrite path 0x1800008 8 v i s else s

/-- CHALLENGE (R532). -/
def execChallenge (path : RegPath) (time : Nat) (s : State) : Res := .next (roleWrite path 1 noRole (atTime time s))

/-- RESPOND (R531, R532). -/
def execRespond (path : RegPath) (ins : RoleIn) (time : Nat) (s : State) : Res := .next (roleWrite path 2 ins (atTime time s))

/-- ROLE_CLOSE (R533). -/
def execRoleClose (path : RegPath) (time : Nat) (s : State) : Res := .next (roleWrite path 3 noRole (atTime time s))

/-- UNLOCK (R534). -/
def execUnlock (path : RegPath) (mask time : Nat) (s : State) : Res := .next (roleWrite path (4 + mask % 65536 * 16) noRole (atTime time s))

/-- IMAGE_WRITE (R536): a kind of Table 20.14, its host address in ROLE_ARG. -/
def execImageWrite (path : RegPath) (kind : Nat) (ins : RoleIn) (time : Nat) (s : State) : Res :=
  .next (roleWrite path (5 + kind % 8 * 2 ^ 20) ins (atTime time s))

/-- SESSION_TIMEOUT (R533). -/
def execSessionTimeout (time : Nat) (s : State) : Res :=
  let s := atTime time s
  .next (if s.sys.role.state = 2 ∧ s.sys.role.lastWrite + 300000000000 ≤ s.now then closeSession s else s)

/-- LOCKOUT_EXPIRY (R532). -/
def execLockoutExpiry (time : Nat) (s : State) : Res :=
  let s := atTime time s
  .next (if s.sys.role.state = 3 ∧ s.sys.role.lockedTill ≤ s.now then modRole (fun r => { r with state := 0 }) s else s)

/-- GLB_LOCK (R534). -/
def execGlbLock (path : RegPath) (value time : Nat) (s : State) : Res :=
  let s := atTime time s
  .next (if pathOpen s path 2 then pathWrite path 0x300 8 value noRole s else s)

/-- GLB_RECOVERY_ADDR (R537): written by the PF. -/
def execGlbRecoveryAddr (address : Nat) (ins : RoleIn) (time : Nat) (s : State) : Res := .next (pfWrite 0x308 address ins (atTime time s))

/-- Program a fuse word of a quarter, or write or erase (no words) a repair record (1) or a calibration record (2) (R538). -/
def makerStore (kind object : Nat) (words : List Nat) (s : State) : State :=
  if kind = 0 then { s with sys := { s.sys with fuses := tset 0 s.sys.fuses object ((tget 0 s.sys.fuses object) ||| ((words[0]?).getD 0) % 2 ^ 64) } }
  else
    let key := kind * 2 ^ 32 + object % 2 ^ 32
    let rest := s.sys.makerRecords.filter (fun r => decide (r.1 ≠ key))
    { s with sys := { s.sys with makerRecords := if words.isEmpty then rest else rest ++ [(key, words)] } }

/-- FUSE_PROGRAM (R538, R359): a maker operation on a channel. `object` is the fuse word (eight for each quarter in turn) or the record; eFuses of a quarter
need its fuse window, records the flash window; `closed` holds the bits programmed when the window closes during programming. -/
def execFuseProgram (chan kind object : Nat) (words : List Nat) (closed : Option Nat) (time : Nat) (s : State) : Res :=
  let s := atTime time s
  let right := if kind = 0 then 4 else 5
  let auditKind := if kind = 0 then 0x09 else 0x0A
  let new := (words[0]?).getD 0
  let old := if kind = 0 then tget 0 s.sys.fuses object
    else (((s.sys.makerRecords.find? (fun r => decide (r.1 = kind * 2 ^ 32 + object % 2 ^ 32))).bind (fun r => r.2[0]?)).getD 0)
  .next (if kind > 2 ∨ !s.sys.powered ∨ s.sys.role.state ≠ 2 ∨ s.sys.role.channel ≠ chan then s
    else if hasRight s chan right = false ∨ s.sys.role.role ≠ 2 then roleEnds 4 s
    else
      let s1 := modRole (fun r => { r with lastWrite := s.now }) s
      if (if kind = 0 then fuseOk s (object / 8 % 4) else s.therm.flashOpen) = false then roleEnds 10 s1
      else match closed with
        | some v => roleEnds 10 (audit auditKind chan object old v (if kind = 2 then 1 else 0) (makerStore kind object [v] s1))
        | none => roleEnds 0 (audit auditKind chan object old new (if kind = 2 then 1 else 0) (makerStore kind object words s1)))

/-! ### JTAG (R540, R541) -/

/-- The JTAG instruction register takes an instruction. -/
def setIr (n : Nat) (s : State) : State := { s with sys := { s.sys with jtagIr := n, extest := if n = 2 ∨ n = 3 then s.sys.extest else [] } }

/-- BYPASS (R540). -/
def execBypass (s : State) : Res := .next (setIr 0 s)

/-- IDCODE (R540): version 1, part 0x0800, Mirxida's JEDEC code, 1. -/
def execIdcode (s : State) : Res := .next (answer (2 ^ 28 + 0x0800 * 2 ^ 12 + Config.jedecCode % 2 ^ 11 * 2 + 1) (setIr 1 s))

/-- SAMPLE_PRELOAD (R540): the boundary register captures the lands and takes the values preloaded for its outputs. -/
def execSamplePreload (lands : List Byte) (outputs : List Bool) (s : State) : Res :=
  let s1 := setIr 2 s
  .next (answerBytes lands { s1 with sys := { s1.sys with extest := outputs } })

/-- EXTEST (R540): accepted only while SYS_RST_N is asserted; otherwise it acts as BYPASS. -/
def execExtest (lands : List Byte) (outputs : List Bool) (s : State) : Res :=
  .next (if s.sys.sysRstN then setIr 0 s
    else
      let s1 := setIr 3 s
      answerBytes lands { s1 with sys := { s1.sys with extest := outputs } })

/-- DTMCS (R540): version 1; the address width and the idle hint are the debug module's own, which the manual does not give; dmistat 0. -/
def execDtmcs (s : State) : Res :=
  let (v, s1) := takeFree (setIr 4 s)
  .next (answer (1 + v.toNat % 64 * 2 ^ 4 + v.toNat / 64 % 8 * 2 ^ 12) s1)

/-- The stewards that dmcontrol selects: hartsello. -/
def dmHart (s : State) : Nat := bitsOf (tget 0 s.sys.dmi 0x10) 25 16

/-- dmstatus of the selected steward: version 2, authenticated, and any and all of halted, running, unavailable, nonexistent. -/
def dmStatus (s : State) : Nat :=
  let h := dmHart s
  let x := stewardOf s h
  let both := fun (lo : Nat) (b : Bool) => (lo, 2, 3 * b2n b)
  pack [(0, 4, 2), (5, 1, 1), (7, 1, 1), both 8 (decide (h < 8) && x.halted.isSome), both 10 (decide (h < 8) && x.present && x.halted.isNone && !x.restarting),
    both 12 (decide (h < 8) && (!x.present || x.restarting)), both 14 (decide (8 ≤ h))]

/-- A read of a debug-module register (RISC-V Debug Specification 0.13.2): dmcontrol, dmstatus, the data and program-buffer words; others show what the
manual does not give. -/
def dmRead (a : Nat) (s : State) : Nat × State :=
  if a = 0x10 then (tget 0 s.sys.dmi 0x10 % 2 ^ 30, s)
  else if a = 0x11 then (dmStatus s, s)
  else if (0x4 ≤ a ∧ a < 0x10) ∨ (0x20 ≤ a ∧ a < 0x28) then (tget 0 s.sys.dmi a, s)
  else
    let (v, s1) := takeFree s
    (v.toNat % 2 ^ 32, s1)

/-- A write of a debug-module register: dmcontrol halts and resumes; an abstract command leaves its result in data0, which the stewards' programs decide. -/
def dmWrite (a v : Nat) (s : State) : State :=
  let put := fun (k x : Nat) (s : State) => { s with sys := { s.sys with dmi := tset 0 s.sys.dmi k (x % 2 ^ 32) } }
  if a = 0x10 then
    let s1 := put 0x10 v s
    let h := dmHart s1
    if h ≥ 8 ∨ (stewardOf s1 h).present = false ∨ bitOf v 0 = false then s1
    else if bitOf v 31 then modSteward h (fun x => { x with halted := if x.halted.isSome then x.halted else some s1.now }) s1
    else if bitOf v 30 then modSteward h (fun x => { x with halted := none }) s1
    else s1
  else if a = 0x17 then
    let (x, s1) := takeFree s
    put 0x4 x.toNat s1
  else if (0x4 ≤ a ∧ a < 0x10) ∨ (0x20 ≤ a ∧ a < 0x28) then put a v s
  else s

/-- DMI (R541): gated by the debug level. -/
def execDmi (op : DmiOp) (time : Nat) (s : State) : Res :=
  let s := setIr 5 (atTime time s)
  let on := s.sys.powered && decide (2 ≤ debugLevel s)
  .next (match op with
    | .read a => if on then (let (v, s1) := dmRead a s; answer v s1) else answer 0 s
    | .write a v => if on then dmWrite a v s else s
    | .regWrite off size v => if pathOpen s .aperture 2 then regWrite .aperture off size v noRole s else s
    | .memWrite a d => if pathOpen s .aperture 3 then (writeDev none a d s).1 else s)

/-- The RW words of the ROLE block's first 2,048 bytes that an update stores, and then ROLE_CMD. -/
def roleUpdate (words : List Nat) (i : RoleIn) (s : State) : State :=
  let put := fun (s : State) (k : Nat) => regWrite .jtag (0x1800000 + 8 * k) 8 ((words[k]?).getD 0) i s
  put (([2, 14] ++ (List.range 128).map (fun k => 128 + k)).foldl put s) 1

/-- JTAG_ROLE (R540): a capture of the 2,048 bytes, and then an update when `words` gives them. -/
def execJtagRole (words : Option (List Nat)) (ins : RoleIn) (time : Nat) (s : State) : Res :=
  let s := setIr 6 (atTime time s)
  let s1 := answerBytes ((List.range 256).flatMap (fun k => leBytes 8 (regValue s (0x1800000 + 8 * k)))) s
  .next (if pathOpen s .jtag 0 = false then s
    else match words with
      | some w => roleUpdate w ins s1
      | none => s1)

/-- RECOVERY (R537): a recovery image in JTAG's data register. -/
def execRecovery (ins : RoleIn) (time : Nat) (s : State) : Res :=
  let s := setIr 7 (atTime time s)
  .next (if s.sys.powered then recover 2 0 ins s else s)

/-- TRST_N (R533): the JTAG port is reset, with IDCODE as its instruction, and a session on it closes. -/
def execTrstN (s : State) : Res := .next (closeChannel 2 (setIr 1 s))

/-- DEBUG_APERTURE_READ (R541, R542): of a BAR0 register, or of a device local address at level 3. -/
def execDebugApertureRead (device : Bool) (address size time : Nat) (s : State) : Res :=
  let s := atTime time s
  .next (if device then
      if pathOpen s .aperture 3 then (let (r, s1) := readDev none address size s; answerBytes r.data s1) else answer 0 s
    else if pathOpen s .aperture 1 then (let (v, s1) := regRead .aperture address size s; answer v s1)
    else answer 0 s)

end Sys2Proof.Machine
end

