-- ==== Sys2Proof/Machine/Smb.lean ====
section
/-! DEFINITION. The board management port (R579 to R581): the SMBus commands of Table 23.10. The port answers while 3.3 V auxiliary is in range; a block of
length 0 stands for data that is not there. -/

namespace Sys2Proof.Machine

/-- A read of the port: the block's bytes when its needs are met, else length 0; no answer without auxiliary. -/
def smbRead (need : Bool) (data : List Byte) (s : State) : State := if !s.sys.aux then s else answerBytes (if need then data else []) s

/-- Has bring-up step 1 ended, with the 12 V domains up? -/
def stepOneEnded (s : State) : Bool := s.sys.powered && decide (2 ≤ s.sys.stage) && !decide (s.sys.stage = 8 ∧ s.sys.cause = 1)

/-- Byte 0 of STATE: 0 auxiliary only or in reset, 1 bring-up, 2 READY, 3 FAILED, 4 tripped, 5 compute-part reset. -/
def smbState (s : State) : Nat :=
  if s.therm.tripLatch then 4 else if !s.sys.powered then 0 else if s.sys.stage = 7 then 2 else if s.sys.stage = 8 then 3
  else if s.sys.origin = 2 then 5 else 1

/-- IDENT (R580): GLB_IDENT and ROLE_DEVICE_SERIAL. -/
def execIdent (s : State) : Res := .next (smbRead true (leBytes 8 (identWord s) ++ leBytes 8 deviceSerial) s)

/-- STATE (R580): the state and GLB_BOOT_STATUS. -/
def execState (s : State) : Res := .next (smbRead true (leBytes 1 (smbState s) ++ leBytes 8 (if s.sys.powered then bootStatus s else 0)) s)

/-- ALERT (R580, R355): THM_UNIT_STATUS, THM_EXT_STATUS and THM_FAIL. -/
def execAlert (s : State) : Res := .next (smbRead true (leBytes 8 (unitStatus s) ++ leBytes 8 (extStatus s) ++ leBytes 8 (failStatus s)) s)

/-- TRIP (R580): THM_TRIP. -/
def execTrip (s : State) : Res := .next (smbRead true (leBytes 8 (tripWord s)) s)

/-- Temperatures of units as 16-bit codes. -/
def tempBytes (s : State) (units : List Nat) : List Byte := units.flatMap (fun u => leBytes 2 (codeOf 16 (unitTemp s u)))

/-- QUARTERS (R580, R344). -/
def execQuarters (s : State) : Res := .next (smbRead true (tempBytes s [12, 13, 14, 15]) s)

/-- STACKS (R580, R344). -/
def execStackTemps (s : State) : Res := .next (smbRead true (tempBytes s (List.range 12)) s)

/-- CHANNELS (R580): 0x8000 for a disabled or failed channel. -/
def execChannels (s : State) : Res :=
  .next (smbRead true ((List.range 56).flatMap (fun c =>
    leBytes 2 (if chanEnabled s c && decide ((chanOf s c).state = 0) then (chanOf s c).reading else 0x8000))) s)

/-- POWER (R580): 12 V in mV and its current in 0.1 A, which the port measures; the last bell's measured energy; the envelope in W. -/
def execPower (mv current : Nat) (s : State) : Res :=
  .next (smbRead s.sys.powered (leBytes 2 mv ++ leBytes 2 current ++ leBytes 4 s.sched.lastMeasured ++ leBytes 4 (rfield s 0x300000 6 0 * 50)) s)

/-- LINKS (R580): the host link's width and speed, the Balis ports' and the far ports' states. -/
def execLinks (s : State) : Res :=
  .next (smbRead (stepOneEnded s) (leBytes 1 s.host.width ++ leBytes 1 s.host.speed ++ (List.range 16).flatMap (fun n => leBytes 1 (portShown s n))
    ++ (List.range 4).flatMap (fun p => leBytes 1 (farPort s p).state)) s)

/-- The port's register address advances. -/
def smbNext (s : State) : State := { s with sys := { s.sys with smbAddr := (s.sys.smbAddr + 8) % 2 ^ 32 } }

/-- REG_ADDR (R580): a BAR0 offset, a multiple of 8; any other leaves the address. -/
def execRegAddr (offset : Nat) (s : State) : Res :=
  .next (if s.sys.aux ∧ offset % 8 = 0 then { s with sys := { s.sys with smbAddr := offset % 2 ^ 32 } } else s)

/-- REG_DATA_READ (R580, R581): a peek of the register at REG_ADDR, which advances. -/
def execRegDataRead (time : Nat) (s : State) : Res :=
  let s := atTime time s
  .next (if stepOneEnded s = false then smbRead false [] s
    else
      let (v, s1) := regRead .smbus s.sys.smbAddr 8 s
      smbNext (smbRead true (leBytes 8 v) s1))

/-- REG_DATA_WRITE (R580, R581). -/
def execRegDataWrite (value : Nat) (ins : RoleIn) (time : Nat) (s : State) : Res :=
  let s := atTime time s
  .next (if stepOneEnded s = false then s else smbNext (smbWrite s.sys.smbAddr 8 value ins s))

end Sys2Proof.Machine
end

