-- ==== Sys2Proof/Machine/Tallies.lean ====
section
/-! DEFINITION. Meanings of the tally and reduction rows (chapter 15): held waits released, the tally aperture, reduction aliases. -/

namespace Sys2Proof.Machine

/-- Release the waiter of a satisfied wait: a bench goes on; a sheet, ticket or invocation marks the wait as holding. -/
def releaseWaiter (w : TallyWait) (s : State) : State :=
  match w.who with
  | .bench b => modBench b (fun x => if x.wait = .tally then { x with wait := .run } else x) s
  | .sheet k => modBank (k / 2) (k % 2) (fun x => { x with waited := orMask x.waited (waitBits (sheetWaits x.regs) w.tally w.value) }) s
  | .ticket n t => modList n (t / 65536) (fun x => { x with window := x.window.map (fun y =>
      if y.idx = t % 65536 then { y with waited := orMask y.waited (waitBits ((y.words.drop 1).take 4) w.tally w.value) } else y) }) s
  | .invocation _ q => (List.range 12).foldl (fun s m => modFul m (fun x => { x with records := x.records.map (fun r =>
      if r.id = q then { r with waited := orMask r.waited (waitBits (recWaits r) w.tally w.value) } else r) }) s) s
  | .collective q => { s with bal := { s.bal with colls := s.bal.colls.map (fun c =>
      if c.id = q then { c with waited := orMask c.waited (waitBits ((c.words.drop 2).take 4) w.tally w.value) } else c) } }

/-- TALLY_WAIT_SATISFIED (R378, R379): the oldest satisfied wait on a tally leaves the unit and its waiter acquires. -/
def execTallyWaitSatisfied (tally : Nat) (s : State) : Res :=
  .next (match s.tal.waits.findIdx? (fun w => decide (w.tally = tally) && w.satisfied) with
    | none => s
    | some i => match s.tal.waits[i]? with
      | none => s
      | some w => releaseWaiter w { s with tal := { s.tal with waits := s.tal.waits.eraseIdx i } })

/-- A tally-aperture offset that an access of a width may name (R382). -/
def tallyAccess (s : State) (ctx off len : Nat) : Bool :=
  decide (off % 8 = 0 ∧ off < 0x80000 ∧ (len = 4 ∨ len = 8)) && tallyAllowed s (ctxTenant s ctx) (off / 8)

/-- TALLY_READ (R378, R382): value and OVF; 4 bytes reach the value alone. Any other access is a PROTECTION fault (R381). -/
def execTallyRead (shop ctx off len : Nat) (s : State) : Res :=
  if tallyAccess s ctx off len then
    .next (answerBytes (leBytes len (readTally s (off / 8) % 2 ^ (8 * len))) (answer (readTally s (off / 8) % 2 ^ (8 * len)) s))
  else .next (workFault shop 5 0 1 ctx 0 0 s)

/-- TALLY_SET (R382): the value is data[31:0] and OVF is cleared; no release. -/
def execTallySet (shop ctx off len data : Nat) (s : State) : Res :=
  if tallyAccess s ctx off len then .next (storeTally (off / 8) (data % 2 ^ 32) s)
  else .next (workFault shop 5 0 3 ctx 0 0 s)

/-- REDUCTION_WRITE (R386): every 4-byte element is combined with the warehouse element; a partial element, or an address that leads
to no alias, is a PROTECTION fault. -/
def execReductionWrite (shop ctx addr : Nat) (data : List (BitVec 8)) (s : State) : Res :=
  match resolve s (ctxTenant s ctx) addr with
  | .reduce _ _ =>
    if writeOk s ctx (ctxTenant s ctx) addr data.length && decide (data ≠ []) then .next (writeCtx (ctxTenant s ctx) addr data s)
    else .next (workFault shop 5 0 3 ctx 0 0 s)
  | _ => .next (workFault shop 5 0 3 ctx 0 0 s)

end Sys2Proof.Machine
end

