-- ==== Sys2Proof/Machine/Dispatch.lean ====
section
/-! DEFINITION. The dispatcher: one arm per command, each a direct call of its meaning. -/

namespace Sys2Proof.Machine

open Host

/-- The effect of a command on everything but the queue. -/
def exec (i : Instr) (s : State) : Host.Outcome State Fault Refusal :=
  match i with
  | .registerWrite path off size value guard ins time => Sys2Proof.Machine.execRegisterWrite path off size value guard ins time s
  | .rcRead path off size time => Sys2Proof.Machine.execRcRead path off size time s
  | .bridgeLaneLoss bridge lost spares => Sys2Proof.Machine.execBridgeLaneLoss bridge lost spares s
  | .load shop => Sys2Proof.Machine.execLoad shop s
  | .loadPlane shop => Sys2Proof.Machine.execLoadPlane shop s
  | .pass shop idle feed drain long => Sys2Proof.Machine.execPass shop idle feed drain long s
  | .weightRowWrite shop row slot => Sys2Proof.Machine.execWeightRowWrite shop row slot s
  | .passDrain shop flagged row col parity multi => Sys2Proof.Machine.execPassDrain shop flagged row col parity multi s
  | .arrayReplay shop again => Sys2Proof.Machine.execArrayReplay shop again s
  | .kload shop => Sys2Proof.Machine.execKload shop s
  | .launch shop => Sys2Proof.Machine.execLaunch shop s
  | .launchComplete shop => Sys2Proof.Machine.execLaunchComplete shop s
  | .store shop => Sys2Proof.Machine.execStore shop s
  | .storeKv shop => Sys2Proof.Machine.execStoreKv shop s
  | .xlayout shop cycles => Sys2Proof.Machine.execXlayout shop cycles s
  | .xgather shop cycles => Sys2Proof.Machine.execXgather shop cycles s
  | .xscatter shop cycles => Sys2Proof.Machine.execXscatter shop cycles s
  | .nop shop engine => Sys2Proof.Machine.execNop shop engine s
  | .stockroomClearDone shop => Sys2Proof.Machine.execStockroomClearDone shop s
  | .sadd shop bench d a b c m fmt => Sys2Proof.Machine.execSadd shop bench d a b c m fmt s
  | .ssub shop bench d a b c m fmt => Sys2Proof.Machine.execSsub shop bench d a b c m fmt s
  | .smul shop bench d a b c m fmt => Sys2Proof.Machine.execSmul shop bench d a b c m fmt s
  | .sand shop bench d a b c m fmt => Sys2Proof.Machine.execSand shop bench d a b c m fmt s
  | .sor shop bench d a b c m fmt => Sys2Proof.Machine.execSor shop bench d a b c m fmt s
  | .sxor shop bench d a b c m fmt => Sys2Proof.Machine.execSxor shop bench d a b c m fmt s
  | .sshl shop bench d a b c m fmt => Sys2Proof.Machine.execSshl shop bench d a b c m fmt s
  | .sshr shop bench d a b c m fmt => Sys2Proof.Machine.execSshr shop bench d a b c m fmt s
  | .ssra shop bench d a b c m fmt => Sys2Proof.Machine.execSsra shop bench d a b c m fmt s
  | .sslt shop bench d a b c m fmt => Sys2Proof.Machine.execSslt shop bench d a b c m fmt s
  | .smin shop bench d a b c m fmt => Sys2Proof.Machine.execSmin shop bench d a b c m fmt s
  | .smax shop bench d a b c m fmt => Sys2Proof.Machine.execSmax shop bench d a b c m fmt s
  | .saddi shop bench d a imm => Sys2Proof.Machine.execSaddi shop bench d a imm s
  | .slui shop bench d a imm => Sys2Proof.Machine.execSlui shop bench d a imm s
  | .vbcast shop bench d a b c m fmt => Sys2Proof.Machine.execVbcast shop bench d a b c m fmt s
  | .sfadd shop bench d a b c m fmt => Sys2Proof.Machine.execSfadd shop bench d a b c m fmt s
  | .sfmul shop bench d a b c m fmt => Sys2Proof.Machine.execSfmul shop bench d a b c m fmt s
  | .sffma shop bench d a b c m fmt => Sys2Proof.Machine.execSffma shop bench d a b c m fmt s
  | .sflt shop bench d a b c m fmt => Sys2Proof.Machine.execSflt shop bench d a b c m fmt s
  | .sfcvt shop bench d a b c m fmt => Sys2Proof.Machine.execSfcvt shop bench d a b c m fmt s
  | .vmvs shop bench d a b c m fmt => Sys2Proof.Machine.execVmvs shop bench d a b c m fmt s
  | .csrr shop bench d a imm => Sys2Proof.Machine.execCsrr shop bench d a imm s
  | .csrw shop bench d a imm => Sys2Proof.Machine.execCsrw shop bench d a imm s
  | .beq shop bench a b off => Sys2Proof.Machine.execBeq shop bench a b off s
  | .bne shop bench a b off => Sys2Proof.Machine.execBne shop bench a b off s
  | .blt shop bench a b off => Sys2Proof.Machine.execBlt shop bench a b off s
  | .bge shop bench a b off => Sys2Proof.Machine.execBge shop bench a b off s
  | .jal shop bench d a imm => Sys2Proof.Machine.execJal shop bench d a imm s
  | .jr shop bench d a b c m fmt => Sys2Proof.Machine.execJr shop bench d a b c m fmt s
  | .loop shop bench d a imm => Sys2Proof.Machine.execLoop shop bench d a imm s
  | .halt shop bench d a b c m fmt => Sys2Proof.Machine.execHalt shop bench d a b c m fmt s
  | .sldb shop bench d a imm => Sys2Proof.Machine.execSldb shop bench d a imm s
  | .sldw shop bench d a imm => Sys2Proof.Machine.execSldw shop bench d a imm s
  | .sldd shop bench d a imm => Sys2Proof.Machine.execSldd shop bench d a imm s
  | .sstb shop bench d a imm => Sys2Proof.Machine.execSstb shop bench d a imm s
  | .sstw shop bench d a imm => Sys2Proof.Machine.execSstw shop bench d a imm s
  | .sstd shop bench d a imm => Sys2Proof.Machine.execSstd shop bench d a imm s
  | .vld shop bench d a imm => Sys2Proof.Machine.execVld shop bench d a imm s
  | .vst shop bench d a imm => Sys2Proof.Machine.execVst shop bench d a imm s
  | .vldm shop bench d a imm => Sys2Proof.Machine.execVldm shop bench d a imm s
  | .vstm shop bench d a imm => Sys2Proof.Machine.execVstm shop bench d a imm s
  | .benchLoadReturn shop bench acc stall => Sys2Proof.Machine.execBenchLoadReturn shop bench acc stall s
  | .satom shop bench d a b c m fmt => Sys2Proof.Machine.execSatom shop bench d a b c m fmt s
  | .mwait shop bench d a imm => Sys2Proof.Machine.execMwait shop bench d a imm s
  | .fence shop bench d a b c m fmt => Sys2Proof.Machine.execFence shop bench d a b c m fmt s
  | .twait shop bench d a b c m fmt => Sys2Proof.Machine.execTwait shop bench d a b c m fmt s
  | .tsig shop bench d a b c m fmt => Sys2Proof.Machine.execTsig shop bench d a b c m fmt s
  | .rng shop bench d a b c m fmt => Sys2Proof.Machine.execRng shop bench d a b c m fmt s
  | .vadd shop bench d a b c m fmt => Sys2Proof.Machine.execVadd shop bench d a b c m fmt s
  | .vsub shop bench d a b c m fmt => Sys2Proof.Machine.execVsub shop bench d a b c m fmt s
  | .vmul shop bench d a b c m fmt => Sys2Proof.Machine.execVmul shop bench d a b c m fmt s
  | .vfma shop bench d a b c m fmt => Sys2Proof.Machine.execVfma shop bench d a b c m fmt s
  | .vmax shop bench d a b c m fmt => Sys2Proof.Machine.execVmax shop bench d a b c m fmt s
  | .vmin shop bench d a b c m fmt => Sys2Proof.Machine.execVmin shop bench d a b c m fmt s
  | .vneg shop bench d a b c m fmt => Sys2Proof.Machine.execVneg shop bench d a b c m fmt s
  | .vexp shop bench d a b c m fmt => Sys2Proof.Machine.execVexp shop bench d a b c m fmt s
  | .vrsq shop bench d a b c m fmt => Sys2Proof.Machine.execVrsq shop bench d a b c m fmt s
  | .vrcp shop bench d a b c m fmt => Sys2Proof.Machine.execVrcp shop bench d a b c m fmt s
  | .vcmp shop bench d a b c m fmt => Sys2Proof.Machine.execVcmp shop bench d a b c m fmt s
  | .vsel shop bench d a b c m fmt => Sys2Proof.Machine.execVsel shop bench d a b c m fmt s
  | .vcvt shop bench d a src dst part m => Sys2Proof.Machine.execVcvt shop bench d a src dst part m s
  | .vred shop bench d a b c m fmt => Sys2Proof.Machine.execVred shop bench d a b c m fmt s
  | .vperm shop bench d a b c m fmt => Sys2Proof.Machine.execVperm shop bench d a b c m fmt s
  | .benchUncorrectableError shop bench place slot => Sys2Proof.Machine.execBenchUncorrectableError shop bench place slot s
  | .shopBenchReset shop value => Sys2Proof.Machine.execShopBenchReset shop value s
  | .benchResetStart shop bench => Sys2Proof.Machine.execBenchResetStart shop bench s
  | .benchResetDone shop bench => Sys2Proof.Machine.execBenchResetDone shop bench s
  | .benchFwTake shop => Sys2Proof.Machine.execBenchFwTake shop s
  | .sheetLoad shop ctx addr => Sys2Proof.Machine.execSheetLoad shop ctx addr s
  | .sheetImageLoaded shop bank => Sys2Proof.Machine.execSheetImageLoaded shop bank s
  | .go shop ctx addr => Sys2Proof.Machine.execGo shop ctx addr s
  | .sheetStart shop bank => Sys2Proof.Machine.execSheetStart shop bank s
  | .ticketList shop ctx addr => Sys2Proof.Machine.execTicketList shop ctx addr s
  | .cancelEntry shop ctx => Sys2Proof.Machine.execCancelEntry shop ctx s
  | .templateEmit shop bank => Sys2Proof.Machine.execTemplateEmit shop bank s
  | .commandStart shop engine => Sys2Proof.Machine.execCommandStart shop engine s
  | .commandComplete shop engine => Sys2Proof.Machine.execCommandComplete shop engine s
  | .ticketIssue shop => Sys2Proof.Machine.execTicketIssue shop s
  | .preemption shop => Sys2Proof.Machine.execPreemption shop s
  | .resumeRecordWrite shop bank => Sys2Proof.Machine.execResumeRecordWrite shop bank s
  | .resumeGo shop ctx addr => Sys2Proof.Machine.execResumeGo shop ctx addr s
  | .watchdog shop => Sys2Proof.Machine.execWatchdog shop s
  | .stackRequest stack ch arriving grants busy fullCycles time => Sys2Proof.Machine.execStackRequest stack ch arriving grants busy fullCycles time s
  | .vmapFetchDone stack frame => Sys2Proof.Machine.execVmapFetchDone stack frame s
  | .frameFillDone stack frame => Sys2Proof.Machine.execFrameFillDone stack frame s
  | .refresh stack bank cycles => Sys2Proof.Machine.execRefresh stack bank cycles s
  | .xlateMissFetch => Sys2Proof.Machine.execXlateMissFetch s
  | .invocationStart seq => Sys2Proof.Machine.execInvocationStart seq s
  | .invocationComplete stack => Sys2Proof.Machine.execInvocationComplete stack s
  | .microNop stack fuller => Sys2Proof.Machine.execMicroNop stack fuller s
  | .setp stack fuller => Sys2Proof.Machine.execSetp stack fuller s
  | .aload stack fuller => Sys2Proof.Machine.execAload stack fuller s
  | .stream stack fuller => Sys2Proof.Machine.execStream stack fuller s
  | .kvread stack fuller => Sys2Proof.Machine.execKvread stack fuller s
  | .vop stack fuller => Sys2Proof.Machine.execVop stack fuller s
  | .vsum stack fuller => Sys2Proof.Machine.execVsum stack fuller s
  | .combine stack fuller => Sys2Proof.Machine.execCombine stack fuller s
  | .rstore stack fuller => Sys2Proof.Machine.execRstore stack fuller s
  | .mergeResultWrite stack => Sys2Proof.Machine.execMergeResultWrite stack s
  | .mstore stack fuller => Sys2Proof.Machine.execMstore stack fuller s
  | .append stack fuller => Sys2Proof.Machine.execAppend stack fuller s
  | .sync stack fuller => Sys2Proof.Machine.execSync stack fuller s
  | .microLoop stack fuller => Sys2Proof.Machine.execMicroLoop stack fuller s
  | .microHalt stack fuller => Sys2Proof.Machine.execMicroHalt stack fuller s
  | .invocationStopRequest stack => Sys2Proof.Machine.execInvocationStopRequest stack s
  | .invocationStopped stack => Sys2Proof.Machine.execInvocationStopped stack s
  | .fullerUncorrectableError stack fuller => Sys2Proof.Machine.execFullerUncorrectableError stack fuller s
  | .fullerLibTake stack => Sys2Proof.Machine.execFullerLibTake stack s
  | .kvApertureRead shop ctx off len => Sys2Proof.Machine.execKvApertureRead shop ctx off len s
  | .openOrder ring tag cpl lc noCellar grammarEn model grammar evmask deadline ttl cellarAfter params => Sys2Proof.Machine.execOpenOrder ring tag cpl lc noCellar grammarEn model grammar evmask deadline ttl cellarAfter params s
  | .feed ring tag cpl order gen list count maxNew isMatch scan => Sys2Proof.Machine.execFeed ring tag cpl order gen list count maxNew isMatch scan s
  | .stop ring tag cpl order gen => Sys2Proof.Machine.execStop ring tag cpl order gen s
  | .truncate ring tag cpl order gen length => Sys2Proof.Machine.execTruncate ring tag cpl order gen length s
  | .cellar ring tag cpl order gen => Sys2Proof.Machine.execCellar ring tag cpl order gen s
  | .recall ring tag cpl order gen => Sys2Proof.Machine.execRecall ring tag cpl order gen s
  | .setTtl ring tag cpl order gen seconds scan => Sys2Proof.Machine.execSetTtl ring tag cpl order gen seconds scan s
  | .storePrefix ring tag cpl order gen list pages => Sys2Proof.Machine.execStorePrefix ring tag cpl order gen list pages s
  | .dropPrefixes ring tag cpl model => Sys2Proof.Machine.execDropPrefixes ring tag cpl model s
  | .query ring tag cpl order gen => Sys2Proof.Machine.execQuery ring tag cpl order gen s
  | .close ring tag cpl order gen => Sys2Proof.Machine.execClose ring tag cpl order gen s
  | .forceClose tag order => Sys2Proof.Machine.execForceClose tag order s
  | .cellaringCopyDone order => Sys2Proof.Machine.execCellaringCopyDone order s
  | .recallCopyDone order => Sys2Proof.Machine.execRecallCopyDone order s
  | .recallWaitExpiry order => Sys2Proof.Machine.execRecallWaitExpiry order s
  | .ttlExpiry order => Sys2Proof.Machine.execTtlExpiry order s
  | .cellarAfterExpiry order => Sys2Proof.Machine.execCellarAfterExpiry order s
  | .deadlineMiss order => Sys2Proof.Machine.execDeadlineMiss order s
  | .attachCopyDone order => Sys2Proof.Machine.execAttachCopyDone order s
  | .prefixStoreCopyDone order => Sys2Proof.Machine.execPrefixStoreCopyDone order s
  | .logitDelivery order values poison => Sys2Proof.Machine.execLogitDelivery order values poison s
  | .heldDeliveryAccept selector => Sys2Proof.Machine.execHeldDeliveryAccept selector s
  | .selection selector waited => Sys2Proof.Machine.execSelection selector waited s
  | .maskBuild selector => Sys2Proof.Machine.execMaskBuild selector s
  | .selectorFail selector => Sys2Proof.Machine.execSelectorFail selector s
  | .migrationCopyDone granule => Sys2Proof.Machine.execMigrationCopyDone granule s
  | .bellBoundary b => Sys2Proof.Machine.execBellBoundary b s
  | .bellEarlyScan vf value time => Sys2Proof.Machine.execBellEarlyScan vf value time s
  | .earlyScan cells fails cmds time => Sys2Proof.Machine.execEarlyScan cells fails cmds time s
  | .dispatchAdmit time => Sys2Proof.Machine.execDispatchAdmit time s
  | .holdRelease time => Sys2Proof.Machine.execHoldRelease time s
  | .governorSample energy time => Sys2Proof.Machine.execGovernorSample energy time s
  | .ledgerClose => Sys2Proof.Machine.execLedgerClose s
  | .thermalSample channel reading time => Sys2Proof.Machine.execThermalSample channel reading time s
  | .graceExpiry unit => Sys2Proof.Machine.execGraceExpiry unit s
  | .shutdownTrip channel reading wire time => Sys2Proof.Machine.execShutdownTrip channel reading wire time s
  | .tripLatchClear time => Sys2Proof.Machine.execTripLatchClear time s
  | .sensorFail channel wire time => Sys2Proof.Machine.execSensorFail channel wire time s
  | .flashTempSample reading => Sys2Proof.Machine.execFlashTempSample reading s
  | .tallyWaitSatisfied tally => Sys2Proof.Machine.execTallyWaitSatisfied tally s
  | .tallyRead shop ctx off len => Sys2Proof.Machine.execTallyRead shop ctx off len s
  | .tallySet shop ctx off len data => Sys2Proof.Machine.execTallySet shop ctx off len data s
  | .reductionWrite shop ctx addr data => Sys2Proof.Machine.execReductionWrite shop ctx addr data s
  | .signalDetect port time => Sys2Proof.Machine.execSignalDetect port time s
  | .trainingDone port errs peer peerPort latency time => Sys2Proof.Machine.execTrainingDone port errs peer peerPort latency time s
  | .portRetrain port time => Sys2Proof.Machine.execPortRetrain port time s
  | .codewordReceive port correct fixed seq ack nak credits sent taken stalled unknown => Sys2Proof.Machine.execCodewordReceive port correct fixed seq ack nak credits sent taken stalled unknown s
  | .laneFail port lane errors time => Sys2Proof.Machine.execLaneFail port lane errors time s
  | .signalLoss port time => Sys2Proof.Machine.execSignalLoss port time s
  | .portDown port time => Sys2Proof.Machine.execPortDown port time s
  | .read port ecrcOk p => Sys2Proof.Machine.execRead port ecrcOk p s
  | .readData port ecrcOk p => Sys2Proof.Machine.execReadData port ecrcOk p s
  | .write port ecrcOk p => Sys2Proof.Machine.execWrite port ecrcOk p s
  | .writeAck port ecrcOk p => Sys2Proof.Machine.execWriteAck port ecrcOk p s
  | .atomic port ecrcOk p => Sys2Proof.Machine.execAtomic port ecrcOk p s
  | .atomicData port ecrcOk p => Sys2Proof.Machine.execAtomicData port ecrcOk p s
  | .balisSignal port ecrcOk p => Sys2Proof.Machine.execBalisSignal port ecrcOk p s
  | .signalAck port ecrcOk p => Sys2Proof.Machine.execSignalAck port ecrcOk p s
  | .collReady port ecrcOk p => Sys2Proof.Machine.execCollReady port ecrcOk p s
  | .collData port ecrcOk p => Sys2Proof.Machine.execCollData port ecrcOk p s
  | .ctrl port ecrcOk p => Sys2Proof.Machine.execCtrl port ecrcOk p s
  | .ctrlAck port ecrcOk p => Sys2Proof.Machine.execCtrlAck port ecrcOk p s
  | .busyRetry port ecrcOk p time => Sys2Proof.Machine.execBusyRetry port ecrcOk p time s
  | .unreachable port ecrcOk p => Sys2Proof.Machine.execUnreachable port ecrcOk p s
  | .refused port ecrcOk p => Sys2Proof.Machine.execRefused port ecrcOk p s
  | .retryResend request time => Sys2Proof.Machine.execRetryResend request time s
  | .requestTimeout request time => Sys2Proof.Machine.execRequestTimeout request time s
  | .bellMark port bell phase period fewest time => Sys2Proof.Machine.execBellMark port bell phase period fewest time s
  | .bellSourceLost => Sys2Proof.Machine.execBellSourceLost s
  | .collectiveStart inst => Sys2Proof.Machine.execCollectiveStart inst s
  | .collectiveFold inst => Sys2Proof.Machine.execCollectiveFold inst s
  | .collectiveComplete inst => Sys2Proof.Machine.execCollectiveComplete inst s
  | .perstAssert => Sys2Proof.Machine.execPerstAssert s
  | .perstRelease time => Sys2Proof.Machine.execPerstRelease time s
  | .pfFlr => Sys2Proof.Machine.execPfFlr s
  | .vfFlr vf => Sys2Proof.Machine.execVfFlr vf s
  | .vfEnableClear enable numVfs => Sys2Proof.Machine.execVfEnableClear enable numVfs s
  | .hqDbBase value => Sys2Proof.Machine.execHqDbBase value s
  | .modelLoad ring tag image len img => Sys2Proof.Machine.execModelLoad ring tag image len img s
  | .modelUnload ring tag model => Sys2Proof.Machine.execModelUnload ring tag model s
  | .grammarLoad ring tag image len => Sys2Proof.Machine.execGrammarLoad ring tag image len s
  | .grammarUnload ring tag grammar => Sys2Proof.Machine.execGrammarUnload ring tag grammar s
  | .map ring tag addr size page wh quarter => Sys2Proof.Machine.execMap ring tag addr size page wh quarter s
  | .unmap ring tag addr size => Sys2Proof.Machine.execUnmap ring tag addr size s
  | .copy ring tag lc src dst len tally inc sigEn => Sys2Proof.Machine.execCopy ring tag lc src dst len tally inc sigEn s
  | .signal ring tag cpl tally inc => Sys2Proof.Machine.execSignal ring tag cpl tally inc s
  | .run ring tag lc model program args => Sys2Proof.Machine.execRun ring tag lc model program args s
  | .cancel ring tag cpl runTag => Sys2Proof.Machine.execCancel ring tag cpl runTag s
  | .tenantEnable ring tag tenant => Sys2Proof.Machine.execTenantEnable ring tag tenant s
  | .tenantDisable ring tag tenant => Sys2Proof.Machine.execTenantDisable ring tag tenant s
  | .benchFw ring tag image shop sigOk => Sys2Proof.Machine.execBenchFw ring tag image shop sigOk s
  | .fullerLib ring tag image stack sigOk version crc lib => Sys2Proof.Machine.execFullerLib ring tag image stack sigOk version crc lib s
  | .runComplete ring tag => Sys2Proof.Machine.execRunComplete ring tag s
  | .farEnumerate port supported width speed capacity => Sys2Proof.Machine.execFarEnumerate port supported width speed capacity s
  | .farPortDown port cause => Sys2Proof.Machine.execFarPortDown port cause s
  | .scrubGo => Sys2Proof.Machine.execScrubGo s
  | .scrubAbort => Sys2Proof.Machine.execScrubAbort s
  | .scrubRead stack symbols bit => Sys2Proof.Machine.execScrubRead stack symbols bit s
  | .scrubDone => Sys2Proof.Machine.execScrubDone s
  | .columnRepairDone stack die bank column => Sys2Proof.Machine.execColumnRepairDone stack die bank column s
  | .sramRowRepaired warehouse bank addr uncorrectable => Sys2Proof.Machine.execSramRowRepaired warehouse bank addr uncorrectable s
  | .rasFarRetire port unit => Sys2Proof.Machine.execRasFarRetire port unit s
  | .shopSparing shop cause readable => Sys2Proof.Machine.execShopSparing shop cause readable s
  | .shopSpareMoveDone shop => Sys2Proof.Machine.execShopSpareMoveDone shop s
  | .dieLost stack die cause => Sys2Proof.Machine.execDieLost stack die cause s
  | .hostmgmtUe kind index => Sys2Proof.Machine.execHostmgmtUe kind index s
  | .auxPowerOn time => Sys2Proof.Machine.execAuxPowerOn time s
  | .sysRstNRelease okA okB time => Sys2Proof.Machine.execSysRstNRelease okA okB time s
  | .thermalGate time => Sys2Proof.Machine.execThermalGate time s
  | .firmwareBroadcast fw lib fails time => Sys2Proof.Machine.execFirmwareBroadcast fw lib fails time s
  | .selfTest fails time => Sys2Proof.Machine.execSelfTest fails time s
  | .ready time => Sys2Proof.Machine.execReady time s
  | .sysRstNAssert time => Sys2Proof.Machine.execSysRstNAssert time s
  | .pwrOkFall high time => Sys2Proof.Machine.execPwrOkFall high time s
  | .supplyOutOfRange mv time => Sys2Proof.Machine.execSupplyOutOfRange mv time s
  | .auxPowerLoss time => Sys2Proof.Machine.execAuxPowerLoss time s
  | .shopReset unit update => Sys2Proof.Machine.execShopReset unit update s
  | .quarterReset unit update => Sys2Proof.Machine.execQuarterReset unit update s
  | .stackReset unit update => Sys2Proof.Machine.execStackReset unit update s
  | .computePartReset chan => Sys2Proof.Machine.execComputePartReset chan s
  | .drainEnd scope unit time => Sys2Proof.Machine.execDrainEnd scope unit time s
  | .drainTimeout scope unit time => Sys2Proof.Machine.execDrainTimeout scope unit time s
  | .resetTestDone scope unit fails time => Sys2Proof.Machine.execResetTestDone scope unit fails time s
  | .retry tenant addr => Sys2Proof.Machine.execRetry tenant addr s
  | .bellboardSource source asserted gated time => Sys2Proof.Machine.execBellboardSource source asserted gated time s
  | .bbdClaim path source time => Sys2Proof.Machine.execBbdClaim path source time s
  | .bbdComplete path source time => Sys2Proof.Machine.execBbdComplete path source time s
  | .bbdPend path word value time => Sys2Proof.Machine.execBbdPend path word value time s
  | .lockAcquire steward lock epoch time => Sys2Proof.Machine.execLockAcquire steward lock epoch time s
  | .lockRelease steward lock epoch mem time => Sys2Proof.Machine.execLockRelease steward lock epoch mem time s
  | .leaseExpiry lock time => Sys2Proof.Machine.execLeaseExpiry lock time s
  | .stewardWatchdog steward => Sys2Proof.Machine.execStewardWatchdog steward s
  | .stewardRestartDone steward => Sys2Proof.Machine.execStewardRestartDone steward s
  | .challenge path time => Sys2Proof.Machine.execChallenge path time s
  | .respond path ins time => Sys2Proof.Machine.execRespond path ins time s
  | .roleClose path time => Sys2Proof.Machine.execRoleClose path time s
  | .unlock path mask time => Sys2Proof.Machine.execUnlock path mask time s
  | .imageWrite path kind ins time => Sys2Proof.Machine.execImageWrite path kind ins time s
  | .sessionTimeout time => Sys2Proof.Machine.execSessionTimeout time s
  | .lockoutExpiry time => Sys2Proof.Machine.execLockoutExpiry time s
  | .glbLock path value time => Sys2Proof.Machine.execGlbLock path value time s
  | .glbRecoveryAddr address ins time => Sys2Proof.Machine.execGlbRecoveryAddr address ins time s
  | .fuseProgram chan kind object words closed time => Sys2Proof.Machine.execFuseProgram chan kind object words closed time s
  | .bypass => Sys2Proof.Machine.execBypass s
  | .idcode => Sys2Proof.Machine.execIdcode s
  | .samplePreload lands outputs => Sys2Proof.Machine.execSamplePreload lands outputs s
  | .extest lands outputs => Sys2Proof.Machine.execExtest lands outputs s
  | .dtmcs => Sys2Proof.Machine.execDtmcs s
  | .dmi op time => Sys2Proof.Machine.execDmi op time s
  | .jtagRole words ins time => Sys2Proof.Machine.execJtagRole words ins time s
  | .recovery ins time => Sys2Proof.Machine.execRecovery ins time s
  | .trstN => Sys2Proof.Machine.execTrstN s
  | .debugApertureRead device address size time => Sys2Proof.Machine.execDebugApertureRead device address size time s
  | .obkSel order => Sys2Proof.Machine.execObkSel order s
  | .plcMapSel granule => Sys2Proof.Machine.execPlcMapSel granule s
  | .statTsel tenant => Sys2Proof.Machine.execStatTsel tenant s
  | .statBsel value => Sys2Proof.Machine.execStatBsel value s
  | .rasLogSel seq nv => Sys2Proof.Machine.execRasLogSel seq nv s
  | .nvLogReadDone => Sys2Proof.Machine.execNvLogReadDone s
  | .roleAuditSel seq => Sys2Proof.Machine.execRoleAuditSel seq s
  | .ident => Sys2Proof.Machine.execIdent s
  | .state => Sys2Proof.Machine.execState s
  | .alert => Sys2Proof.Machine.execAlert s
  | .trip => Sys2Proof.Machine.execTrip s
  | .quarters => Sys2Proof.Machine.execQuarters s
  | .stackTemps => Sys2Proof.Machine.execStackTemps s
  | .channels => Sys2Proof.Machine.execChannels s
  | .power mv current => Sys2Proof.Machine.execPower mv current s
  | .links => Sys2Proof.Machine.execLinks s
  | .regAddr offset => Sys2Proof.Machine.execRegAddr offset s
  | .regDataRead time => Sys2Proof.Machine.execRegDataRead time s
  | .regDataWrite value ins time => Sys2Proof.Machine.execRegDataWrite value ins time s
  | .lockstepFailure steward restart => Sys2Proof.Machine.execLockstepFailure steward restart s
  | .stackChannelLaneFailure stack channel lane => Sys2Proof.Machine.execStackChannelLaneFailure stack channel lane s
  | .laneRetestDone port lane passed => Sys2Proof.Machine.execLaneRetestDone port lane passed s
  | .signalReturn port time => Sys2Proof.Machine.execSignalReturn port time s
  | .balisReferenceFailure ref time => Sys2Proof.Machine.execBalisReferenceFailure ref time s
  | .linkDegraded width speed => Sys2Proof.Machine.execLinkDegraded width speed s
  | .farMediaReady port => Sys2Proof.Machine.execFarMediaReady port s
  | .farDeviceEvent port types => Sys2Proof.Machine.execFarDeviceEvent port types s
  | .farPrsntN port high => Sys2Proof.Machine.execFarPrsntN port high s
  | .thermalGateTimeout time => Sys2Proof.Machine.execThermalGateTimeout time s
  | .modelLoadDone ring tag hostError => Sys2Proof.Machine.execModelLoadDone ring tag hostError s
  | .copyDone ring tag => Sys2Proof.Machine.execCopyDone ring tag s
  | .writeCompletion shop bench acc => Sys2Proof.Machine.execWriteCompletion shop bench acc s
  | .cellarUnitRead order unit failure => Sys2Proof.Machine.execCellarUnitRead order unit failure s
  | .cellarWriteError order => Sys2Proof.Machine.execCellarWriteError order s

end Sys2Proof.Machine
end

