-- ==== Sys2Proof/WellFormed.lean ====
section
/-! DEFINITION. Well-formed commands: the operands that stand for fields or numbers of the spec lie in their ranges. A meaning is defined for every command;
one that is not well-formed cannot arrive. -/

namespace Sys2Proof

open Machine

/-- A number below a bound. -/
def lt (b x : Nat) : Bool := decide (x < b)
/-- A field of a width in bits. -/
def bits (w x : Nat) : Bool := decide (x < 2 ^ w)
/-- An optional field of a width. -/
def optBits (w : Nat) (x : Option Nat) : Bool := x.all (bits w)
/-- A logical shop (R13). -/
def isShop (x : Nat) : Bool := lt 320 x
/-- A logical shop, or 0x1FF for all (Table 17.5). -/
def isShopOrAll (x : Nat) : Bool := isShop x || decide (x = 0x1FF)
/-- A bench of a shop. -/
def isBench (x : Nat) : Bool := lt 256 x
/-- An active stack. -/
def isStack (x : Nat) : Bool := lt 12 x
/-- A stack, or 0xF for all (Table 17.5). -/
def isStackOrAll (x : Nat) : Bool := isStack x || decide (x = 0xF)
/-- A logical fuller of a stack. -/
def isFuller (x : Nat) : Bool := lt 512 x
/-- A quarter, a token selector, a far port or a bridge. -/
def isQuarter (x : Nat) : Bool := lt 4 x
/-- A Balis port. -/
def isPort (x : Nat) : Bool := lt 16 x
/-- A bench register. -/
def isReg (x : Nat) : Bool := lt 32 x
/-- A ring set: a tenant's, or 4,096 for the operator's (R430). -/
def isRing (x : Nat) : Bool := lt 4097 x
/-- A steward. -/
def isSteward (x : Nat) : Bool := lt 8 x
/-- A temperature channel (Table 14.1). -/
def isChannel (x : Nat) : Bool := lt 56 x
/-- A register path: a virtual function up to 4,096, or one of the eight stewards. -/
def isPath (p : RegPath) : Bool :=
  match p with
  | .vf v => lt 4097 v
  | .steward h => isSteward h
  | _ => true

/-- Is a command well-formed? -/
def Instr.wellFormed (i : Instr) : Bool :=
  match i with
  | .registerWrite path off size value guard _ _ => isPath path && bits 32 off && lt 9 size && bits 64 value && optBits 8 guard
  | .rcRead path off size _ => isPath path && bits 32 off && lt 9 size
  | .bridgeLaneLoss bridge _ _ => isQuarter bridge
  | .load shop => isShop shop
  | .loadPlane shop => isShop shop
  | .pass shop _ _ _ _ => isShop shop
  | .weightRowWrite shop row _ => isShop shop && bits 7 row
  | .passDrain shop _ row col _ _ => isShop shop && bits 8 row && bits 8 col
  | .arrayReplay shop _ => isShop shop
  | .kload shop => isShop shop
  | .launch shop => isShop shop
  | .launchComplete shop => isShop shop
  | .store shop => isShop shop
  | .storeKv shop => isShop shop
  | .xlayout shop _ => isShop shop
  | .xgather shop _ => isShop shop
  | .xscatter shop _ => isShop shop
  | .nop shop engine => isShop shop && lt 5 engine
  | .stockroomClearDone shop => isShop shop
  | .sadd shop bench d a b c m fmt => isShop shop && isBench bench && isReg d && isReg a && isReg b && isReg c && bits 3 m && bits 3 fmt
  | .ssub shop bench d a b c m fmt => isShop shop && isBench bench && isReg d && isReg a && isReg b && isReg c && bits 3 m && bits 3 fmt
  | .smul shop bench d a b c m fmt => isShop shop && isBench bench && isReg d && isReg a && isReg b && isReg c && bits 3 m && bits 3 fmt
  | .sand shop bench d a b c m fmt => isShop shop && isBench bench && isReg d && isReg a && isReg b && isReg c && bits 3 m && bits 3 fmt
  | .sor shop bench d a b c m fmt => isShop shop && isBench bench && isReg d && isReg a && isReg b && isReg c && bits 3 m && bits 3 fmt
  | .sxor shop bench d a b c m fmt => isShop shop && isBench bench && isReg d && isReg a && isReg b && isReg c && bits 3 m && bits 3 fmt
  | .sshl shop bench d a b c m fmt => isShop shop && isBench bench && isReg d && isReg a && isReg b && isReg c && bits 3 m && bits 3 fmt
  | .sshr shop bench d a b c m fmt => isShop shop && isBench bench && isReg d && isReg a && isReg b && isReg c && bits 3 m && bits 3 fmt
  | .ssra shop bench d a b c m fmt => isShop shop && isBench bench && isReg d && isReg a && isReg b && isReg c && bits 3 m && bits 3 fmt
  | .sslt shop bench d a b c m fmt => isShop shop && isBench bench && isReg d && isReg a && isReg b && isReg c && bits 3 m && bits 3 fmt
  | .smin shop bench d a b c m fmt => isShop shop && isBench bench && isReg d && isReg a && isReg b && isReg c && bits 3 m && bits 3 fmt
  | .smax shop bench d a b c m fmt => isShop shop && isBench bench && isReg d && isReg a && isReg b && isReg c && bits 3 m && bits 3 fmt
  | .saddi shop bench d a imm => isShop shop && isBench bench && isReg d && isReg a && bits 16 imm
  | .slui shop bench d a imm => isShop shop && isBench bench && isReg d && isReg a && bits 16 imm
  | .vbcast shop bench d a b c m fmt => isShop shop && isBench bench && isReg d && isReg a && isReg b && isReg c && bits 3 m && bits 3 fmt
  | .sfadd shop bench d a b c m fmt => isShop shop && isBench bench && isReg d && isReg a && isReg b && isReg c && bits 3 m && bits 3 fmt
  | .sfmul shop bench d a b c m fmt => isShop shop && isBench bench && isReg d && isReg a && isReg b && isReg c && bits 3 m && bits 3 fmt
  | .sffma shop bench d a b c m fmt => isShop shop && isBench bench && isReg d && isReg a && isReg b && isReg c && bits 3 m && bits 3 fmt
  | .sflt shop bench d a b c m fmt => isShop shop && isBench bench && isReg d && isReg a && isReg b && isReg c && bits 3 m && bits 3 fmt
  | .sfcvt shop bench d a b c m fmt => isShop shop && isBench bench && isReg d && isReg a && isReg b && isReg c && bits 3 m && bits 3 fmt
  | .vmvs shop bench d a b c m fmt => isShop shop && isBench bench && isReg d && isReg a && isReg b && isReg c && bits 3 m && bits 3 fmt
  | .csrr shop bench d a imm => isShop shop && isBench bench && isReg d && isReg a && bits 16 imm
  | .csrw shop bench d a imm => isShop shop && isBench bench && isReg d && isReg a && bits 16 imm
  | .beq shop bench a b off => isShop shop && isBench bench && isReg a && isReg b && bits 16 off
  | .bne shop bench a b off => isShop shop && isBench bench && isReg a && isReg b && bits 16 off
  | .blt shop bench a b off => isShop shop && isBench bench && isReg a && isReg b && bits 16 off
  | .bge shop bench a b off => isShop shop && isBench bench && isReg a && isReg b && bits 16 off
  | .jal shop bench d a imm => isShop shop && isBench bench && isReg d && isReg a && bits 16 imm
  | .jr shop bench d a b c m fmt => isShop shop && isBench bench && isReg d && isReg a && isReg b && isReg c && bits 3 m && bits 3 fmt
  | .loop shop bench d a imm => isShop shop && isBench bench && isReg d && isReg a && bits 16 imm
  | .halt shop bench d a b c m fmt => isShop shop && isBench bench && isReg d && isReg a && isReg b && isReg c && bits 3 m && bits 3 fmt
  | .sldb shop bench d a imm => isShop shop && isBench bench && isReg d && isReg a && bits 16 imm
  | .sldw shop bench d a imm => isShop shop && isBench bench && isReg d && isReg a && bits 16 imm
  | .sldd shop bench d a imm => isShop shop && isBench bench && isReg d && isReg a && bits 16 imm
  | .sstb shop bench d a imm => isShop shop && isBench bench && isReg d && isReg a && bits 16 imm
  | .sstw shop bench d a imm => isShop shop && isBench bench && isReg d && isReg a && bits 16 imm
  | .sstd shop bench d a imm => isShop shop && isBench bench && isReg d && isReg a && bits 16 imm
  | .vld shop bench d a imm => isShop shop && isBench bench && isReg d && isReg a && bits 16 imm
  | .vst shop bench d a imm => isShop shop && isBench bench && isReg d && isReg a && bits 16 imm
  | .vldm shop bench d a imm => isShop shop && isBench bench && isReg d && isReg a && bits 16 imm
  | .vstm shop bench d a imm => isShop shop && isBench bench && isReg d && isReg a && bits 16 imm
  | .benchLoadReturn shop bench _ _ => isShop shop && isBench bench
  | .satom shop bench d a b c m fmt => isShop shop && isBench bench && isReg d && isReg a && isReg b && isReg c && bits 3 m && bits 3 fmt
  | .mwait shop bench d a imm => isShop shop && isBench bench && isReg d && isReg a && bits 16 imm
  | .fence shop bench d a b c m fmt => isShop shop && isBench bench && isReg d && isReg a && isReg b && isReg c && bits 3 m && bits 3 fmt
  | .twait shop bench d a b c m fmt => isShop shop && isBench bench && isReg d && isReg a && isReg b && isReg c && bits 3 m && bits 3 fmt
  | .tsig shop bench d a b c m fmt => isShop shop && isBench bench && isReg d && isReg a && isReg b && isReg c && bits 3 m && bits 3 fmt
  | .rng shop bench d a b c m fmt => isShop shop && isBench bench && isReg d && isReg a && isReg b && isReg c && bits 3 m && bits 3 fmt
  | .vadd shop bench d a b c m fmt => isShop shop && isBench bench && isReg d && isReg a && isReg b && isReg c && bits 3 m && bits 3 fmt
  | .vsub shop bench d a b c m fmt => isShop shop && isBench bench && isReg d && isReg a && isReg b && isReg c && bits 3 m && bits 3 fmt
  | .vmul shop bench d a b c m fmt => isShop shop && isBench bench && isReg d && isReg a && isReg b && isReg c && bits 3 m && bits 3 fmt
  | .vfma shop bench d a b c m fmt => isShop shop && isBench bench && isReg d && isReg a && isReg b && isReg c && bits 3 m && bits 3 fmt
  | .vmax shop bench d a b c m fmt => isShop shop && isBench bench && isReg d && isReg a && isReg b && isReg c && bits 3 m && bits 3 fmt
  | .vmin shop bench d a b c m fmt => isShop shop && isBench bench && isReg d && isReg a && isReg b && isReg c && bits 3 m && bits 3 fmt
  | .vneg shop bench d a b c m fmt => isShop shop && isBench bench && isReg d && isReg a && isReg b && isReg c && bits 3 m && bits 3 fmt
  | .vexp shop bench d a b c m fmt => isShop shop && isBench bench && isReg d && isReg a && isReg b && isReg c && bits 3 m && bits 3 fmt
  | .vrsq shop bench d a b c m fmt => isShop shop && isBench bench && isReg d && isReg a && isReg b && isReg c && bits 3 m && bits 3 fmt
  | .vrcp shop bench d a b c m fmt => isShop shop && isBench bench && isReg d && isReg a && isReg b && isReg c && bits 3 m && bits 3 fmt
  | .vcmp shop bench d a b c m fmt => isShop shop && isBench bench && isReg d && isReg a && isReg b && isReg c && bits 3 m && bits 3 fmt
  | .vsel shop bench d a b c m fmt => isShop shop && isBench bench && isReg d && isReg a && isReg b && isReg c && bits 3 m && bits 3 fmt
  | .vcvt shop bench d a src dst part m => isShop shop && isBench bench && isReg d && isReg a && bits 4 src && bits 4 dst && bits 2 part && bits 3 m
  | .vred shop bench d a b c m fmt => isShop shop && isBench bench && isReg d && isReg a && isReg b && isReg c && bits 3 m && bits 3 fmt
  | .vperm shop bench d a b c m fmt => isShop shop && isBench bench && isReg d && isReg a && isReg b && isReg c && bits 3 m && bits 3 fmt
  | .benchUncorrectableError shop bench _ _ => isShop shop && isBench bench
  | .shopBenchReset shop value => isShop shop && bits 64 value
  | .benchResetStart shop bench => isShop shop && isBench bench
  | .benchResetDone shop bench => isShop shop && isBench bench
  | .benchFwTake shop => isShop shop
  | .sheetLoad shop ctx addr => isShop shop && bits 16 ctx && bits 64 addr
  | .sheetImageLoaded shop bank => isShop shop && lt 2 bank
  | .go shop ctx addr => isShop shop && bits 16 ctx && bits 64 addr
  | .sheetStart shop bank => isShop shop && lt 2 bank
  | .ticketList shop ctx addr => isShop shop && bits 16 ctx && bits 64 addr
  | .cancelEntry shop ctx => isShop shop && bits 16 ctx
  | .templateEmit shop bank => isShop shop && lt 2 bank
  | .commandStart shop engine => isShop shop && lt 5 engine
  | .commandComplete shop engine => isShop shop && lt 5 engine
  | .ticketIssue shop => isShop shop
  | .preemption shop => isShop shop
  | .resumeRecordWrite shop bank => isShop shop && lt 2 bank
  | .resumeGo shop ctx addr => isShop shop && bits 16 ctx && bits 64 addr
  | .watchdog shop => isShop shop
  | .stackRequest stack ch _ _ _ _ _ => isStack stack && lt 32 ch
  | .vmapFetchDone stack frame => isStack stack && bits 20 frame
  | .frameFillDone stack frame => isStack stack && bits 20 frame
  | .refresh stack bank _ => isStack stack && bits 6 bank
  | .xlateMissFetch => true
  | .invocationStart _ => true
  | .invocationComplete stack => isStack stack
  | .microNop stack fuller => isStack stack && isFuller fuller
  | .setp stack fuller => isStack stack && isFuller fuller
  | .aload stack fuller => isStack stack && isFuller fuller
  | .stream stack fuller => isStack stack && isFuller fuller
  | .kvread stack fuller => isStack stack && isFuller fuller
  | .vop stack fuller => isStack stack && isFuller fuller
  | .vsum stack fuller => isStack stack && isFuller fuller
  | .combine stack fuller => isStack stack && isFuller fuller
  | .rstore stack fuller => isStack stack && isFuller fuller
  | .mergeResultWrite stack => isStack stack
  | .mstore stack fuller => isStack stack && isFuller fuller
  | .append stack fuller => isStack stack && isFuller fuller
  | .sync stack fuller => isStack stack && isFuller fuller
  | .microLoop stack fuller => isStack stack && isFuller fuller
  | .microHalt stack fuller => isStack stack && isFuller fuller
  | .invocationStopRequest stack => isStack stack
  | .invocationStopped stack => isStack stack
  | .fullerUncorrectableError stack fuller => isStack stack && isFuller fuller
  | .fullerLibTake stack => isStack stack
  | .kvApertureRead shop ctx off len => isShop shop && bits 16 ctx && bits 48 off && bits 48 len
  | .openOrder ring tag _ _ _ _ model grammar evmask deadline ttl cellarAfter params => isRing ring && bits 32 tag && bits 12 model && bits 10 grammar && bits 16 evmask && bits 16 deadline && bits 17 ttl && bits 32 cellarAfter && bits 64 params
  | .feed ring tag _ order gen list count maxNew _ _ => isRing ring && bits 32 tag && bits 16 order && bits 16 gen && bits 64 list && bits 21 count && bits 21 maxNew
  | .stop ring tag _ order gen => isRing ring && bits 32 tag && bits 16 order && bits 16 gen
  | .truncate ring tag _ order gen length => isRing ring && bits 32 tag && bits 16 order && bits 16 gen && bits 25 length
  | .cellar ring tag _ order gen => isRing ring && bits 32 tag && bits 16 order && bits 16 gen
  | .recall ring tag _ order gen => isRing ring && bits 32 tag && bits 16 order && bits 16 gen
  | .setTtl ring tag _ order gen seconds _ => isRing ring && bits 32 tag && bits 16 order && bits 16 gen && bits 17 seconds
  | .storePrefix ring tag _ order gen list pages => isRing ring && bits 32 tag && bits 16 order && bits 16 gen && bits 64 list && bits 16 pages
  | .dropPrefixes ring tag _ model => isRing ring && bits 32 tag && bits 12 model
  | .query ring tag _ order gen => isRing ring && bits 32 tag && bits 16 order && bits 16 gen
  | .close ring tag _ order gen => isRing ring && bits 32 tag && bits 16 order && bits 16 gen
  | .forceClose tag order => bits 32 tag && bits 16 order
  | .cellaringCopyDone order => bits 16 order
  | .recallCopyDone order => bits 16 order
  | .recallWaitExpiry order => bits 16 order
  | .ttlExpiry order => bits 16 order
  | .cellarAfterExpiry order => bits 16 order
  | .deadlineMiss order => bits 16 order
  | .attachCopyDone order => bits 16 order
  | .prefixStoreCopyDone order => bits 16 order
  | .logitDelivery order _ _ => bits 16 order
  | .heldDeliveryAccept selector => isQuarter selector
  | .selection selector _ => isQuarter selector
  | .maskBuild selector => isQuarter selector
  | .selectorFail selector => isQuarter selector
  | .migrationCopyDone granule => bits 24 granule
  | .bellBoundary _ => true
  | .bellEarlyScan vf value _ => lt 4097 vf && bits 64 value
  | .earlyScan _ _ _ _ => true
  | .dispatchAdmit _ => true
  | .holdRelease _ => true
  | .governorSample _ _ => true
  | .ledgerClose => true
  | .thermalSample channel reading _ => isChannel channel && bits 16 reading
  | .graceExpiry unit => lt 32 unit
  | .shutdownTrip channel reading _ _ => isChannel channel && bits 16 reading
  | .tripLatchClear _ => true
  | .sensorFail channel _ _ => isChannel channel
  | .flashTempSample reading => bits 16 reading
  | .tallyWaitSatisfied tally => bits 16 tally
  | .tallyRead shop ctx off len => isShop shop && bits 16 ctx && bits 20 off && bits 48 len
  | .tallySet shop ctx off len _ => isShop shop && bits 16 ctx && bits 20 off && bits 48 len
  | .reductionWrite shop ctx addr _ => isShop shop && bits 16 ctx && bits 64 addr
  | .signalDetect port _ => isPort port
  | .trainingDone port _ peer peerPort _ _ => isPort port && bits 12 peer && bits 4 peerPort
  | .portRetrain port _ => isPort port
  | .codewordReceive port _ _ _ _ _ _ _ _ _ _ => isPort port
  | .laneFail port lane _ _ => isPort port && lt 9 lane
  | .signalLoss port _ => isPort port
  | .portDown port _ => isPort port
  | .read port _ _ => isPort port
  | .readData port _ _ => isPort port
  | .write port _ _ => isPort port
  | .writeAck port _ _ => isPort port
  | .atomic port _ _ => isPort port
  | .atomicData port _ _ => isPort port
  | .balisSignal port _ _ => isPort port
  | .signalAck port _ _ => isPort port
  | .collReady port _ _ => isPort port
  | .collData port _ _ => isPort port
  | .ctrl port _ _ => isPort port
  | .ctrlAck port _ _ => isPort port
  | .busyRetry port _ _ _ => isPort port
  | .unreachable port _ _ => isPort port
  | .refused port _ _ => isPort port
  | .retryResend _ _ => true
  | .requestTimeout _ _ => true
  | .bellMark port bell _ period _ _ => isPort port && bits 48 bell && bits 7 period
  | .bellSourceLost => true
  | .collectiveStart _ => true
  | .collectiveFold _ => true
  | .collectiveComplete _ => true
  | .perstAssert => true
  | .perstRelease _ => true
  | .pfFlr => true
  | .vfFlr vf => lt 4097 vf
  | .vfEnableClear _ numVfs => bits 13 numVfs
  | .hqDbBase value => bits 64 value
  | .modelLoad ring tag image len _ => isRing ring && bits 32 tag && bits 64 image && bits 48 len
  | .modelUnload ring tag model => isRing ring && bits 32 tag && bits 12 model
  | .grammarLoad ring tag image len => isRing ring && bits 32 tag && bits 64 image && bits 48 len
  | .grammarUnload ring tag grammar => isRing ring && bits 32 tag && bits 10 grammar
  | .map ring tag addr size page _ quarter => isRing ring && bits 32 tag && bits 48 addr && bits 48 size && bits 2 page && isQuarter quarter
  | .unmap ring tag addr size => isRing ring && bits 32 tag && bits 48 addr && bits 48 size
  | .copy ring tag _ src dst len tally inc _ => isRing ring && bits 32 tag && bits 64 src && bits 64 dst && bits 32 len && bits 16 tally && bits 32 inc
  | .signal ring tag _ tally inc => isRing ring && bits 32 tag && bits 16 tally && bits 32 inc
  | .run ring tag _ model program args => isRing ring && bits 32 tag && bits 12 model && bits 16 program && bits 64 args
  | .cancel ring tag _ runTag => isRing ring && bits 32 tag && bits 32 runTag
  | .tenantEnable ring tag tenant => isRing ring && bits 32 tag && bits 12 tenant
  | .tenantDisable ring tag tenant => isRing ring && bits 32 tag && bits 12 tenant
  | .benchFw ring tag image shop _ => isRing ring && bits 32 tag && bits 64 image && isShopOrAll shop
  | .fullerLib ring tag image stack _ _ _ _ => isRing ring && bits 32 tag && bits 64 image && isStackOrAll stack
  | .runComplete ring tag => isRing ring && bits 32 tag
  | .farEnumerate port _ width speed _ => isQuarter port && bits 5 width && bits 3 speed
  | .farPortDown port cause => isQuarter port && bits 2 cause
  | .scrubGo => true
  | .scrubAbort => true
  | .scrubRead stack _ _ => isStack stack
  | .scrubDone => true
  | .columnRepairDone stack die bank column => isStack stack && bits 4 die && bits 6 bank && bits 12 column
  | .sramRowRepaired _ bank addr _ => bits 6 bank && bits 64 addr
  | .rasFarRetire port unit => isQuarter port && bits 27 unit
  | .shopSparing shop cause _ => isShop shop && bits 3 cause
  | .shopSpareMoveDone shop => isShop shop
  | .dieLost stack die _ => isStack stack && bits 4 die
  | .hostmgmtUe kind _ => lt 5 kind
  | .auxPowerOn _ => true
  | .sysRstNRelease _ _ _ => true
  | .thermalGate _ => true
  | .firmwareBroadcast _ _ _ _ => true
  | .selfTest _ _ => true
  | .ready _ => true
  | .sysRstNAssert _ => true
  | .pwrOkFall _ _ => true
  | .supplyOutOfRange mv _ => bits 16 mv
  | .auxPowerLoss _ => true
  | .shopReset unit _ => isShop unit
  | .quarterReset unit _ => isQuarter unit
  | .stackReset unit _ => isStack unit
  | .computePartReset chan => lt 4 chan
  | .drainEnd scope unit _ => lt 3 scope && isShop unit
  | .drainTimeout scope unit _ => lt 3 scope && isShop unit
  | .resetTestDone scope unit _ _ => lt 3 scope && isShop unit
  | .retry _ addr => bits 64 addr
  | .bellboardSource source _ _ _ => bits 10 source
  | .bbdClaim path source _ => isPath path && bits 10 source
  | .bbdComplete path source _ => isPath path && bits 10 source
  | .bbdPend path word value _ => isPath path && bits 4 word && bits 64 value
  | .lockAcquire steward lock epoch _ => isSteward steward && bits 8 lock && bits 24 epoch
  | .lockRelease steward lock epoch _ _ => isSteward steward && bits 8 lock && bits 24 epoch
  | .leaseExpiry lock _ => bits 8 lock
  | .stewardWatchdog steward => isSteward steward
  | .stewardRestartDone steward => isSteward steward
  | .challenge path _ => isPath path
  | .respond path _ _ => isPath path
  | .roleClose path _ => isPath path
  | .unlock path mask _ => isPath path && bits 16 mask
  | .imageWrite path kind _ _ => isPath path && bits 3 kind
  | .sessionTimeout _ => true
  | .lockoutExpiry _ => true
  | .glbLock path value _ => isPath path && bits 64 value
  | .glbRecoveryAddr address _ _ => bits 64 address
  | .fuseProgram chan kind _ _ _ _ => lt 4 chan && lt 3 kind
  | .bypass => true
  | .idcode => true
  | .samplePreload _ _ => true
  | .extest _ _ => true
  | .dtmcs => true
  | .dmi _ _ => true
  | .jtagRole _ _ _ => true
  | .recovery _ _ => true
  | .trstN => true
  | .debugApertureRead _ address size _ => bits 64 address && lt 65537 size
  | .obkSel order => bits 16 order
  | .plcMapSel granule => bits 24 granule
  | .statTsel tenant => bits 12 tenant
  | .statBsel value => bits 64 value
  | .rasLogSel seq _ => bits 32 seq
  | .nvLogReadDone => true
  | .roleAuditSel seq => bits 32 seq
  | .ident => true
  | .state => true
  | .alert => true
  | .trip => true
  | .quarters => true
  | .stackTemps => true
  | .channels => true
  | .power mv current => bits 16 mv && bits 16 current
  | .links => true
  | .regAddr offset => bits 32 offset
  | .regDataRead _ => true
  | .regDataWrite value _ _ => bits 64 value
  | .lockstepFailure steward _ => isSteward steward
  | .stackChannelLaneFailure stack channel _ => isStack stack && lt 32 channel
  | .laneRetestDone port lane _ => isPort port && lt 9 lane
  | .signalReturn port _ => isPort port
  | .balisReferenceFailure ref _ => lt 2 ref
  | .linkDegraded width speed => bits 5 width && bits 3 speed
  | .farMediaReady port => isQuarter port
  | .farDeviceEvent port _ => isQuarter port
  | .farPrsntN port _ => isQuarter port
  | .thermalGateTimeout _ => true
  | .modelLoadDone ring tag _ => isRing ring && bits 32 tag
  | .copyDone ring tag => isRing ring && bits 32 tag
  | .writeCompletion shop bench _ => isShop shop && isBench bench
  | .cellarUnitRead order _ _ => bits 16 order
  | .cellarWriteError order => bits 16 order

end Sys2Proof
end

