-- ==== Sys2Proof/Safety.lean ====
section
/-! DEFINITION. What a legal state is, and the conditions, results and frames in which the statements speak. -/

namespace Sys2Proof.Machine

/-! ### Legal states -/

/-- The canonical form of a byte memory: addresses strictly rising, and no entry equal to what an unlisted address reads as. -/
def memoryWf (m : List (Nat × BitVec 8)) : Bool := twf (0 : BitVec 8) m

/-- Device memory and the host memory that the device has seen are in canonical form. -/
def State.memOk (s : State) : Bool := memoryWf s.mem.bytes && memoryWf s.host.mem

/-- The keys of the tables of benches, fullers and pattern-book nodes rise strictly: each is listed at most once. -/
def State.unitsOk (s : State) : Bool := tsorted s.benches && tsorted s.fullers && tsorted s.book.nodes

/-! ### What commands leave alone -/

/-- Of the registers, only counters and the bell's figures differ. -/
def countersOnly (s t : State) : Prop :=
  t.regs = { s.regs with live := t.regs.live, tlive := t.regs.tlive, bcount := t.regs.bcount, sat := t.regs.sat }

/-- Every byte of device memory reads as before. -/
def sameBytes (s t : State) : Prop := ∀ k, keyByte t k = keyByte s k

/-- The bytes from a key on are the given ones, and every other byte of device memory reads as before. -/
def bytesStored (w : Nat) (data : List Byte) (s t : State) : Prop :=
  ∀ k, keyByte t k = if w ≤ k ∧ k < w + data.length then data.getD (k - w) 0 else keyByte s k

/-- Every shop but one is as before. -/
def otherShops (n : Nat) (s t : State) : Prop := ∀ j, j ≠ n → shopOf t j = shopOf s j

/-- Every order but one is as before. -/
def otherOrders (o : Nat) (s t : State) : Prop := ∀ j, j ≠ o → orderOf t j = orderOf s j

/-- Every frame of the list's second places has the bytes of its first place's, and every other byte of device memory reads as before. -/
def framesCopied (l : List (Nat × Nat)) (s t : State) : Prop :=
  (∀ p off, p ∈ l → off < 65536 → keyByte t (p.2 * 65536 + off) = keyByte s (p.1 * 65536 + off)) ∧
  (∀ k, (∀ p, p ∈ l → k / 65536 ≠ p.2) → keyByte t k = keyByte s k)

/-- No frame of the second places occurs twice or among the first places, and all lie in stack memory. -/
def framesApart (l : List (Nat × Nat)) : Prop :=
  (l.map Prod.snd).Nodup ∧ (∀ p q, p ∈ l → q ∈ l → p.2 ≠ q.1) ∧ ∀ p, p ∈ l → p.1 < 12 * 2 ^ 20 ∧ p.2 < 12 * 2 ^ 20

/-- Nothing of the order book but orders has changed, nor anything else but what events, messages to a group and counters take. -/
def ordersOnly (s t : State) : Prop :=
  countersOnly s t ∧ t = { s with book := { s.book with orders := t.book.orders }, host := t.host, bal := t.bal, regs := t.regs }

/-- An order whose entry holds nothing any more but its own words: no frame, page, step, copy, image or held FEED. -/
def orderBare (r : OrderRec) : Prop :=
  r.step = none ∧ r.copy = none ∧ r.image = none ∧ r.held = none ∧ r.root = 0 ∧ r.stateFrame = 0 ∧ r.cellar = 0 ∧ r.expire = 0 ∧
  (∀ i, tget 0 r.pages i = 0) ∧ ∀ b, tget 0 r.blocks b = 0

def otherBenches (k : Nat) (s t : State) : Prop := ∀ j, j ≠ k → benchOf t j = benchOf s j

/-! ### Benches -/

/-- A bench issues an instruction with these scalar and vector registers now: it runs an instance, its PC may fetch, and none of the registers waits for a
load (R89, R95, R100). -/
def benchIssues (s : State) (shop bench : Nat) (ss vs : List Nat) : Bool :=
  benchRuns s (benchKey shop bench) && pcOk s (benchKey shop bench) && !regPending (benchOf s (benchKey shop bench)) ss vs

/-- Nothing but one bench, the counters and the bell's figures has changed. -/
def benchFrame (k : Nat) (s t : State) : Prop :=
  (∀ j, j ≠ k → benchOf t j = benchOf s j) ∧
  t = { s with benches := t.benches, regs := { s.regs with live := t.regs.live, bcount := t.regs.bcount, sat := t.regs.sat } }

/-- An instruction's result is `v` in scalar register `d` and the flags `fl` joined to BFLAGS: a write of s0 is discarded, every other register keeps its
value, the PC goes on (R93), and nothing else changes. -/
def scalarResult (shop bench d v fl : Nat) (s t : State) : Prop :=
  let k := benchKey shop bench
  let b := benchOf s k
  let c := benchOf t k
  (∀ r, getS c r = if r = d ∧ d ≠ 0 then v % 2 ^ 64 else getS b r) ∧
  c = { b with s := c.s, bflags := b.bflags ||| fl, pc := (benchNext b).pc, loop := (benchNext b).loop } ∧ benchFrame k s t

/-- Lane i of a vector result: in the register itself, or, of an FP8 arithmetic result, in the BF16 pair (R88). -/
def laneOut (pair : Bool) (b : BenchSt) (d fmt i : Nat) : Nat :=
  if pair then laneAt (getV b (d + i / 16)) 16 (i % 16) else laneAt (getV b d) (laneW fmt) i

/-- An instruction's result is, in every enabled lane of vector `d`, the value of `f` with its flags; disabled lanes and every other register keep their
values, the PC goes on, and nothing else changes (R88). -/
def vectorResult (pair : Bool) (shop bench d m fmt : Nat) (f : Nat → Nat × Nat) (s t : State) : Prop :=
  let k := benchKey shop bench
  let b := benchOf s k
  let c := benchOf t k
  (∀ i, i < lanes fmt → laneOut pair c d fmt i =
    if bitOf (getM b m) i then (f i).1 % 2 ^ (if pair then 16 else laneW fmt) else laneOut pair b d fmt i) ∧
  (∀ r, r ≠ d → ¬(pair = true ∧ r = d + 1) → getV c r = getV b r) ∧
  c = { b with
    v := c.v, pc := (benchNext b).pc, loop := (benchNext b).loop
    bflags := b.bflags ||| ((((List.range (lanes fmt)).filter (fun i => bitOf (getM b m) i)).map (fun i => (f i).2)).foldl orMask 0) } ∧ benchFrame k s t

/-- The bench is as `g` makes it, and nothing else changes. -/
def benchResult (shop bench : Nat) (g : BenchSt → BenchSt) (s t : State) : Prop :=
  benchOf t (benchKey shop bench) = g (benchOf s (benchKey shop bench)) ∧ benchFrame (benchKey shop bench) s t

/-- May a bench issue an access of this width to the device address in a scalar or address expression: it issues, no FENCE holds it, fewer than 16 accesses
are outstanding, the address is aligned, its home is in this device and not in reset (R94 to R96, R373, R509)? -/
def accessIssues (s : State) (shop bench : Nat) (ss vs : List Nat) (addr width : Nat) : Bool :=
  let b := benchOf s (benchKey shop bench)
  benchIssues s shop bench ss vs && memReady b && decide (addr % width = 0) && !homeInReset s (resolve s (ctxTenant s b.ctx) addr)
    && (match resolve s (ctxTenant s b.ctx) addr with | .remote _ _ => false | _ => true)

/-- The bench goes on with one more access outstanding, whose data or completion is at hand (R95). -/
def outstanding (kind dest : Nat) (data : List Byte) (poison : Bool) (b : BenchSt) : BenchSt :=
  benchNext { b with out := b.out ++ [⟨b.nextOut, kind, dest, data, poison, true⟩], nextOut := b.nextOut + 1 }

/-- An access of the bench has completed: it leaves the sixteen, the fences and the signals that wait for it, and a wait on the number outstanding ends when
it may (R95, R373, R374). -/
def accessDone (id : Nat) (b : BenchSt) : BenchSt :=
  let out := b.out.filter (fun a => decide (a.id ≠ id))
  { b with
    out := out, fence := b.fence.filter (fun i => decide (i ≠ id))
    sigs := (b.sigs.map (fun x => (x.1.filter (fun i => decide (i ≠ id)), x.2))).filter (fun x => !x.1.isEmpty)
    wait := match b.wait with
      | .outstanding n => if out.length ≤ n then .run else b.wait
      | w => w }

/-- A bench as it starts instance `inst` of launch `j`: CSRs as Table 4.2 gives, registers cleared, the PC at the entry (R99). -/
def started (s : State) (l : Launch) (j inst : Nat) (b : BenchSt) : BenchSt :=
  { b with
    s := [], v := [], m := [], pc := l.entry, bctl := l.cmd.cvt % 16 * 16, bflags := 0, bsridx := 0, inst := inst
    arg := (l.argBase + inst * l.argStride) % 2 ^ 64, seed := l.cmd.seed, ctx := l.cmd.ctx, start := s.now, launch := some j, loop := none, wait := .run
    local_ := if b.lastTenant = some l.cmd.tenant then b.local_ else [], lastTenant := some l.cmd.tenant }

/-- The first launch of a shop that has an instance for a bench: it names the bench's group, an instance is undispatched, and it has not faulted (R99). -/
def launchFor (s : State) (shop bench : Nat) : Option Nat :=
  (shopOf s shop).launches.findIdx? (fun l => inGroups l.groups bench && decide (l.next < l.count) && l.fault.isNone)

/-! ### Fullers -/

/-- Fuller `i` of stack `n` stands at the micro-instruction `w`, of this opcode, of the running invocation `r`, and may run it (R194, R199). -/
def microAt (s : State) (n i op : Nat) (r : InvRun) (w : Nat) : Prop :=
  runOf s n = some r ∧ fullerRuns s n i = true ∧ r.waiting.contains i = false ∧ (runCode s n)[(fullerOf s n i).pc]? = some w ∧ miOp w = op

/-- A fuller after an instruction: the next place, by its LOOPs. -/
def fullerNext (f : FullerSt) : FullerSt :=
  match f.loops with
  | (first, stop, left) :: t =>
    if f.pc + 1 = stop then (if left > 1 then { f with pc := first, loops := (first, stop, left - 1) :: t } else { f with pc := stop, loops := t })
    else { f with pc := f.pc + 1 }
  | [] => { f with pc := f.pc + 1 }

/-- The fuller goes on from `f`, which carries the instruction's effect; a stop asked for ends it at the end of its segment, and so does the end of the
routine (R204). Every other fuller and stack is as before. -/
def fullerGoes (n i w : Nat) (r : InvRun) (f : FullerSt) (s t : State) : Prop :=
  let ends := (miEnd w && r.stopping) || decide ((fullerNext f).pc ≥ (runCode s n).length)
  fullerOf t n i = fullerNext f ∧ (∀ k, k ≠ n * 512 + i → tget FullerSt.reset t.fullers k = tget FullerSt.reset s.fullers k) ∧
  fulOf t n = { fulOf s n with run := some (if ends then { r with halted := i :: r.halted } else r) } ∧ (∀ m, m ≠ n → fulOf t m = fulOf s m)

/-- The scratch words from `x` on are the given ones, and every other word is as in `f`. -/
def scratchIs (x : Nat) (l : List Nat) (f g : FullerSt) : Prop :=
  g = { f with scratch := g.scratch } ∧
  ∀ k, tget (0 : BitVec 32) g.scratch k = if x ≤ k ∧ k < x + l.length then BitVec.ofNat 32 (l.getD (k - x) 0) else tget (0 : BitVec 32) f.scratch k

/-! ### Ports -/

/-- Every port but one is as before but for its packets waiting and the credits that they take. -/
def otherPorts (n : Nat) (s t : State) : Prop :=
  ∀ m, m ≠ n → portOf t m = { portOf s m with queue := (portOf t m).queue, credits := (portOf t m).credits }

/-- Nothing but the fabric, counters, the events and the orders that a lost member faults has changed, and the time. -/
def fabricOnly (now : Nat) (s t : State) : Prop :=
  countersOnly s t ∧ t = { s with now := now, bal := t.bal, host := t.host, regs := t.regs, book := { s.book with orders := t.book.orders } }

/-- A device that the route table names is held unreachable exactly when no port of its entry is up. -/
def reachabilityHeld (s t : State) : Prop :=
  ∀ d, t.bal.unreachable.contains d = if (routedDevices s).contains d then (routePorts t d).isEmpty else s.bal.unreachable.contains d

/-- A port that has gone down to a state at a time: its waiting packets dropped, its lanes and credits given up. -/
def portLost (state now : Nat) (p : PortSt) : PortSt :=
  { p with state := state, retrain := now, lostAt := none, queue := [], credits := [], pass := 0, spare := 0xF, lock := 0 }

/-- A packet has gone out of a port or waits there for credit. -/
def handedTo (m : Nat) (a : Packet) (t : State) : Prop := (m, a) ∈ t.bal.out ∨ a ∈ (portOf t m).queue

/-- The answer that a request gets: back to its source, with the request's tag and sending port (R402). -/
def answerPacket (p : Packet) (typ arg : Nat) (data : List Byte) (s : State) : Packet :=
  ⟨typ, ownDevice s, p.src, 0, p.tenant, p.tag, 0, p.port, 0, arg, 0, (data.length + 31) / 32, data⟩

/-- A request has been answered over the route that this device has to its source. -/
def answeredWith (p : Packet) (typ arg : Nat) (data : List Byte) (s t : State) : Prop :=
  ∀ m, routePort s (answerPacket p typ arg data s) = some m → handedTo m (answerPacket p typ arg data s) t

/-- The rows of requests, with their packet types, and of answers. -/
def requestRows : List (Nat × (Nat → Bool → Packet → Instr)) :=
  [(1, .read), (3, .write), (5, .atomic), (7, .balisSignal), (9, .collReady), (0xA, .collData), (0xB, .ctrl)]

def answerRows : List (Nat × (Nat → Bool → Packet → Instr)) :=
  [(2, .readData), (4, .writeAck), (6, .atomicData), (8, .signalAck), (0xC, .ctrlAck), (0xD, fun n e p => .busyRetry n e p 0), (0xE, .unreachable),
   (0xF, .refused)]

/-! ### The host port and errors -/

/-- A tally has been signalled by an increment (R378, R380); every other tally is as before. -/
def signalled (k i : Nat) (s t : State) : Prop :=
  let v := (tallyOf s k).value.toNat + i % 2 ^ 32
  tallyOf t k = (if v ≤ 0xFFFFFFFF then ⟨BitVec.ofNat 32 v, (tallyOf s k).ovf⟩ else ⟨0xFFFFFFFF, true⟩) ∧ ∀ j, j ≠ k → tallyOf t j = tallyOf s j

/-- The RAS log holds a record of this type and unit of the running bell. -/
def rasLogged (typ unit : Nat) (s t : State) : Prop := ∃ r, r ∈ t.ras.log ∧ r.typ = typ ∧ r.unit = unit ∧ r.bell = s.bell % 2 ^ 32

/-! ### Power and paths -/

/-- A loss of every 12 V domain (R515): no domain is powered, all that they held is at its reset value, and the bell and READY are gone; flash, fuses and host
memory stay. -/
def powerLost (s t : State) : Prop :=
  t.sys.powered = false ∧ t.ready = false ∧ t.bell = 0 ∧ t.sys.stage = 1 ∧ t.sys.resets = [] ∧ t.mem.bytes = [] ∧ t.stks = [] ∧ t.benches = [] ∧ t.fullers = [] ∧
  t.selectors = [] ∧ t.tal = TallySt.reset ∧ t.sched = SchedSt.reset ∧ t.jobs = JobSt.reset ∧ t.book.orders = [] ∧ t.bal.reqs = [] ∧ t.bal.colls = [] ∧
  t.host.rings = [] ∧ t.host.mem = s.host.mem ∧ t.sys.flash = s.sys.flash ∧ t.sys.fuses = s.sys.fuses

/-- The paths on which a role command reaches the ROLE block, with the channels that they are: the PF, SMBus and JTAG. -/
def rolePaths : List (RegPath × Nat) := [(.pf, 0), (.smbus, 1), (.jtag, 2)]
/-! ### Roles -/

/-- Nothing but a role's record, the audit log and counters differs from `s` with the system state `y` at the time `now`. -/
def rolesOnly (now : Nat) (y : SysSt) (s t : State) : Prop :=
  countersOnly s t ∧ t = { s with
    now := now
    sys := { y with role := t.sys.role, auditSeq := t.sys.auditSeq, auditLast := t.sys.auditLast }
    therm := { s.therm with audit := t.therm.audit, held := t.therm.held }
    regs := t.regs }

/-- One more audit entry has been written than in `s`. -/
def audited (s t : State) : Prop := t.sys.auditSeq = (s.sys.auditSeq + 1) % 2 ^ 32

/-- The session has closed (R533): the debug level is 0, no steward is halted, and the lock policy in flash is GLB_LOCK. -/
def sessionClosed (s t : State) : Prop :=
  t.sys.role.state = 0 ∧ t.sys.role.role = 0 ∧ t.sys.role.rights = 0 ∧ t.sys.role.serial = 0 ∧ t.sys.role.level = 0 ∧
  (∀ h, (stewardOf t h).halted = none) ∧ t.sys.lockPolicy = s.sys.lockBits ∧ t.sys.lockBits = s.sys.lockBits

/-- A certificate in ROLE_BUF and a response to the challenge outstanding on a channel open a session there (R531, R532). -/
def certAccepted (chan now : Nat) (i : RoleIn) (s : State) : Prop :=
  let r := s.sys.role
  r.state = 1 ∧ r.channel = chan ∧ now ≤ r.issued + 60000000000 ∧
  certField s 0 4 = 0x54524543 ∧ certField s 4 1 = 1 ∧ (certField s 5 1 = 1 ∨ certField s 5 1 = 2) ∧
  (certField s 16 8 = 0 ∨ certField s 16 8 = deviceSerial) ∧ certField s 12 4 = 0 ∧ certField s 24 40 = 0 ∧ i.certSig = true ∧
  rfield s 0x1800050 31 0 ≤ certField s 8 4 ∧ (certField s 5 1 = 1 → bitsOf (certField s 6 2) 6 4 = 0) ∧ i.respSig = true ∧
  (certField s 5 1 = 2 → s.book.enabled = [])

/-- The cause with which an image is refused (R536), 0 for none. -/
def imageCause (s : State) (i : RoleIn) : Nat :=
  if i.readOk = false then 12 else if i.imgSig = false ∨ i.target ≠ 0xA1 then 1 else if i.secOk = false then 9 else if i.fits = false then 11
  else if s.therm.flashOpen = false then 10 else 0

/-- A flash region of images. -/
def flashOf (s : State) (k : Nat) : FlashImg := tget ⟨false, 0⟩ s.sys.flash k

end Sys2Proof.Machine
end

