-- ==== Sys2Proof/Certificates/Slice0/Obligations.lean ====
section
/-! DEFINITION. The statements for the provers: the queue and the step, invariants, and for each family of commands what a command does and leaves alone. -/

open Sys2Proof Sys2Proof.Machine

/-! ### The queue and the step -/

/-- A step takes the command at the front of the queue and is exec of it on the state with the queue's rest; on an empty queue it idles (the model's choice,
log entry 1). -/
def Obligations.StepRunsFrontCommand : Prop :=
  (∀ (c : Instr) (rest : List Instr) (s : State), step { s with pending := c :: rest } = exec c { s with pending := rest }) ∧
  ∀ s : State, s.pending = [] → step s = .next s

/-- No command faults or is refused, none changes the queue of waiting commands, and device time never goes back, whatever time a command carries. -/
def Obligations.EveryCommandAnswers : Prop := ∀ (c : Instr) (s : State), ∃ t, exec c s = .next t ∧ t.pending = s.pending ∧ s.now ≤ t.now

/-- The memories of the state after reset are in canonical form, and each bench, fuller and pattern-book node is listed at most once. -/
def Obligations.ResetMemoryCanonical : Prop := State.reset.memOk = true ∧ State.reset.unitsOk = true

/-- Every step keeps the canonical form of device memory and host memory. -/
def Obligations.StepKeepsMemoryCanonical : Prop := ∀ s t : State, s.memOk = true → step s = .next t → t.memOk = true

/-- Every step keeps the tables of benches, fullers and pattern-book nodes sorted, each listed at most once. -/
def Obligations.StepKeepsUnitsListedOnce : Prop := ∀ s t : State, s.unitsOk = true → step s = .next t → t.unitsOk = true

/-! ### Bench cores -/

/-- Results of the bench's integer instructions (R89), with every operand read before the result is written. -/
def Obligations.BenchIntegerResults : Prop :=
  ∀ (s : State) (shop bench d a b : Nat), d < 32 → a < 32 → b < 32 → benchIssues s shop bench [d, a, b] [] = true →
    let x := getS (benchOf s (benchKey shop bench)) a
    let y := getS (benchOf s (benchKey shop bench)) b
    let X := BitVec.ofNat 64 x
    let Y := BitVec.ofNat 64 y
    (∃ t, exec (.sadd shop bench d a b 0 0 0) s = .next t ∧ scalarResult shop bench d (X + Y).toNat 0 s t) ∧
    (∃ t, exec (.ssub shop bench d a b 0 0 0) s = .next t ∧ scalarResult shop bench d (X - Y).toNat 0 s t) ∧
    (∃ t, exec (.smul shop bench d a b 0 0 0) s = .next t ∧ scalarResult shop bench d (X * Y).toNat 0 s t) ∧
    (∃ t, exec (.sand shop bench d a b 0 0 0) s = .next t ∧ scalarResult shop bench d (X &&& Y).toNat 0 s t) ∧
    (∃ t, exec (.sor shop bench d a b 0 0 0) s = .next t ∧ scalarResult shop bench d (X ||| Y).toNat 0 s t) ∧
    (∃ t, exec (.sxor shop bench d a b 0 0 0) s = .next t ∧ scalarResult shop bench d (X ^^^ Y).toNat 0 s t) ∧
    (∃ t, exec (.sshl shop bench d a b 0 0 0) s = .next t ∧ scalarResult shop bench d (X <<< (y % 64)).toNat 0 s t) ∧
    (∃ t, exec (.sshr shop bench d a b 0 0 0) s = .next t ∧ scalarResult shop bench d (X >>> (y % 64)).toNat 0 s t) ∧
    (∃ t, exec (.ssra shop bench d a b 0 0 0) s = .next t ∧ scalarResult shop bench d (X.sshiftRight (y % 64)).toNat 0 s t) ∧
    (∃ t, exec (.sslt shop bench d a b 0 0 0) s = .next t ∧ scalarResult shop bench d (if X.slt Y then 1 else 0) 0 s t) ∧
    (∃ t, exec (.smin shop bench d a b 0 0 0) s = .next t ∧ scalarResult shop bench d (if X.sle Y then x else y) 0 s t) ∧
    (∃ t, exec (.smax shop bench d a b 0 0 0) s = .next t ∧ scalarResult shop bench d (if X.sle Y then y else x) 0 s t)

/-- Results of the immediate forms (SADDI sign-extends, SLUI shifts left by 16 and joins the immediate) and of CSRR, which reads the nine CSRs of
Table 4.2. -/
def Obligations.BenchImmediateResults : Prop :=
  ∀ (s : State) (shop bench d a imm : Nat), d < 32 → a < 32 → imm < 65536 → benchIssues s shop bench [d, a] [] = true →
    let b := benchOf s (benchKey shop bench)
    (∃ t, exec (.saddi shop bench d a imm) s = .next t ∧
      scalarResult shop bench d (BitVec.ofNat 64 (getS b a) + (BitVec.ofNat 16 imm).signExtend 64).toNat 0 s t) ∧
    (∃ t, exec (.slui shop bench d 0 imm) s = .next t ∧
      scalarResult shop bench d (BitVec.ofNat 64 (getS b d) <<< 16 ||| BitVec.ofNat 64 imm).toNat 0 s t) ∧
    (∀ i v, csrRead s shop bench b i = some v → ∃ t, exec (.csrr shop bench d 0 i) s = .next t ∧ scalarResult shop bench d v 0 s t)

/-- Results of the scalar FP32 instructions (R55, R89): the operation on bits [31:0] of the operands, its flags, and a result whose upper bits are zero;
SFLT is false when unordered; SFCVT converts either way by its C field. -/
def Obligations.BenchScalarFloatResults : Prop :=
  ∀ (s : State) (shop bench d a b c : Nat), d < 32 → a < 32 → b < 32 → c < 32 → benchIssues s shop bench [d, a, b, c] [] = true →
    let x := benchOf s (benchKey shop bench)
    let u := fun (r : Nat) => getS x r % 2 ^ 32
    let op := fun (n z : Nat) => laneOp n x .fp32 .fp32 (u a) (u b) z
    (∃ t, exec (.sfadd shop bench d a b 0 0 0) s = .next t ∧ scalarResult shop bench d (op 0 0).1 (op 0 0).2 s t) ∧
    (∃ t, exec (.sfmul shop bench d a b 0 0 0) s = .next t ∧ scalarResult shop bench d (op 2 0).1 (op 2 0).2 s t) ∧
    (∃ t, exec (.sffma shop bench d a b c 0 0) s = .next t ∧ scalarResult shop bench d (op 3 (u c)).1 (op 3 (u c)).2 s t) ∧
    (∃ t, exec (.sflt shop bench d a b 0 0 0) s = .next t ∧
      scalarResult shop bench d (b2n (ltV (operand (bFtz x) .fp32 (u a)) (operand (bFtz x) .fp32 (u b)))) (b2n (sNan .fp32 (u a) || sNan .fp32 (u b))) s t) ∧
    (∃ t, exec (.sfcvt shop bench d a 0 0 0 0) s = .next t ∧ scalarResult shop bench d (cvtToF32 x (getS x a)).1 (cvtToF32 x (getS x a)).2 s t) ∧
    (∃ t, exec (.sfcvt shop bench d a 0 1 0 0) s = .next t ∧ scalarResult shop bench d (cvtToI64 x (u a)).1 (cvtToI64 x (u a)).2 s t)

/-- VMVS moves the bits of lane C of a vector to a scalar; for a lane number beyond the lanes it still completes, with a value that the spec does not give
(the model's free value, log entry 5). VRED writes the reduction of the enabled lanes as FP32. -/
def Obligations.BenchVectorToScalar : Prop :=
  ∀ (s : State) (shop bench d a c m fmt : Nat), d < 32 → a < 32 → c < 32 → m < 8 → fmt < 4 → benchIssues s shop bench [d] [a] = true →
    let x := benchOf s (benchKey shop bench)
    (∃ t v, exec (.vmvs shop bench d a 0 c 0 fmt) s = .next t ∧ scalarResult shop bench d v 0 s t ∧
      (c < lanes fmt → v = laneAt (getV x a) (laneW fmt) c)) ∧
    (∀ op, op < 3 → ∃ t, exec (.vred shop bench d a 0 op m fmt) s = .next t ∧
      scalarResult shop bench d (reduceVec x a op m fmt).1 (reduceVec x a op m fmt).2 s t)

/-- Results of the vector arithmetic instructions in every lane format: the operation in each enabled lane; FP8 operands give BF16 lanes in the register
pair of an even destination; disabled lanes keep their old values and raise no flags (R88). -/
def Obligations.BenchVectorArithmetic : Prop :=
  ∀ (s : State) (shop bench d a b c m fmt : Nat), d < 32 → a < 32 → b < 32 → c < 32 → m < 8 → fmt < 4 →
    (isFp8 fmt = true → d % 2 = 0 ∧ c % 2 = 0) → benchIssues s shop bench [] ([a, b] ++ pairRegs fmt [d, c]) = true →
    let x := benchOf s (benchKey shop bench)
    let pair := isFp8 fmt
    let fs := laneFmt fmt
    let fd := if pair then .bf16 else fs
    let la := fun (i : Nat) => laneAt (getV x a) (laneW fmt) i
    let lb := fun (i : Nat) => laneAt (getV x b) (laneW fmt) i
    let op := fun (n z i : Nat) => laneOp n x fs fd (la i) (lb i) (laneOut pair x z fmt i)
    (∃ t, exec (.vadd shop bench d a b 0 m fmt) s = .next t ∧ vectorResult pair shop bench d m fmt (op 0 0) s t) ∧
    (∃ t, exec (.vsub shop bench d a b 0 m fmt) s = .next t ∧ vectorResult pair shop bench d m fmt (op 1 0) s t) ∧
    (∃ t, exec (.vmul shop bench d a b 0 m fmt) s = .next t ∧ vectorResult pair shop bench d m fmt (op 2 0) s t) ∧
    (∃ t, exec (.vfma shop bench d a b c m fmt) s = .next t ∧ vectorResult pair shop bench d m fmt (op 3 c) s t) ∧
    (∃ t, exec (.vmax shop bench d a b 0 m fmt) s = .next t ∧ vectorResult pair shop bench d m fmt (op 4 0) s t) ∧
    (∃ t, exec (.vmin shop bench d a b 0 m fmt) s = .next t ∧ vectorResult pair shop bench d m fmt (op 5 0) s t) ∧
    (∃ t, exec (.vneg shop bench d a 0 0 m fmt) s = .next t ∧
      vectorResult pair shop bench d m fmt (fun i => (widenLane fmt (la i) ^^^ 2 ^ ((if pair then 16 else laneW fmt) - 1), 0)) s t)

/-- Results of the instructions that move lanes: VBCAST, VSEL, VPERM and RNG (R88, R89, R275). -/
def Obligations.BenchLaneMoves : Prop :=
  ∀ (s : State) (shop bench d a b m fmt : Nat), d < 32 → a < 32 → b < 32 → m < 8 → fmt < 4 → benchIssues s shop bench [a, b] [d, a, b] = true →
    let x := benchOf s (benchKey shop bench)
    let w := laneW fmt
    let la := fun (i : Nat) => laneAt (getV x a) w i
    let lb := fun (i : Nat) => laneAt (getV x b) w i
    (∃ t, exec (.vbcast shop bench d a 0 0 m fmt) s = .next t ∧ vectorResult false shop bench d m fmt (fun _ => (getS x a, 0)) s t) ∧
    (∃ t, exec (.vsel shop bench d a b 0 m fmt) s = .next t ∧
      vectorResult false shop bench d 0 fmt (fun i => (if bitOf (getM x m) i then la i else lb i, 0)) s t) ∧
    (∃ t, exec (.vperm shop bench d a b 0 m fmt) s = .next t ∧ vectorResult false shop bench d m fmt (fun i => (la (lb i % lanes fmt), 0)) s t) ∧
    (∃ t, exec (.rng shop bench d a b 0 m 0) s = .next t ∧ vectorResult false shop bench d m 0 (fun i =>
      (philoxX0 (getS x a) ((getS x b + i) % 2 ^ 64 % 2 ^ 32) ((getS x b + i) % 2 ^ 64 / 2 ^ 32) 1 0, 0)) s t)

/-- The special functions work on FP32 lanes, and end the work with a FORMAT fault on the other lane formats (Table 4.8); VCMP writes the enabled lanes'
bits of a mask register; VCVT converts between the packings of two formats. -/
def Obligations.BenchSpecialCompareConvert : Prop :=
  ∀ (s : State) (shop bench d a b m fmt : Nat), d < 32 → a < 32 → b < 32 → m < 8 → fmt < 4 → benchIssues s shop bench [] [a, b, d] = true →
    let k := benchKey shop bench
    let x := benchOf s k
    let sp := fun (fn i : Nat) => specialLane fn x (laneAt (getV x a) 32 i)
    let nan := b2n ((List.range (lanes fmt)).any (fun i => bitOf (getM x m) i &&
      (sNan (laneFmt fmt) (laneAt (getV x a) (laneW fmt) i) || sNan (laneFmt fmt) (laneAt (getV x b) (laneW fmt) i))))
    (∃ t, exec (.vexp shop bench d a 0 0 m 0) s = .next t ∧ vectorResult false shop bench d m 0 (sp 0) s t) ∧
    (∃ t, exec (.vrsq shop bench d a 0 0 m 0) s = .next t ∧ vectorResult false shop bench d m 0 (sp 1) s t) ∧
    (∃ t, exec (.vrcp shop bench d a 0 0 m 0) s = .next t ∧ vectorResult false shop bench d m 0 (sp 2) s t) ∧
    (∀ cond q, cond < 4 → q < 8 → ∃ t, exec (.vcmp shop bench q a b cond m fmt) s = .next t ∧
      (∀ r, r ≠ q → getM (benchOf t k) r = getM x r) ∧
      (∀ i, i < lanes fmt → q ≠ 0 → bitOf (getM (benchOf t k) q) i = if bitOf (getM x m) i then
          cmpV cond (operand (bFtz x) (laneFmt fmt) (laneAt (getV x a) (laneW fmt) i)) (operand (bFtz x) (laneFmt fmt) (laneAt (getV x b) (laneW fmt) i))
        else bitOf (getM x q) i) ∧
      benchOf t k = { x with m := (benchOf t k).m, pc := (benchNext x).pc, loop := (benchNext x).loop, bflags := x.bflags ||| nan } ∧ benchFrame k s t) ∧
    (∀ src dst part fs fd, codeFmt src = some fs → codeFmt dst = some fd → src < 11 → dst < 11 → part < 4 → cvtPartOk fs fd part = true →
      ∃ t, exec (.vcvt shop bench d a src dst part m) s = .next t ∧
        (∀ r, getV (benchOf t k) r = if r = d then (cvtVec x d a fs fd part m).1 % 2 ^ 256 else getV x r) ∧
        benchOf t k = { x with
          v := (benchOf t k).v, bsridx := (benchOf t k).bsridx, pc := (benchNext x).pc, loop := (benchNext x).loop
          bflags := x.bflags ||| (cvtVec x d a fs fd part m).2.1 } ∧ benchFrame k s t)

/-- Branches, jumps, LOOP and CSRW (R85, R89, R93): a branch is taken by its signed compare; a target outside a loop's body ends the loop; LOOP with a
count of zero skips its body. -/
def Obligations.BenchControl : Prop :=
  ∀ (s : State) (shop bench d a b off : Nat), d < 32 → a < 32 → b < 32 → off < 65536 → benchIssues s shop bench [d, a, b] [] = true →
    let x := benchOf s (benchKey shop bench)
    let X := BitVec.ofNat 64 (getS x a)
    let Y := BitVec.ofNat 64 (getS x b)
    let target := (((x.pc : Int) + signedOf 16 off) % 4096).toNat
    let go := fun (taken : Bool) (b : BenchSt) => if taken then jumpTo target b else benchNext b
    (∃ t, exec (.beq shop bench a b off) s = .next t ∧ benchResult shop bench (go (X == Y)) s t) ∧
    (∃ t, exec (.bne shop bench a b off) s = .next t ∧ benchResult shop bench (go (X != Y)) s t) ∧
    (∃ t, exec (.blt shop bench a b off) s = .next t ∧ benchResult shop bench (go (X.slt Y)) s t) ∧
    (∃ t, exec (.bge shop bench a b off) s = .next t ∧ benchResult shop bench (go (Y.sle X)) s t) ∧
    (∃ t, exec (.jal shop bench d 0 off) s = .next t ∧ benchResult shop bench (fun b => jumpTo target (putS d ((b.pc + 1) % 4096) b)) s t) ∧
    (∃ t, exec (.jr shop bench 0 a 0 0 0 0) s = .next t ∧ benchResult shop bench (jumpTo (getS x a % 4096)) s t) ∧
    (1 ≤ off → off ≤ 1024 → x.loop = none → ∃ t, exec (.loop shop bench 0 a off) s = .next t ∧ benchResult shop bench (fun b =>
      if getS x a = 0 then { b with pc := (b.pc + 1 + off) % 4096 }
      else { b with pc := (b.pc + 1) % 4096, loop := some ((b.pc + 1) % 4096, (b.pc + 1 + off) % 4096, getS x a) }) s t) ∧
    (∃ t, exec (.csrw shop bench 0 a 0) s = .next t ∧ benchResult shop bench (fun b => benchNext { b with bctl := getS x a &&& 0xF7 }) s t) ∧
    (∃ t, exec (.csrw shop bench 0 a 1) s = .next t ∧ benchResult shop bench (fun b => benchNext { b with bflags := getS x a &&& 0x3F }) s t) ∧
    (∃ t, exec (.csrw shop bench 0 a 6) s = .next t ∧ benchResult shop bench (fun b => benchNext { b with bsridx := X }) s t)

/-- SLD, SST, VLD and VST address the bench's own local memory: scalar accesses must be naturally aligned, vector accesses 32-byte aligned; an access that is
misaligned or falls outside 0x000 to 0xFFF is a LOCAL_ADDR fault (R94). -/
def Obligations.BenchLocalMemory : Prop :=
  ∀ (s : State) (shop bench d a imm : Nat), d < 32 → a < 32 → imm < 65536 → benchIssues s shop bench [d, a] [d] = true →
    let k := benchKey shop bench
    let x := benchOf s k
    let addr := (BitVec.ofNat 64 (getS x a) + (BitVec.ofNat 16 imm).signExtend 64).toNat
    let value := fun (n : Nat) => ofLeBytes ((List.range n).map (fun i => tget 0 x.local_ (addr + i)))
    let loads := fun (n v : Nat) (i : Instr) =>
      if addr % n = 0 ∧ addr + n ≤ 4096 then ∃ t, exec i s = .next t ∧ scalarResult shop bench d v 0 s t
      else exec i s = .next (benchFault k 3 (bumpBell 2 shop 1 1 (shopActivity shop 216 (bump (shopC shop 0x138) 1 s))))
    let stored := fun (n v : Nat) (t : State) =>
      (∀ j, tget 0 (benchOf t k).local_ j = if addr ≤ j ∧ j < addr + n then BitVec.ofNat 8 (v / 2 ^ (8 * (j - addr))) else tget 0 x.local_ j) ∧
      benchOf t k = { x with local_ := (benchOf t k).local_, pc := (benchNext x).pc, loop := (benchNext x).loop } ∧ benchFrame k s t
    let stores := fun (n v : Nat) (i : Instr) =>
      if addr % n = 0 ∧ addr + n ≤ 4096 then ∃ t, exec i s = .next t ∧ stored n v t
      else exec i s = .next (benchFault k 3 (bumpBell 2 shop 1 1 (shopActivity shop 216 (bump (shopC shop 0x138) 1 s))))
    loads 1 ((BitVec.ofNat 8 (value 1)).signExtend 64).toNat (.sldb shop bench d a imm) ∧
    loads 4 ((BitVec.ofNat 32 (value 4)).signExtend 64).toNat (.sldw shop bench d a imm) ∧
    loads 8 (value 8) (.sldd shop bench d a imm) ∧
    stores 1 (getS x d) (.sstb shop bench d a imm) ∧
    stores 4 (getS x d) (.sstw shop bench d a imm) ∧
    stores 8 (getS x d) (.sstd shop bench d a imm) ∧
    (if addr % 32 = 0 ∧ addr + 32 ≤ 4096 then ∃ t, exec (.vld shop bench d a imm) s = .next t ∧
        (∀ r, getV (benchOf t k) r = if r = d then value 32 else getV x r) ∧
        benchOf t k = { x with v := (benchOf t k).v, pc := (benchNext x).pc, loop := (benchNext x).loop } ∧ benchFrame k s t
      else exec (.vld shop bench d a imm) s = .next (benchFault k 3 (bumpBell 2 shop 1 1 (shopActivity shop 216 (bump (shopC shop 0x138) 1 s))))) ∧
    stores 32 (getV x d) (.vst shop bench d a imm)

/-- VLDM reads 32 bytes as its context may, and returns them later; VSTM stores 32 bytes; SATOM changes an aligned warehouse word by Table 15.4 and returns
the word before the operation, or, where the line is poisoned, poison without changing it (R95, R96, R373, R384). Nothing else in device memory changes. -/
def Obligations.BenchDeviceMemory : Prop :=
  ∀ (s : State) (shop bench d a b imm : Nat), d < 32 → a < 32 → b < 32 → imm < 65536 →
    let k := benchKey shop bench
    let x := benchOf s k
    let ten := ctxTenant s x.ctx
    let addr := (BitVec.ofNat 64 (getS x a) + (BitVec.ofNat 16 imm).signExtend 64).toNat
    let data := (List.range 32).map (fun i => BitVec.ofNat 8 (getV x d / 2 ^ (8 * i)))
    let old := keyWord s
    (accessIssues s shop bench [a] [d] addr 32 = true → (peekCtx s x.ctx ten addr 32).ok = true → ∃ t, exec (.vldm shop bench d a imm) s = .next t ∧
      benchOf t k = outstanding 0 d (peekCtx s x.ctx ten addr 32).data (decide ((peekCtx s x.ctx ten addr 32).poison ≠ 0)) x ∧
      otherBenches k s t ∧ sameBytes s t ∧ countersOnly s t ∧
      t = { s with benches := t.benches, regs := t.regs, mem := t.mem, stks := t.stks, ras := t.ras, host := t.host, therm := t.therm }) ∧
    (∀ w, accessIssues s shop bench [a] [d] addr 32 = true → (∀ i, i < 32 → homeKey (resolve s ten (addr + i)) = some (w + i)) →
      (w < 0xC000000000 → (frameOf s (w / 65536)).lost = false) → w % 32 = 0 → writeOk s x.ctx ten addr 32 = true →
      ∃ t, exec (.vstm shop bench d a imm) s = .next t ∧ benchOf t k = outstanding 1 0 [] false x ∧ otherBenches k s t ∧ bytesStored w data s t ∧
      countersOnly s t ∧ t = { s with benches := t.benches, regs := t.regs, mem := t.mem, stks := t.stks }) ∧
    (∀ w c, c < 6 → accessIssues s shop bench [d, a, b] [] (getS x a) 8 = true → resolve s ten (getS x a) = .warehouse w → keyPoison s w = 0 →
      ∃ t, exec (.satom shop bench d a b c 0 0) s = .next t ∧ benchOf t k = outstanding 2 d (leBytes 8 (old w 8)) false x ∧ otherBenches k s t ∧
      bytesStored w (leBytes 8 (atomicOp c (old w 8) (getS x b) (getS x d))) s t ∧ countersOnly s t ∧
      t = { s with benches := t.benches, regs := t.regs, mem := { s.mem with bytes := t.mem.bytes } }) ∧
    (∀ w c, c < 6 → accessIssues s shop bench [d, a, b] [] (getS x a) 8 = true → resolve s ten (getS x a) = .warehouse w → keyPoison s w ≠ 0 →
      ∃ t, exec (.satom shop bench d a b c 0 0) s = .next t ∧ benchOf t k = outstanding 2 d (leBytes 8 (old w 8)) true x ∧ benchFrame k s t)

/-- The data of an outstanding VLDM or SATOM reaches its register; a VSTM completes; both leave the sixteen outstanding accesses (R95, R96, R373). -/
def Obligations.BenchAccessReturns : Prop :=
  ∀ (s : State) (shop bench id stall : Nat) (acc : OutAcc),
    (benchOf s (benchKey shop bench)).out.find? (fun a => decide (a.id = id)) = some acc → acc.arrived = true →
    let k := benchKey shop bench
    let x := benchOf s k
    let frame := fun (t : State) => otherBenches k s t ∧ countersOnly s t ∧ t = { s with benches := t.benches, regs := t.regs, tal := t.tal, bal := t.bal }
    (acc.kind = 0 → acc.poison = false → ∃ t, exec (.benchLoadReturn shop bench id stall) s = .next t ∧ frame t ∧
      (∀ r, getV (benchOf t k) r = if r = acc.dest then ofLeBytes acc.data % 2 ^ 256 else getV x r) ∧
      benchOf t k = accessDone id { x with v := (benchOf t k).v }) ∧
    (acc.kind = 2 → acc.poison = false → ∃ t, exec (.benchLoadReturn shop bench id stall) s = .next t ∧ frame t ∧
      (∀ r, getS (benchOf t k) r = if r = acc.dest ∧ r ≠ 0 then ofLeBytes acc.data % 2 ^ 64 else getS x r) ∧
      benchOf t k = accessDone id { x with s := (benchOf t k).s }) ∧
    (acc.kind = 1 → ∃ t, exec (.writeCompletion shop bench id) s = .next t ∧ frame t ∧ benchOf t k = accessDone id x)

/-- FENCE holds later accesses for those outstanding; MWAIT waits until at most IMM are outstanding; TWAIT waits until the tally is at least B; TSIG signals
it once every earlier access has been performed (R373, R374, R378); a tally that the tenant may not reach is a fault (R381). -/
def Obligations.BenchOrderingAndTallies : Prop :=
  ∀ (s : State) (shop bench a b imm : Nat), a < 32 → b < 32 → imm < 65536 → benchIssues s shop bench [a, b] [] = true →
    let k := benchKey shop bench
    let x := benchOf s k
    let n := getS x a
    let v := getS x b % 2 ^ 32
    let own := n < 65536 ∧ tallyAllowed s (ctxTenant s x.ctx) n = true
    (∃ t, exec (.fence shop bench 0 0 0 0 0 0) s = .next t ∧ benchFrame k s t ∧
      benchOf t k = benchNext { x with fence := x.out.map (fun o => o.id) }) ∧
    (∃ t, exec (.mwait shop bench 0 0 imm) s = .next t ∧ benchFrame k s t ∧
      benchOf t k = { benchNext x with wait := if x.out.length ≤ imm then .run else .outstanding imm }) ∧
    (own → x.fence = [] → v ≤ (tallyOf s n).value.toNat → ∃ t, exec (.twait shop bench 0 a b 0 0 0) s = .next t ∧ benchFrame k s t ∧
      benchOf t k = benchNext x) ∧
    (own → x.fence = [] → (tallyOf s n).value.toNat < v → ∃ t, exec (.twait shop bench 0 a b 0 0 0) s = .next t ∧ otherBenches k s t ∧
      benchOf t k = { benchNext x with wait := .tally } ∧
      t.tal = { s.tal with waits := s.tal.waits ++ [⟨n, v, ctxTenant s x.ctx, x.ctx, .bench k, false⟩] } ∧ countersOnly s t ∧
      t = { s with benches := t.benches, tal := t.tal, regs := t.regs }) ∧
    (own → x.fence = [] → ∃ t, exec (.tsig shop bench 0 a b 0 0 0) s = .next t ∧ otherBenches k s t ∧ countersOnly s t ∧
      t = { s with benches := t.benches, tal := t.tal, bal := t.bal, regs := t.regs } ∧
      benchOf t k = { benchNext x with sigs := (x.sigs ++ [(x.out.map (fun o => o.id), n, v)]).filter (fun y => !y.1.isEmpty) } ∧
      (x.out = [] → x.sigs = [] → tget none s.tal.relays n = none →
        tallyOf t n = (if (tallyOf s n).value.toNat + v ≤ 0xFFFFFFFF then ⟨BitVec.ofNat 32 ((tallyOf s n).value.toNat + v), (tallyOf s n).ovf⟩ else ⟨0xFFFFFFFF, true⟩) ∧
        ∀ m, m ≠ n → tallyOf t m = tallyOf s m)) ∧
    (¬own → x.fence = [] → ∀ l, launchOf s k = some l → (shopOf s (k / 256)).benchFault = none →
      ∃ t, exec (.twait shop bench 0 a b 0 0 0) s = .next t ∧ (shopOf t (k / 256)).benchFault = some [5, k % 256, x.pc, l.cmd.ctx])

/-- HALT ends the bench's instance: its flags join the launch's, and the bench takes the next undispatched instance of a launch of its group, unless a reset
waits for it (R99, R109). -/
def Obligations.BenchHalts : Prop :=
  ∀ (s : State) (shop bench i : Nat) (l : Launch), bench < 256 → benchIssues s shop bench [] [] = true →
    (benchOf s (benchKey shop bench)).launch = some i → (shopOf s shop).launches[i]? = some l →
    let k := benchKey shop bench
    let x := benchOf s k
    let ended := { x with launch := none, loop := none, out := (x.out.filter (fun a => a.kind != 0)).map (fun a => { a with dest := 0 }) }
    ∃ t, exec (.halt shop bench 0 0 0 0 0 0) s = .next t ∧ otherBenches k s t ∧ otherShops shop s t ∧ countersOnly s t ∧
      t = { s with benches := t.benches, shops := t.shops, regs := t.regs } ∧
      (∃ l', (shopOf t shop).launches[i]? = some l' ∧ l' = { l with halted := l.halted + 1, flags := l.flags ||| x.bflags, next := l'.next }) ∧
      (x.resetPend = true ∨ launchFor s shop bench = none → benchOf t k = ended) ∧
      (∀ j lj, x.resetPend = false → launchFor s shop bench = some j → (shopOf s shop).launches[j]? = some lj →
        benchOf t k = started s lj j lj.next ended ∧ ((shopOf t shop).launches[j]?.map (fun m => m.next)) = some (lj.next + 1))

/-- KLOAD puts an accepted image into the named slots of every group of its mask (R97, R106); LAUNCH gives instances to the free benches of its mask in
ascending order (R98, R99); LAUNCH_COMPLETE ends a launch whose instances have halted and whose stores, atomics and signals have completed (R99). -/
def Obligations.BenchGroupEngine : Prop :=
  ∀ (s : State) (shop : Nat) (r : Run),
    (activeRun s shop 2 0x20 = some r →
      let img := bf r.cmd.body 0 63 0
      let first := bf r.cmd.body 1 1 0
      let count := bf r.cmd.body 1 4 2
      let groups := bf r.cmd.body 1 31 16
      let h := readCtx r.cmd.ctx r.cmd.tenant img 32 s
      let len := leAt h.1.data 8 2
      let body := (readCtx r.cmd.ctx r.cmd.tenant (img + 32) (4 * len) (portBytes shop 32 h.2)).1
      1 ≤ count → first + count ≤ 4 → h.1.ok = true → h.1.poison = 0 → benchHdrOk 2 (768 * count) h.1.data = true → body.ok = true → body.poison = 0 →
      (crc32 body.data).toNat = leAt h.1.data 12 4 →
      ∃ t, exec (.kload shop) s = .next t ∧ otherShops shop s t ∧ sameBytes s t ∧ countersOnly s t ∧
        t = { s with shops := t.shops, regs := t.regs, mem := t.mem, stks := t.stks, ras := t.ras, host := t.host, therm := t.therm } ∧
        (engOf t shop 2) = (engOf (runDone shop 2 0x20 s) shop 2) ∧
        (∀ g j, g < 16 → j < 4 → tget none (shopOf t shop).slots (g * 4 + j) =
          if bitOf groups g ∧ first ≤ j ∧ j < first + count then some ⟨leAt h.1.data 6 2, r.cmd.ctx, r.cmd.tenant, first⟩
          else tget none (shopOf s shop).slots (g * 4 + j)) ∧
        (∀ g j, g < 16 → j < 4096 → tget 0 (shopOf t shop).imem (g * 4096 + j) =
          if bitOf groups g ∧ 0x400 + 0x300 * first ≤ j ∧ j < 0x400 + 0x300 * first + len then BitVec.ofNat 32 (leAt body.data (4 * (j - (0x400 + 0x300 * first))) 4)
          else tget 0 (shopOf s shop).imem (g * 4096 + j))) ∧
    (newLaunch s shop = some r →
      let groups := bf r.cmd.body 2 43 28
      let slot := bf r.cmd.body 2 17 16
      let count := bf r.cmd.body 1 47 32 + 1
      let free := (List.range 256).filter (fun b => inGroups groups b && benchFree s (benchKey shop b))
      (∀ g, g < 16 → bitOf groups g = true → ∃ k, tget none (shopOf s shop).slots (g * 4 + slot) = some k ∧ k.kid = bf r.cmd.body 2 15 0 ∧ k.tenant = r.cmd.tenant) →
      (∃ b, b < 256 ∧ inGroups groups b = true ∧ (benchOf s (benchKey shop b)).absent = false) → (shopOf s shop).launches = [] →
      ∃ t l, exec (.launch shop) s = .next t ∧ otherShops shop s t ∧ t = { s with shops := t.shops, benches := t.benches } ∧
        (shopOf t shop).launches = [l] ∧ l.cmd = r.cmd ∧ l.groups = groups ∧ l.count = count ∧ l.halted = 0 ∧ l.next = min count free.length ∧
        l.entry = (0x400 + 0x300 * slot + bf r.cmd.body 2 27 18) % 4096 ∧ l.argBase = bf r.cmd.body 0 63 0 ∧ l.argStride = bf r.cmd.body 1 31 0 ∧
        (∀ b, b < 256 → benchOf t (benchKey shop b) =
          if inGroups groups b && benchFree s (benchKey shop b) && decide (free.idxOf b < count) then started s l 0 (free.idxOf b) (benchOf s (benchKey shop b))
          else benchOf s (benchKey shop b)) ∧ (∀ k, k / 256 ≠ shop → benchOf t k = benchOf s k)) ∧
    (∀ i l, (shopOf s shop).launches.findIdx? (launchOver s shop) = some i → (shopOf s shop).launches[i]? = some l →
      ∃ t, exec (.launchComplete shop) s = .next t ∧ otherShops shop s t ∧ t = { s with shops := t.shops, benches := t.benches } ∧
        (shopOf t shop).launches = (shopOf s shop).launches.eraseIdx i ∧
        (engOf t shop 2).runs = (engOf s shop 2).runs.map (fun r => if r.cmd = l.cmd then { r with done := true } else r))

/-- An uncorrectable error of a bench: a spare takes its number while one is free, and otherwise it is absent; its launch is lost unless it can run again; a
bad word of a kernel slot empties the slot (R84, R103). A bench reset clears the bench at once when it runs nothing, and after the halt otherwise; firmware
is taken at a boundary with no launch running (R108, R109). -/
def Obligations.BenchErrorsResetsFirmware : Prop :=
  ∀ (s : State) (shop bench : Nat), shopPresent s shop = true → bench < 256 →
    let k := benchKey shop bench
    let x := benchOf s k
    let frame := fun (t : State) => otherBenches k s t ∧ t = { s with benches := t.benches }
    (∀ slot, x.absent = false → x.launch = none → (shopOf s shop).spareFree > 0 → ∃ t, exec (.benchUncorrectableError shop bench 0 slot) s = .next t ∧
      benchOf t k = BenchSt.reset ∧ otherBenches k s t ∧ (shopOf t shop).spareFree = (shopOf s shop).spareFree - 1 ∧ (shopOf t shop).lastSpared = bench) ∧
    (∀ slot, x.absent = false → x.launch = none → (shopOf s shop).spareFree = 0 → ∃ t, exec (.benchUncorrectableError shop bench 0 slot) s = .next t ∧
      benchOf t k = { BenchSt.reset with absent := true } ∧ otherBenches k s t) ∧
    (∀ slot l, x.absent = false → launchOf s k = some l → (l.idem = false ∨ l.rerun = true) → (shopOf s shop).benchFault = none →
      ∃ t, exec (.benchUncorrectableError shop bench 0 slot) s = .next t ∧ (shopOf t shop).benchFault = some [0xB, bench, x.pc, l.cmd.ctx]) ∧
    (∀ slot, x.absent = false → slot < 4 → ∃ t, exec (.benchUncorrectableError shop bench 1 slot) s = .next t ∧
      tget none (shopOf t shop).slots (bench / 16 * 4 + slot) = none) ∧
    (∀ high, x.launch = none → ∃ t, exec (.shopBenchReset shop (bench + 512 * high)) s = .next t ∧ frame t ∧
      benchOf t k = { BenchSt.reset with resetting := true, absent := x.absent, nextOut := x.nextOut, sigs := x.sigs, out := x.out.filter (fun a => a.kind != 0) }) ∧
    (∀ high, x.launch.isSome = true → ∃ t, exec (.shopBenchReset shop (bench + 512 * high)) s = .next t ∧ frame t ∧ benchOf t k = { x with resetPend := true }) ∧
    (x.resetPend = true → x.launch = none → ∃ t, exec (.benchResetStart shop bench) s = .next t ∧ frame t ∧
      benchOf t k = { BenchSt.reset with resetting := true, absent := x.absent, nextOut := x.nextOut, sigs := x.sigs, out := x.out.filter (fun a => a.kind != 0) }) ∧
    (x.resetting = true → launchFor s shop bench = none → ∃ t, exec (.benchResetDone shop bench) s = .next t ∧ frame t ∧ benchOf t k = { x with resetting := false }) ∧
    (∀ v c words, (shopOf s shop).fwPending = some (v, c, words) → (shopOf s shop).launches = [] → words.length ≤ 1024 →
      ∃ t, exec (.benchFwTake shop) s = .next t ∧ (shopOf t shop).fwVersion = v ∧ (shopOf t shop).fwCrc = c ∧ (shopOf t shop).fwPending = none ∧
        t.benches = s.benches ∧ sameBytes s t ∧
        (∀ g j, g < 16 → j < 4096 → tget 0 (shopOf t shop).imem (g * 4096 + j) =
          if j < words.length then BitVec.ofNat 32 (words.getD j 0) else tget 0 (shopOf s shop).imem (g * 4096 + j)))

/-! ### Engines and the matrix array -/

/-- LOAD copies LENGTH bytes to the same offset of every target's stockroom (R62); STORE converts ELEMENTS elements, scaled first when SCALED, and stores
them at DST (R124). Nothing else in memory changes. -/
def Obligations.LoadAndStore : Prop :=
  ∀ (s : State) (shop : Nat) (r : Run), r.refused = none →
    let b := r.cmd.body
    let ten := r.cmd.tenant
    let frame := fun (t : State) => otherShops shop s t ∧ countersOnly s t ∧
      t = { s with shops := t.shops, regs := t.regs, mem := t.mem, stks := t.stks, ras := t.ras, host := t.host, therm := t.therm }
    (activeRun s shop 0 1 = some r →
      let src := bf b 0 63 0
      let len := bf b 1 41 21
      let dst := bf b 1 20 0
      let targets := loadTargets s shop b
      remoteOf s ten src = none → homeInReset s (resolve s ten src) = false → dst + len ≤ 0x180000 →
      (∀ i, i < len → ∃ v, ctxByte s r.cmd.ctx ten (src + i) = some (v, 0)) → (∀ n, n ∈ targets → winOk s r.cmd.ctx n dst len = true) →
      ∃ t, exec (.load shop) s = .next t ∧ frame t ∧ engOf t shop 0 = engOf (runDone shop 0 1 s) shop 0 ∧
        (∀ n i, n ∈ targets → i < len → keyByte t (roomAddr n dst + i) = ((ctxByte s r.cmd.ctx ten (src + i)).getD (0, 0)).1) ∧
        (∀ k, (∀ n, n ∈ targets → ¬(roomAddr n dst ≤ k ∧ k < roomAddr n dst + len)) → keyByte t k = keyByte s k)) ∧
    (activeRun s shop 3 0x30 = some r → r.asked = false →
      let dst := bf b 0 63 0
      let src := bf b 1 20 0
      let e := bf b 1 47 21
      let fs := (codeFmt (bf b 1 51 48)).getD .fp32
      let fd := (codeFmt (bf b 1 55 52)).getD .fp32
      let raw := roomRead s shop src (elemBytes fs e)
      let val := fun (i : Nat) => if bf b 1 56 56 = 1 then mulV (decodeElem fs (elemCode fs raw i)) (ofF32 (bf b 2 31 0)) else decodeElem fs (elemCode fs raw i)
      let rnd := fun (i : Nat) => if (cvtOfBits r.cmd.cvt).rmode = 2 then srRandom r.cmd.seed (bf b 3 39 0 + i) else 0
      let out := packElems fd ((List.range e).map (fun i => convertTo fd (cvtOfBits r.cmd.cvt) (rnd i) (val i)))
      ∀ w, roomPoison s shop src (elemBytes fs e) = false → homeInReset s (resolve s ten dst) = false → homeKey (resolve s ten dst) = some w →
      (∀ i, i < out.length → homeKey (resolve s ten (dst + i)) = some (w + i) ∧ (w + i < 0xC000000000 → (frameOf s ((w + i) / 65536)).lost = false)) →
      ∃ t, exec (.store shop) s = .next t ∧ frame t ∧ engOf t shop 3 = engOf (runDone shop 3 0x30 s) shop 3 ∧ bytesStored w out s t)

/-- STORE_KV writes TOKENS rows, each converted, as key or value rows of one layer and head, with zeros to the row stride (R221, R211). -/
def Obligations.StoreKvWritesRows : Prop :=
  ∀ (s : State) (shop o : Nat) (r : Run) (kv : KvDesc) (at_ : Nat → Nat), activeRun s shop 3 0x31 = some r → r.refused = none → r.asked = false →
    let b := r.cmd.body
    let src := bf b 1 20 0
    let tokens := bf b 1 33 21
    let d := bf b 1 43 34
    let fs := (codeFmt (bf b 1 47 44)).getD .fp32
    let fd := (codeFmt (bf b 1 51 48)).getD .fp32
    let l := bf b 2 27 16
    let h := bf b 2 35 28
    let p := fun (i : Nat) => bf b 0 31 0 + i
    let sel := bf b 2 36 36
    let q := kvParts s kv
    let stride := kvStride kv
    let raw := roomRead s shop src (elemBytes fs (tokens * d))
    let row := fun (i : Nat) => packElems fd (convertList fd r.cmd.cvt r.cmd.seed ((List.range d).map (fun j =>
      (decodeElem fs (elemCode fs raw (i * d + j)), kvElemIndex kv l h (p i) sel j)))).1
    storeKvOrder s r.cmd = .inr o → orderKv s o = some kv → kvCheck s o l h (p 0) tokens d (bf b 1 47 44) (bf b 1 51 48) = 0 →
    (∀ i, i < tokens → roomPoison s shop (src + i * d * fmtBits fs / 8) (d * fmtBits fs / 8) = false ∧
      (devHolds kv.layers q.1 l && devHolds kv.heads q.2.1 h && devHolds kv.pos q.2.2 (p i)) = true ∧
      kvRowKey s o (devLocal kv.layers l) (devLocal kv.heads h) (devLocal kv.pos (p i)) sel = some (at_ i) ∧ (frameOf s (at_ i / 65536)).lost = false) →
    (∀ i j, i < tokens → j < tokens → i ≠ j → at_ i + stride ≤ at_ j ∨ at_ j + stride ≤ at_ i) →
    ∃ t, exec (.storeKv shop) s = .next t ∧ otherShops shop s t ∧ countersOnly s t ∧
      t = { s with shops := t.shops, regs := t.regs, mem := t.mem, stks := t.stks } ∧ engOf t shop 3 = engOf (runDone shop 3 0x31 s) shop 3 ∧
      (∀ i j, i < tokens → j < stride → keyByte t (at_ i + j) = (((row i).take stride)[j]?).getD 0) ∧
      (∀ k, (∀ i, i < tokens → ¬(at_ i ≤ k ∧ k < at_ i + stride)) → keyByte t k = keyByte s k)

/-- LOAD_PLANE expands whole segments: the blocks of the segments in order, each block's elements at DST and its header at SCALEDST of every target (R49,
R143, R146); it completes when no block faults and the segments' lengths add up to LENGTH, and is a FORMAT fault where they do not. -/
def Obligations.PlaneLoads : Prop :=
  ∀ (s : State) (shop : Nat) (r : Run), activeRun s shop 0 2 = some r → r.refused = none →
    let b := r.cmd.body
    let src := bf b 0 63 0
    let len := bf b 1 41 21
    let f := (codeFmt (bf b 1 45 42)).getD .fp32
    let bytes := (List.range len).map (fun i => ((ctxByte s r.cmd.ctx r.cmd.tenant (src + i)).getD (0, 0)).1)
    let segs := segmentsOf bytes (len / 1024 + 1) 0
    let blocks := segs.1.flatMap (fun g => (List.range g.headers.length).map (fun j => (g, j)))
    let read := portBytes shop len (readFx r.cmd.tenant src len s)
    let done := loadBlocks shop r bytes [] blocks 0 read
    remoteOf s r.cmd.tenant src = none → homeInReset s (resolve s r.cmd.tenant src) = false →
    (∀ i, i < len → ∃ v, ctxByte s r.cmd.ctx r.cmd.tenant (src + i) = some (v, 0)) → done.2 = 0 →
    (segs.2 = true → ∃ t, exec (.loadPlane shop) s = .next t ∧ otherShops shop s t ∧ engOf t shop 0 = engOf (runDone shop 0 2 s) shop 0 ∧
      (∀ k, keyByte t k = keyByte done.1 k) ∧ t = { s with shops := t.shops, regs := t.regs, mem := t.mem, stks := t.stks, ras := t.ras, host := t.host, therm := t.therm } ∧
      (∀ g j n, blocks = [(g, j)] → n ∈ loadTargets s shop b → bf b 1 20 0 + elemBytes f 256 ≤ bf b 4 20 0 ∨ bf b 4 20 0 + 16 ≤ bf b 1 20 0 →
        roomRead t n (bf b 1 20 0) (elemBytes f 256) =
          packElems f (convertList f 0 0 ((expandBlock (g.headers.getD j 0) (blockPlanes bytes g j)).map (fun v => (v, 0)))).1 ∧
        roomRead t n (bf b 4 20 0) 16 = leBytes 16 (g.headers.getD j 0))) ∧
    (segs.2 = false → ∃ t, exec (.loadPlane shop) s = .next t ∧ tget 0 t.regs.live (shopC shop 0x170) ≠ 0 ∧
      ((shopOf s shop).fault = none → (shopOf t shop).fault = some [4, 0, r.cmd.engine, r.cmd.ctx, srcTempl r.cmd.src, srcTicket r.cmd.src]))

/-- XLAYOUT, XGATHER and XSCATTER: a command that passes the checks of R150 and R151 and meets no poison moves every element of its view, with zeros where a
skipped index asks for them (R148 to R150); where its destination elements are distinct, each holds the element moved to it. -/
def Obligations.Transforms : Prop :=
  ∀ (s : State) (shop cycles : Nat) (r : Run),
    let moved := fun (op : Nat) (i : Instr) =>
      let f := transformFmt r
      let moves := transformMoves s shop op r
      let ranges := transformRanges s shop op r
      let src := bf r.cmd.body 0 20 0
      let dst := bf r.cmd.body 0 41 21
      let raw := roomRead s shop src (ranges.1.2 - src)
      activeRun s shop 4 op = some r → transformCode s shop op r = 0 →
      (∀ m o, m ∈ moves → m.1 = some o → elemPoison s shop f src o = false) →
      ∃ t, exec i s = .next t ∧ engOf t shop 4 = engOf (runDone shop 4 op s) shop 4 ∧ otherShops shop s t ∧ countersOnly s t ∧
        t = { s with shops := t.shops, regs := t.regs, mem := t.mem } ∧
        (∀ k, keyByte t k = keyByte (moves.foldl (fun x m => putElem shop f dst m.2 ((m.1.map (elemCode f raw)).getD 0) x) s) k) ∧
        ((fmtBits f = 8 ∨ fmtBits f = 16 ∨ fmtBits f = 32) → (moves.map Prod.snd).Nodup → ∀ m, m ∈ moves →
          roomRead t shop (dst + m.2 * (fmtBits f / 8)) (fmtBits f / 8) = leBytes (fmtBits f / 8) ((m.1.map (elemCode f raw)).getD 0))
    moved 0x40 (.xlayout shop cycles) ∧ moved 0x41 (.xgather shop cycles) ∧ moved 0x42 (.xscatter shop cycles)

/-- The weight loader fills the free buffer row by row, once the row is free; a pass enters the array with its tag, its slots and its activations, its tile
complete (R65 to R71). -/
def Obligations.ArrayPasses : Prop :=
  ∀ (s : State) (shop : Nat) (r : Run), nextPass s shop = some r →
    let a := (shopOf s shop).array
    let b := r.cmd.body
    (∀ row slot, pCont b = false → row < tileRows b → a.rows.contains row = false → (a.count < 2 ∨ a.prevLast + row + 128 ≤ slot) →
      rowPoison s shop b row = false → ∃ t, exec (.weightRowWrite shop row slot) s = .next t ∧ otherShops shop s t ∧ t = { s with shops := t.shops } ∧
      shopOf t shop = { shopOf s shop with array := { a with weights := (shopOf t shop).array.weights, rows := a.rows ++ [row] } } ∧
      (∀ k, tget [] (shopOf t shop).array.weights k = if k = nextTag a * 512 + row then tileRow s shop b row else tget [] a.weights k)) ∧
    (∀ idle feed drain long, a.passes.length < 2 →
      ∃ t p, exec (.pass shop idle feed drain long) s = .next t ∧ otherShops shop s t ∧ countersOnly s t ∧ t = { s with shops := t.shops, regs := t.regs } ∧
      (shopOf t shop).array.passes = a.passes ++ [p] ∧ p.cmd = r.cmd ∧ p.tag = (if pCont b then a.tag else nextTag a) ∧ p.acts = passActs s shop b ∧ p.drained = 0 ∧
      p.last = entrySlot a b idle + pM b - 1 ∧ p.flag = none ∧ (shopOf t shop).array.tag = p.tag ∧ (shopOf t shop).array.lastSlot = p.last ∧
      (shopOf t shop).array.drainSlot = p.last + subRows (bf b 2 31 30) + 128 ∧ (shopOf t shop).array.mode = bf b 2 31 30 ∧ (shopOf t shop).array.cls = passClass b ∧
      (∀ row, row < tileRows b → pCont b = false → a.rows.contains row = false →
        tget [] (shopOf t shop).array.weights (p.tag * 512 + row) = tileRow s shop b row) ∧
      (pCont b = true → (shopOf t shop).array.weights = a.weights))

/-- The drain writes a checked output vector, and the pass completes with its last; a flagged vector is not written, nor any later one (R66, R79). A replay
clears the flag; a hard error retires a column or row, or fails the array where no spare is left (R80). -/
def Obligations.ArrayDrainAndReplay : Prop :=
  ∀ (s : State) (shop : Nat) (p : PassSt) (rest : List PassSt), (shopOf s shop).array.passes = p :: rest →
    let a := (shopOf s shop).array
    let cells := (List.range (pSubs p.cmd.body)).flatMap (fun i => (List.range (pN p.cmd.body)).map (fun c => drainCell s shop a p p.drained i c))
    (∀ row col parity multi, p.flag = none → a.failed = false → ∃ t, exec (.passDrain shop true row col parity multi) s = .next t ∧ otherShops shop s t ∧
      t = { s with shops := t.shops } ∧
      shopOf t shop = { shopOf s shop with array := { a with passes := { p with flag := some (row, col, parity, multi) } :: rest } }) ∧
    (∀ row col parity multi, p.flag = none → a.failed = false → (∀ x, x ∈ cells → x.2.2.2 = false) → p.poisonAt ≠ some p.drained →
      (cells.map (fun x => x.1)).Pairwise (fun x y => x + 4 ≤ y ∨ y + 4 ≤ x) →
      ∃ t, exec (.passDrain shop false row col parity multi) s = .next t ∧ otherShops shop s t ∧ countersOnly s t ∧
      t = { s with shops := t.shops, regs := t.regs, mem := t.mem } ∧ (∀ x, x ∈ cells → roomRead t shop x.1 4 = leBytes 4 x.2.1) ∧
      (∀ k, (∀ x, x ∈ cells → ¬(roomAddr shop x.1 ≤ k ∧ k < roomAddr shop x.1 + 4)) → keyByte t k = keyByte s k) ∧
      (shopOf t shop).array.passes = (if p.drained + 1 ≥ pM p.cmd.body then rest else { p with drained := p.drained + 1 } :: rest) ∧
      (p.drained + 1 ≥ pM p.cmd.body → engOf t shop 1 = engOf (runDone shop 1 0x10 s) shop 1)) ∧
    (∀ row col parity multi, p.flag = some (row, col, parity, multi) →
      let cell := physIndex a.rowsOff row * 256 + physIndex a.colsOff col
      let count := tget 0 a.transients cell + 1
      (count < 3 → ∃ t, exec (.arrayReplay shop false) s = .next t ∧ otherShops shop s t ∧ (shopOf t shop).array.passes = { p with flag := none } :: rest ∧
        (shopOf t shop).transient = min 0xFFFF ((shopOf s shop).transient + 1) ∧ tget 0 (shopOf t shop).array.transients cell = count ∧
        (shopOf t shop).array.rowsOff = a.rowsOff ∧ (shopOf t shop).array.colsOff = a.colsOff) ∧
      (∀ sp, multi = false → a.colsOff.find? (fun x => x.2) = some sp → ∃ t, exec (.arrayReplay shop true) s = .next t ∧ otherShops shop s t ∧
        (shopOf t shop).array.passes = { p with flag := none } :: rest ∧ (shopOf t shop).array.lastCol = physIndex a.colsOff col ∧
        (shopOf t shop).array.colsOff = a.colsOff.filter (fun x => decide (x.1 ≠ sp.1)) ++ [(physIndex a.colsOff col, false)] ∧
        (shopOf t shop).array.rowsOff = a.rowsOff ∧ (shopOf t shop).hard = min 0xFF ((shopOf s shop).hard + 1)) ∧
      ((∀ x, x ∈ a.colsOff ++ a.rowsOff → x.2 = false) → ∃ t, exec (.arrayReplay shop true) s = .next t ∧ otherShops shop s t ∧
        (shopOf t shop).array.failed = true))

/-! ### Sheets, tickets and engine queues -/

/-- A sheet load takes a free bank, or waits (R116); its image is read and checked (R122); a GO marks the bank, and, once the image is in, a bad image is a
SHEET_BAD fault and the waits go to the tally unit (R117, R589); the sheet starts when its waits hold and its windows can be granted (R118, R120). -/
def Obligations.SheetLoadsAndStarts : Prop :=
  ∀ (s : State) (shop : Nat), shopPresent s shop = true →
    (∀ ctx addr x, ctxOf s ctx = some x → (shopOf s shop).loads = [] → ∃ t, exec (.sheetLoad shop ctx addr) s = .next t ∧ otherShops shop s t ∧
      t = { s with shops := t.shops } ∧
      (∀ b, (shopOf s shop).banks.findIdx? (fun k => decide (k.st = 0)) = some b → (shopOf t shop).loads = [] ∧
        bankOf t shop b = { SheetBank.reset with st := 1, ctx := ctx, lc := x.lc, tenant := x.tenant, addr := addr }) ∧
      ((∀ k, k ∈ (shopOf s shop).banks → k.st ≠ 0) → shopOf t shop = { shopOf s shop with loads := [⟨ctx, addr, x.lc, x.tenant⟩] })) ∧
    (∀ b, (bankOf s shop b).st = 1 → (bankOf s shop b).go = false →
      let k := bankOf s shop b
      let img := peekCtx s k.ctx k.tenant k.addr 2048
      let words := (List.range 256).map (fun i => leAt img.data (8 * i) 8)
      ∃ t, exec (.sheetImageLoaded shop b) s = .next t ∧ otherShops shop s t ∧ sameBytes s t ∧ countersOnly s t ∧ bankOf t shop b = { k with
        st := 2, regs := words
        bad := if img.ok = false ∨ img.poison ≠ 0 then some 1 else if imageOk img.data words then none else some 0 }) ∧
    (∀ ctx addr b, bankFor s shop ctx addr = some b → (bankOf s shop b).go = false →
      let k := bankOf s shop b
      (k.st ≠ 2 → ∃ t, exec (.go shop ctx addr) s = .next t ∧ otherShops shop s t ∧ t = { s with shops := t.shops } ∧
        bankOf t shop b = { k with go := true, resume := false }) ∧
      (k.st = 2 → k.bad = none → tallyWordsOk s k.tenant (sheetWaits k.regs ++ sheetSignals k.regs) = true →
        ∃ t, exec (.go shop ctx addr) s = .next t ∧ otherShops shop s t ∧ t = { s with shops := t.shops, tal := t.tal } ∧
        bankOf t shop b = { k with go := true, resume := false, waited := (postWaits k.ctx k.tenant (.sheet (shop * 2 + b)) (sheetWaits k.regs) s).1 }) ∧
      (∀ sub, k.st = 2 → k.bad = some sub → (shopOf s shop).fault = none → ∃ t, exec (.go shop ctx addr) s = .next t ∧
        (shopOf t shop).fault = some [1, sub, 0, k.ctx, 0x1E, 0])) ∧
    (∀ b c, (bankOf s shop b).st = 2 → (bankOf s shop b).go = true → (bankOf s shop b).bad = none → (bankOf s shop b).resume = false →
      let k := bankOf s shop b
      waitsHold (sheetWaits k.regs) k.waited = true → grantable s shop k.tenant (sheetWindows k.regs) = true →
      nextEmission k.regs (nestFuel k.regs) ⟨List.replicate 7 0, 0, 0, 0⟩ = some c →
      ∃ t, exec (.sheetStart shop b) s = .next t ∧ otherShops shop s t ∧ t = { s with shops := t.shops } ∧
        bankOf t shop b = { k with st := 3, granted := true, tokens := List.replicate 20 0, cur := some c } ∧
        ((∀ w, w ∈ (shopOf s shop).windows → ¬(w.ctx = k.ctx ∧ w.holder = b)) →
          (shopOf t shop).windows.map (fun w => (w.ctx, w.tenant, w.base, w.size, w.holder)) =
            (shopOf s shop).windows.map (fun w => (w.ctx, w.tenant, w.base, w.size, w.holder)) ++
              (sheetWindows k.regs).map (fun q => (k.ctx, k.tenant, q.1, q.2, b))))

/-- A running sheet emits its next template instance into its engine's queue (R112, R120, R123); an idle engine starts the oldest ready command, LC first,
consuming its tokens, and one that fails its checks is a fault (R113, R114, R125); a done command completes and posts its tokens (R115); a NOP is done at
once (R124). -/
def Obligations.CommandsFlow : Prop :=
  ∀ (s : State) (shop : Nat),
    (∀ b c, (bankOf s shop b).cur = some c → (bankOf s shop b).st = 3 → (bankOf s shop b).stopped = false →
      let k := bankOf s shop b
      let n := tileNum k.regs c
      let cmd := makeCmd k b c
      (k.lastTile = some n ∨ (k.preempt = false ∧ tileAdmitted s k n = true)) → sheetEntries (engOf s shop cmd.engine) < 384 →
      cmd.engine < (shopOf s shop).engines.length →
      ∃ t, exec (.templateEmit shop b) s = .next t ∧ otherShops shop s t ∧ t = { s with shops := t.shops } ∧
        engOf t shop cmd.engine = { engOf s shop cmd.engine with queue := (engOf s shop cmd.engine).queue ++ [cmd] } ∧
        (∀ e, e ≠ cmd.engine → engOf t shop e = engOf s shop e) ∧
        bankOf t shop b = { k with
          lastTile := some n, tiles := (bankOf t shop b).tiles, cur := nextEmission k.regs (nestFuel k.regs) { c with templ := c.templ + 1 } } ∧
        (∃ x, x ∈ (bankOf t shop b).tiles ∧ x.num = n)) ∧
    (∀ b c, (bankOf s shop b).cur = some c → (bankOf s shop b).st = 3 → (bankOf s shop b).stopped = false → (bankOf s shop b).preempt = true →
      (bankOf s shop b).lastTile ≠ some (tileNum (bankOf s shop b).regs c) → ∃ t, exec (.templateEmit shop b) s = .next t ∧ otherShops shop s t ∧
        t = { s with shops := t.shops } ∧ bankOf t shop b = { bankOf s shop b with stopped := true }) ∧
    (∀ eng c, let heads := (queueHeads (engOf s shop eng).queue).filter (headReady s shop)
      (heads.find? (fun c => c.lc)).orElse (fun _ => heads.head?) = some c →
      (checkCmd s shop c = 0 → ∃ t, exec (.commandStart shop eng) s = .next t ∧ otherShops shop s t ∧ t = { s with shops := t.shops, sched := t.sched } ∧
        engOf t shop eng = ⟨(engOf s shop eng).queue.erase c, (engOf s shop eng).runs ++ [⟨c, decide (c.opcode = 0), s.bell, false, [], [], none⟩]⟩ ∧
        (∀ b i n, c.src = .templ b i n → (bankOf t shop b).tokens =
          (bitList c.waits 5).foldl (fun l p => l.modify (tokIdx p eng) (fun x => x - 1)) (bankOf s shop b).tokens)) ∧
      (checkCmd s shop c ≠ 0 → (shopOf s shop).fault = none → ∃ t, exec (.commandStart shop eng) s = .next t ∧
        (shopOf t shop).fault = some [checkCmd s shop c, 0, c.engine, c.ctx, srcTempl c.src, srcTicket c.src])) ∧
    (∀ eng i r, (List.range (engOf s shop eng).runs.length).find? (mayComplete s shop (engOf s shop eng).runs) = some i → (engOf s shop eng).runs[i]? = some r →
      ∃ t, exec (.commandComplete shop eng) s = .next t ∧ (engOf t shop eng).runs = (engOf s shop eng).runs.eraseIdx i ∧ otherShops shop s t ∧
        (∀ b j n, r.cmd.src = .templ b j n → (∀ x, x ∈ (bankOf s shop b).tiles → x.num = n → 2 ≤ x.left) →
          bankOf t shop b = { bankOf s shop b with
            tokens := (postsOf r.cmd).foldl (fun l p => l.modify p.1 (· + p.2)) (bankOf s shop b).tokens
            tiles := (bankOf s shop b).tiles.map (fun x => if x.num = n then { x with left := x.left - 1 } else x) } ∧ t = { s with shops := t.shops })) ∧
    (∀ eng i, (engOf s shop eng).runs.findIdx? (fun r => !r.done && r.cmd.opcode == 0) = some i → ∃ t, exec (.nop shop eng) s = .next t ∧
      otherShops shop s t ∧ t = { s with shops := t.shops } ∧
      engOf t shop eng = { engOf s shop eng with runs := (engOf s shop eng).runs.modify i (fun r => { r with done := true }) })

/-- A ticket list's accepted header puts the list on the shop, to wait while two are resident (R130); the ready ticket of the lowest index is issued (R132). -/
def Obligations.TicketsIssue : Prop :=
  ∀ (s : State) (shop : Nat), shopPresent s shop = true →
    (∀ ctx addr x, ctxOf s ctx = some x →
      let hdr := peekCtx s ctx x.tenant addr 128
      let w := (List.range 16).map (fun j => leAt hdr.data (8 * j) 8)
      let q0 := w.headD 0
      hdr.ok = true → hdr.poison = 0 → bitsOf q0 39 0 = 0xA1 * 2 ^ 32 + 0x54534C54 → bitsOf q0 55 40 ≠ 0 → bitsOf q0 63 56 = 0 →
      (∀ v, v ∈ (w.drop 1).take 4 → bitsOf v 63 18 = 0 ∧ (bitsOf v 17 9 = 0 ∨ bitsOf v 8 0 + bitsOf v 17 9 ≤ 384)) → (∀ v, v ∈ w.drop 5 → v = 0) →
      ((shopOf s shop).lists.filter (fun l => l.resident)).length ≥ 2 →
      ∃ t, exec (.ticketList shop ctx addr) s = .next t ∧ otherShops shop s t ∧ sameBytes s t ∧ countersOnly s t ∧
        shopOf t shop = { shopOf s shop with
          lists := (shopOf s shop).lists ++ [⟨(shopOf s shop).nextList, ctx, x.lc, x.tenant, addr, bitsOf q0 55 40, false, false, (w.drop 1).take 4, 0, [], 0⟩]
          nextList := (shopOf s shop).nextList + 1 }) ∧
    (∀ l w, (∀ x, x ∈ (shopOf s shop).lists → x.resident = true) → lowestTicket (readyTickets s shop) = some (l, w) →
      (shopOf s shop).lists.find? (fun x => decide (x.id = l.id)) = some l → l.count ≤ l.next → (ticketCmd l w).engine < (shopOf s shop).engines.length →
      ∃ t, exec (.ticketIssue shop) s = .next t ∧ otherShops shop s t ∧ t = { s with shops := t.shops } ∧
        engOf t shop (ticketCmd l w).engine = { engOf s shop (ticketCmd l w).engine with queue := (engOf s shop (ticketCmd l w).engine).queue ++ [ticketCmd l w] } ∧
        (shopOf t shop).lists.find? (fun x => decide (x.id = l.id)) =
          some { l with window := l.window.map (fun y => if y.idx = w.idx then { y with issued := true } else y) })

/-- CANCEL_ENTRY ends a context's work on a shop without a fault (R129); PREEMPTION asks the running BE sheet with the fewer tiles left to stop (R126); a
stopped sheet's record is written at RESUME and its bank freed (R127); a resumed sheet goes on from its record; the watchdog ends contexts whose tile has run
too long (R128); cleared granules read zero and belong to the new owner (R77). -/
def Obligations.ContextsEndAndResume : Prop :=
  ∀ (s : State) (shop : Nat),
    (∀ c, ∃ t, exec (.cancelEntry shop c) s = .next t ∧ otherShops shop s t ∧ sameBytes s t ∧ (shopOf t shop).fault = (shopOf s shop).fault ∧
      (∀ k, k ∈ (shopOf t shop).banks → k.st ≠ 0 → k.ctx ≠ c) ∧ (∀ e x, e ∈ (shopOf t shop).engines → x ∈ e.queue ++ e.runs.map (fun r => r.cmd) → x.ctx ≠ c) ∧
      (∀ w, w ∈ (shopOf t shop).windows → w.ctx ≠ c) ∧ (∀ l, l ∈ (shopOf t shop).lists → l.ctx ≠ c) ∧ (∀ l, l ∈ (shopOf t shop).launches → l.cmd.ctx ≠ c) ∧
      (∀ l, l ∈ (shopOf t shop).loads → l.ctx ≠ c) ∧ (∀ p, p ∈ (shopOf t shop).preempted → p.ctx ≠ c)) ∧
    (∀ k0 k1, (shopOf s shop).banks = [k0, k1] → (∃ l, l ∈ (shopOf s shop).loads ∧ l.lc = true) → k0.st ≠ 0 → k1.st ≠ 0 → k0.preempt = false → k1.preempt = false →
      (k0.st = 3 → k0.lc = false → (k1.st ≠ 3 ∨ k1.lc = true ∨ tilesLeft k0 ≤ tilesLeft k1) → ∃ t, exec (.preemption shop) s = .next t ∧ otherShops shop s t ∧
        t = { s with shops := t.shops } ∧ shopOf t shop = { shopOf s shop with banks := [{ k0 with preempt := true }, k1] }) ∧
      (k1.st = 3 → k1.lc = false → (k0.st ≠ 3 ∨ k0.lc = true ∨ tilesLeft k1 < tilesLeft k0) → ∃ t, exec (.preemption shop) s = .next t ∧ otherShops shop s t ∧
        t = { s with shops := t.shops } ∧ shopOf t shop = { shopOf s shop with banks := [k0, { k1 with preempt := true }] })) ∧
    (∀ b c w, (bankOf s shop b).cur = some c → (bankOf s shop b).st = 3 → (bankOf s shop b).stopped = true → (bankOf s shop b).tiles = [] →
      let k := bankOf s shop b
      let at_ := (k.regs[2]?).getD 0
      (shopOf s shop).loads = [] → writeOk s k.ctx k.tenant at_ 64 = true →
      (∀ i, i < 64 → homeKey (resolve s k.tenant (at_ + i)) = some (w + i) ∧ (w + i < 0xC000000000 → (frameOf s ((w + i) / 65536)).lost = false)) →
      ∃ t, exec (.resumeRecordWrite shop b) s = .next t ∧ otherShops shop s t ∧ bytesStored w (resumeBytes k c) s t ∧ countersOnly s t ∧
        bankOf t shop b = SheetBank.reset ∧ (shopOf t shop).preempted.map (fun p => (p.ctx, p.addr)) = (shopOf s shop).preempted.map (fun p => (p.ctx, p.addr)) ++ [(k.ctx, k.addr)]) ∧
    (∀ ctx addr b, bankFor s shop ctx addr = some b → (bankOf s shop b).st = 2 → (bankOf s shop b).go = false → (bankOf s shop b).bad = none →
      (∃ p, p ∈ (shopOf s shop).preempted ∧ p.ctx = ctx ∧ p.addr = addr) →
      let k := bankOf s shop b
      let rec_ := peekCtx s ctx k.tenant ((k.regs[2]?).getD 0) 64
      let i := fun (q j : Nat) => bitsOf (leAt rec_.data (8 * q) 8) (20 * j + 19) (20 * j)
      tallyWordsOk s k.tenant (sheetWaits k.regs ++ sheetSignals k.regs) = true → rec_.ok = true → rec_.poison = 0 →
      (crc32 (rec_.data.drop 8)).toNat = leAt rec_.data 4 4 →
      ∃ t, exec (.resumeGo shop ctx addr) s = .next t ∧ otherShops shop s t ∧ sameBytes s t ∧ countersOnly s t ∧ bankOf t shop b = { k with
        go := true, resume := true, lastTile := none, tokens := (List.range 20).map (fun j => leAt rec_.data (32 + j) 1)
        cur := some (tileCursor k.regs [i 1 0, i 1 1, i 1 2, i 2 0, i 2 1, i 2 2, i 3 0]), waited := (bankOf t shop b).waited }) ∧
    (∀ c rest, overdueCtxs s shop s.bell = c :: rest → ∃ t, exec (.watchdog shop) s = .next t ∧ otherShops shop s t ∧ sameBytes s t ∧
      ((shopOf s shop).fault = none → (shopOf t shop).fault = some [8, 0, 0, c, 0x1E, 0]) ∧
      (∀ x k, x ∈ c :: rest → k ∈ (shopOf t shop).banks → k.st ≠ 0 → k.ctx ≠ x)) ∧
    (overdueCtxs s shop s.bell = [] → exec (.watchdog shop) s = .next s) ∧
    (∃ t, exec (.stockroomClearDone shop) s = .next t ∧ otherShops shop s t ∧
      let clearing := (shopOf s shop).windows.filter (fun w => w.clearing)
      let covers := fun (w : Window) (g : Nat) => decide (w.base ≤ g ∧ g < w.base + w.size)
      let dirty := fun (g : Nat) => clearing.any (fun w => covers w g && decide (tget 0 (shopOf s shop).owner g ≠ 0 ∧ tget 0 (shopOf s shop).owner g ≠ ownerCode w.tenant))
      (shopOf t shop).windows = (shopOf s shop).windows.map (fun w => { w with clearing := false }) ∧
      (∀ g off, g < 512 → off < 4096 → keyByte t (roomAddr shop (g * 4096 + off)) = if dirty g then 0 else keyByte s (roomAddr shop (g * 4096 + off))) ∧
      (∀ k, ¬(roomAddr shop 0 ≤ k ∧ k < roomAddr (shop + 1) 0) → keyByte t k = keyByte s k) ∧
      (∀ g, (∀ w, w ∈ clearing → covers w g = false) → tget 0 (shopOf t shop).owner g = tget 0 (shopOf s shop).owner g) ∧
      (∀ w g, clearing = [w] → covers w g = true → tget 0 (shopOf t shop).owner g = ownerCode w.tenant))

/-! ### Stacks and fullers -/

/-- A request that a channel with an empty queue takes and issues at once: a write stores its masked bytes, a read returns the sector, zeros where it is
poisoned (R159 to R162, R166); no request is issued before an earlier one of its sector (R161); valid bits, fills and refreshes end (R172, R173, R176). -/
def Obligations.StackControllers : Prop :=
  ∀ (s : State) (stack : Nat), stack < 12 →
    (∀ (q : StkReq) (ch : Nat) (busy : List Nat) (time : Nat), ch < 32 → q.frame < 2 ^ 20 → q.sector < 1024 → q.data.length ≤ 64 →
      let key := reqSector stack q * 64
      (stackOf s stack).state ≠ 2 → (stackOf s stack).state ≠ 1 → queueOf s stack ch = [] → (∀ p, p ∈ (stackOf s stack).heldReqs → p.1 ≠ ch) →
      busy.contains (bankOfSector q.frame q.sector) = false → (frameOf s (stack * 2 ^ 20 + q.frame)).filling = false → (frameOf s (stack * 2 ^ 20 + q.frame)).lost = false →
      needsVmap s stack q = false →
      ∃ t, exec (.stackRequest stack ch [q] 1 busy 0 time) s = .next t ∧ queueOf t stack ch = [] ∧ t.now = max s.now time ∧
        (q.write = true → ∀ k, keyByte t k = if key ≤ k ∧ k < key + q.data.length ∧ bitOf q.mask (k - key) = true then q.data.getD (k - key) 0 else keyByte s k) ∧
        (q.write = false → sameBytes s t ∧ t.regs.lastBytes = (List.range 64).map (fun i =>
          if sectorPoison s (reqSector stack q) = 0 then keyByte s (key + i) else 0))) ∧
    (∀ ch now busy i r, pickReq s stack ch now busy = some i → (queueOf s stack ch)[i]? = some r →
      ∀ j x, j < i → (queueOf s stack ch)[j]? = some x → ¬(x.frame = r.frame ∧ x.sector = r.sector)) ∧
    (∀ frame, (stackOf s stack).vmapMiss.contains (stack * 2 ^ 20 + frame) = true → (frameOf s (stack * 2 ^ 20 + frame)).summary = 3 →
      ∃ t, exec (.vmapFetchDone stack frame) s = .next t ∧ t = { s with stks := t.stks } ∧ (∀ m, m ≠ stack → stackOf t m = stackOf s m) ∧
        stackOf t stack = { stackOf s stack with
          vmapMiss := (stackOf s stack).vmapMiss.filter (fun k => decide (k ≠ stack * 2 ^ 20 + frame))
          mixed := ((stack * 2 ^ 20 + frame) :: (stackOf s stack).mixed.filter (fun k => decide (k ≠ stack * 2 ^ 20 + frame))).take 16384 }) ∧
    (∀ frame, (frameOf s (stack * 2 ^ 20 + frame)).filling = true → ∃ t, exec (.frameFillDone stack frame) s = .next t ∧
      t = { s with mem := { s.mem with frames := t.mem.frames } } ∧ frameOf t (stack * 2 ^ 20 + frame) = { frameOf s (stack * 2 ^ 20 + frame) with filling := false } ∧
      (∀ k, k ≠ stack * 2 ^ 20 + frame → frameOf t k = frameOf s k)) ∧
    (∀ bank cycles, bank < 1024 → ∃ t, exec (.refresh stack bank cycles) s = .next t ∧ t = { s with stks := t.stks, regs := t.regs } ∧ countersOnly s t ∧
      (∀ b, tget 0 (stackOf t stack).openRows b = if b = bank then 0 else tget 0 (stackOf s stack).openRows b) ∧
      tget 0 t.regs.live (stkC stack 0x158) = min (2 ^ 64 - 1) (tget 0 s.regs.live (stkC stack 0x158) + cycles)) ∧
    (∃ t, exec .xlateMissFetch s = .next t ∧ t = { s with regs := t.regs } ∧ countersOnly s t ∧
      tget 0 t.regs.live 0x4A0 = min (2 ^ 64 - 1) (tget 0 s.regs.live 0x4A0 + 1))

/-- MICRO_NOP, SETP, VOP, VSUM and LOOP on a fuller (R196, Table 8.7). -/
def Obligations.FullerArithmetic : Prop :=
  ∀ (s : State) (n i : Nat) (r : InvRun) (w : Nat),
    let f := fullerOf s n i
    let x := pGet f (miPx w)
    let y := pGet f (miPy w)
    let z := pGet f (miPz w)
    let k := miImm w
    let word := fun (a j : Nat) => (tget (0 : BitVec 32) f.scratch (a + j)).toNat
    let frame := fun (t : State) => t = { s with fullers := t.fullers, fulStacks := t.fulStacks }
    (microAt s n i 0 r w → ∃ t, exec (.microNop n i) s = .next t ∧ frame t ∧ fullerGoes n i w r f s t) ∧
    (microAt s n i 1 r w → ∃ t p, exec (.setp n i) s = .next t ∧ frame t ∧ fullerGoes n i w r { f with p := p } s t ∧
      ∀ j, tget 0 p j = if j = miPx w then BitVec.ofInt 64 (signedOf 32 k +
        (if miFn w = 1 then (recArg r.inv (miN w) : Int) else if miFn w = 2 then (y : Int) else 0)) else tget 0 f.p j) ∧
    (microAt s n i 5 r w → x + k ≤ 8192 → y + k ≤ 8192 → (miFn w ≤ 3 → z + k ≤ 8192) → (miFn w = 8 → z + 1 ≤ 8192) →
      ∃ t g, exec (.vop n i) s = .next t ∧ frame t ∧ fullerGoes n i w r g s t ∧
        scratchIs x ((List.range k).map (fun j => vopWord (miFn w) (bitOf (recCvt r.inv) 2) (word y j)
          (if miFn w = 8 then word z 0 else if miFn w ≤ 3 then word z j else 0) (word x j))) f g) ∧
    (microAt s n i 6 r w → x + 1 ≤ 8192 → y + k ≤ 8192 → 0 < k → ∃ t g, exec (.vsum n i) s = .next t ∧ frame t ∧ fullerGoes n i w r g s t ∧
      scratchIs x [if miFn w = 0 then fullerSum ((List.range k).map (word y))
        else (((List.range k).map (word y)).drop 1).foldl fulMax (flushIn (word y 0))] f g) ∧
    (microAt s n i 0xC r w →
      let count := if miFn w = 1 then y else k
      ∃ t, exec (.microLoop n i) s = .next t ∧ t = { s with fullers := t.fullers } ∧
        (∀ m, m ≠ n * 512 + i → tget FullerSt.reset t.fullers m = tget FullerSt.reset s.fullers m) ∧
        fullerOf t n i = if count = 0 then { f with pc := f.pc + miN w + 2 }
          else { f with pc := f.pc + 1, loops := (f.pc + 1, f.pc + miN w + 2, count) :: f.loops })

/-- ALOAD puts vectors into the activation stores of every present fuller of the stack, or FP32 words into this fuller's scratch (R196, R201). STREAM adds
its rows' sums to the result list (R188, R198). KVREAD adds the partial records of the frames it serves (R224 to R226). None changes memory. -/
def Obligations.FullerLoads : Prop :=
  ∀ (s : State) (n i : Nat) (r : InvRun) (w : Nat),
    let f := fullerOf s n i
    let k := miImm w
    let vecs := miN w + 1
    let fmt := miFn w % 4
    let es := fmtSize (outFmt fmt)
    let x := pGet f (miPx w)
    let addr := fun (wide : Bool) (v : Nat) => (pGet f (miPy w) + v * pGet f (miPz w) + (if wide then i * k * es else 0)) % 2 ^ 64
    let codes := fun (wide : Bool) (v : Nat) => (List.range k).map (elemCode (outFmt fmt) (bytesOf ((fulBytes s r (addr wide v) (k * es)).getD [])))
    let atHand := fun (wide : Bool) => ∀ v, v < vecs → remoteOf s r.inv.tenant (addr wide v) = none ∧ homeInReset s (resolve s r.inv.tenant (addr wide v)) = false ∧
      ∃ l, fulBytes s r (addr wide v) (k * es) = some l ∧ anyPoison l = false
    (microAt s n i 2 r w → bitOf (miFn w) 3 = false → actFits fmt vecs k = true → atHand false → ∃ t, exec (.aload n i) s = .next t ∧ countersOnly s t ∧
      t = { s with fullers := t.fullers, fulStacks := t.fulStacks, regs := t.regs } ∧
      (∀ j, j < 512 → (fulOf s n).absent.contains j = false → j ≠ i → fullerOf t n j = { fullerOf s n j with act := (List.range vecs).map (codes false), actFmt := fmt }) ∧
      fullerOf t n i = fullerNext { f with act := (List.range vecs).map (codes false), actFmt := fmt }) ∧
    (microAt s n i 2 r w → bitOf (miFn w) 3 = true → vecs ≤ 8 → x + vecs * k ≤ 8192 → atHand true → ∃ t g, exec (.aload n i) s = .next t ∧ countersOnly s t ∧
      t = { s with fullers := t.fullers, fulStacks := t.fulStacks, regs := t.regs } ∧ fullerGoes n i w r g s t ∧
      scratchIs x ((List.range vecs).flatMap (fun v => (codes true v).map (fun c => encodeFloat .fp32 .rne true false (decodeFloat (outFmt fmt) c)))) f g) ∧
    (microAt s n i 3 r w → (streamMine s n i r w).1 = 0 →
      let rows := streamRows s n i r w
      let g := { f with results := f.results ++ rows.map (fun a => (a.1, a.2.2.accs)) }
      (∀ a, a ∈ rows → a.2.2.ok = true ∧ a.2.2.poison = false) → resultWords g ≤ 8192 → ∃ t, exec (.stream n i) s = .next t ∧ countersOnly s t ∧
      t = { s with fullers := t.fullers, fulStacks := t.fulStacks, regs := t.regs, ras := t.ras } ∧ fullerGoes n i w r g s t) ∧
    (∀ o kv, microAt s n i 4 r w → recOrder s r.inv = some o → orderKv s o = some kv → kvreadOk s n i w o kv = true →
      let y := pGet f (miPy w)
      let used := kvreadWork s n i w o kv
      (devHolds kv.layers (kvParts s kv).1 (bitsOf y 11 0) && devHolds kv.heads (kvParts s kv).2.1 (bitsOf y 19 12)) = true →
      (∀ u, u ∈ used → u.2.2.2 = false) → ∃ t g, exec (.kvread n i) s = .next t ∧ countersOnly s t ∧
      t = { s with fullers := t.fullers, fulStacks := t.fulStacks, regs := t.regs } ∧
      fullerGoes n i w r { g with partials := f.partials ++ used.flatMap (fun u => u.2.1.zipIdx.map (fun p => (u.1, p.2, p.1))) } s t ∧
      (∀ u, used.getLast? = some u → scratchIs x u.2.1.flatten f g))

/-- COMBINE and SYNC: a fuller waits until every fuller of the stack that still runs has arrived; then each goes on, after a COMBINE with the words reduced
in ascending fuller order by the fixed pairwise tree (R57, R199). MICRO_HALT ends the routine on its fuller, and the last fuller of ATTEND to halt delivers
its result (R199, R227, R229). -/
def Obligations.FullerBarriers : Prop :=
  ∀ (s : State) (n i : Nat) (r : InvRun) (w : Nat), r.waiting.Nodup → bitOf (miFn w) 0 = false →
    let f := fullerOf s n i
    let offer := scratchGet f (pGet f (miPy w)) (miN w + 1)
    let offered := { f with offer := offer, offerTo := pGet f (miPx w) }
    let arrived := ∀ j, j < 512 → (fulOf s n).absent.contains j = false → j ≠ i → r.halted.contains j = true ∨ r.waiting.contains j = true
    let offers := ((List.range 512).filter (fun j => (i :: r.waiting).contains j)).map (fun j => if j = i then offer else (fullerOf s n j).offer)
    let reduced := (List.range ((offers.map List.length).foldl max 0)).map (fun q =>
      (pairTree (if bitOf (miFn w) 1 then fulMax else fulAdd) 9 (offers.map (fun o => flushIn ((o[q]?).getD 0)))).headD 0)
    let frame := fun (t : State) => t = { s with fullers := t.fullers, fulStacks := t.fulStacks }
    (microAt s n i 7 r w → pGet f (miPy w) + miN w + 1 ≤ 8192 → pGet f (miPx w) + miN w + 1 ≤ 8192 →
      (¬arrived → ∃ t, exec (.combine n i) s = .next t ∧ frame t ∧ fullerOf t n i = offered ∧ runOf t n = some { r with waiting := i :: r.waiting }) ∧
      (arrived → ∃ t, exec (.combine n i) s = .next t ∧ frame t ∧ (runOf t n).map (fun q => q.waiting) = some [] ∧
        (∃ g, scratchIs (pGet f (miPx w)) reduced offered g ∧ fullerOf t n i = fullerNext { g with offer := [] }) ∧
        (∀ j, r.waiting.contains j = true → ∃ g, scratchIs (fullerOf s n j).offerTo reduced (fullerOf s n j) g ∧ fullerOf t n j = fullerNext { g with offer := [] }))) ∧
    (microAt s n i 0xB r w →
      (¬arrived → ∃ t, exec (.sync n i) s = .next t ∧ frame t ∧ fullerOf t n i = f ∧ runOf t n = some { r with waiting := i :: r.waiting }) ∧
      (arrived → ∃ t, exec (.sync n i) s = .next t ∧ frame t ∧ (runOf t n).map (fun q => q.waiting) = some [] ∧
        ∀ j, (i :: r.waiting).contains j = true → fullerOf t n j = fullerNext { fullerOf s n j with offer := [] })) ∧
    (microAt s n i 0xD r w → r.waiting = [] →
      let ended := modInvRun n (fun q => { q with halted := i :: r.halted }) s
      (recSlot r.inv ≠ 4 ∨ r.stopping = true ∨ ¬arrived → exec (.microHalt n i) s = .next ended) ∧
      (∀ t, recSlot r.inv = 4 → r.stopping = false → arrived → attendDeliver n r ended = (t, 0) → exec (.microHalt n i) s = .next t))

/-- RSTORE takes results in row order: outputs of one part are written at once, others enter the merger (R198); MERGE_RESULT_WRITE sums an output's parts in
ascending order and writes it once; MSTORE stores scratch words; APPEND writes a key row and a value row (R196, R200, R222). -/
def Obligations.FullerResults : Prop :=
  ∀ (s : State) (n i : Nat) (r : InvRun) (w : Nat),
    let f := fullerOf s n i
    let x := pGet f (miPx w)
    let y := pGet f (miPy w)
    let z := pGet f (miPz w)
    let k := miImm w
    let sorted := f.results.foldl (fun l e => insRow e l) []
    let frame := fun (t : State) => countersOnly s t ∧ t = { s with fullers := t.fullers, fulStacks := t.fulStacks, mem := t.mem, stks := t.stks, regs := t.regs }
    let lies := fun (A key len : Nat) => ∀ b, b < len → homeKey (resolve s r.inv.tenant (A + b)) = some (key + b) ∧
      (key + b < 0xC000000000 → (frameOf s ((key + b) / 65536)).lost = false)
    let size := fmtSize (outFmt (miFn w / 4))
    (∀ row v key, microAt s n i 8 r w → miN w = 0 → miFn w % 4 = 0 → k = 1 → sorted.head? = some (row, [v]) →
      let A := x + row * size
      writeOk s (recCtx r.inv) r.inv.tenant A size = true → lies A key size →
      ∃ t, exec (.rstore n i) s = .next t ∧ frame t ∧ fullerGoes n i w r { f with results := sorted.drop 1 } s t ∧
        bytesStored key (leBytes size (fulConvert r (outFmt (miFn w / 4)) (A % 2 ^ 48 / size) v)) s t) ∧
    (microAt s n i 8 r w → 0 < miN w →
      let part := fun (row : Nat) => (⟨miFn w % 4, if miFn w % 4 = 2 then 0 else x, if miFn w % 4 = 0 then z else 0, miFn w / 4, miN w + 1, row / (miN w + 1), []⟩ : MergeOut)
      let merged := (sorted.take k).foldl (fun l e => mergerPut (part e.1) (e.1 % (miN w + 1)) e.2 l) (fulOf s n).merger
      mergerWords merged ≤ 65536 → ∃ t, exec (.rstore n i) s = .next t ∧ t = { s with fullers := t.fullers, fulStacks := t.fulStacks } ∧
        fullerOf t n i = fullerNext { f with results := sorted.drop k } ∧ (fulOf t n).merger = merged) ∧
    (∀ m v key, runOf s n = some r → (fulOf s n).merger.find? (fun m => decide (m.got.length ≥ m.parts)) = some m → m.dest = 0 → mergeParts m = [v] →
      let A := m.px + m.out * fmtSize (outFmt m.fmt)
      writeOk s (recCtx r.inv) r.inv.tenant A (fmtSize (outFmt m.fmt)) = true → lies A key (fmtSize (outFmt m.fmt)) →
      ∃ t, exec (.mergeResultWrite n) s = .next t ∧ frame t ∧ (fulOf t n).merger = (fulOf s n).merger.erase m ∧
        bytesStored key (leBytes (fmtSize (outFmt m.fmt)) (fulConvert r (outFmt m.fmt) (A % 2 ^ 48 / fmtSize (outFmt m.fmt)) v)) s t) ∧
    (∀ key, microAt s n i 9 r w → y + k ≤ 8192 → (∀ j, j < k → writeOk s (recCtx r.inv) r.inv.tenant (x + j * size) size = true) → lies x key (k * size) →
      ∃ t, exec (.mstore n i) s = .next t ∧ frame t ∧ fullerGoes n i w r f s t ∧
        bytesStored key ((List.range k).flatMap (fun j => leBytes size
          (fulConvert r (outFmt (miFn w / 4)) ((x + j * size) % 2 ^ 48 / size) (tget (0 : BitVec 32) f.scratch (y + j)).toNat))) s t) ∧
    (∀ o kv keyRow valueRow, microAt s n i 0xA r w → recOrder s r.inv = some o → orderKv s o = some kv → y + 2 * k ≤ 8192 →
      let l := bitsOf z 11 0
      let h := bitsOf z 19 12
      let q := kvParts s kv
      let st := kvStride kv
      let row := fun (sel : Nat) => packElems (kvFmt kv) ((scratchGet f (y + sel * k) k).zipIdx.map (fun v => fulConvert r (kvFmt kv) (kvElemIndex kv l h x sel v.2) v.1))
      kvCheck s o l h x 1 k 0 kv.fmt = 0 → (devHolds kv.layers q.1 l && devHolds kv.heads q.2.1 h && devHolds kv.pos q.2.2 x) = true →
      kvRowKey s o (devLocal kv.layers l) (devLocal kv.heads h) (devLocal kv.pos x) 0 = some keyRow →
      kvRowKey s o (devLocal kv.layers l) (devLocal kv.heads h) (devLocal kv.pos x) 1 = some valueRow → (frameOf s (keyRow / 65536)).lost = false →
      ∃ t, exec (.append n i) s = .next t ∧ frame t ∧ fullerGoes n i w r f s t ∧
        (∀ j, j < st → keyByte t (keyRow + j) = (((row 0).take st)[j]?).getD 0 ∧ keyByte t (valueRow + j) = (((row 1).take st)[j]?).getD 0) ∧
        (∀ a, ¬(keyRow ≤ a ∧ a < keyRow + st) → ¬(valueRow ≤ a ∧ a < valueRow + st) → keyByte t a = keyByte s a))

/-- An invocation starts on every member of its gang together, once all are idle and commit to it (R193); it ends when every fuller has halted (R194) or a stop
has been answered (R204); a failed fuller is replaced by its die's spare or is absent, and its invocation runs again once when it may (R187, R201); a
stack with no invocation takes its pending library (R190, R208). -/
def Obligations.Invocations : Prop :=
  ∀ (s : State), s.unitsOk = true →
    (∀ (seq : Nat) (r : InvRec) (c : Cand), (s.fulStacks.flatMap (fun p => p.2.records)).find? (fun x => decide (x.id = seq)) = some r →
      (∀ n, n ∈ recGang r → runOf s n = none ∧ committed s n = some seq) → s.sched.cands.find? (fun x => decide (x.id = r.cand)) = some c →
      ∃ t, exec (.invocationStart seq) s = .next t ∧ t = { s with fulStacks := t.fulStacks, fullers := t.fullers, sched := t.sched } ∧
        (∀ n, n ∈ recGang r → fulOf t n = { fulOf s n with
          records := (fulOf s n).records.filter (fun x => decide (x.id ≠ seq)), run := some ⟨r, s.bell, recGang r, false, none, [], []⟩
          lastCtx := some (recCtx r), merger := [], fetch := none }) ∧
        (∀ n, n ∉ recGang r → fulOf t n = fulOf s n) ∧
        (∀ n i, n ∈ recGang r → i < 512 → fullerOf t n i = if (fulOf s n).lastCtx = some (recCtx r)
          then { FullerSt.reset with act := (fullerOf s n i).act, actFmt := (fullerOf s n i).actFmt } else FullerSt.reset) ∧
        t.sched.cands = s.sched.cands.map (fun x => if x.id = c.id then { x with started := x.started + 1, admitted := x.admitted - 1 } else x)) ∧
    (∀ stack r, runOf s stack = some r → r.stopping = false → invDone s r = true → (∀ n, n ∈ r.gang → (fulOf s n).merger = []) →
      ∃ t, exec (.invocationComplete stack) s = .next t ∧ sameBytes s t ∧ (∀ n, n ∈ r.gang → runOf t n = none) ∧
        (∀ n, n ∉ r.gang → fulOf t n = fulOf s n) ∧ (∀ x, x ∈ t.sched.cands → x.id ≠ r.inv.cand)) ∧
    (∀ stack r, runOf s stack = some r → ∃ t, exec (.invocationStopRequest stack) s = .next t ∧ t = { s with fulStacks := t.fulStacks } ∧
      (∀ n x, n ∈ r.gang → runOf s n = some x → ∃ x', runOf t n = some x' ∧ x'.stopping = true ∧ x'.inv = x.inv ∧ (x.stopping = true → x' = x) ∧
        (x.stopping = false → ∀ i, fullerPresent s n i = true → segVisible (runCode s n) (fullerOf s n i).pc = false → x'.halted.contains i = true)) ∧
      (∀ n, n ∉ r.gang → fulOf t n = fulOf s n)) ∧
    (∀ stack r, runOf s stack = some r → r.stopping = true → invDone s r = true → ∃ t, exec (.invocationStopped stack) s = .next t ∧ sameBytes s t ∧
      t.tal = s.tal ∧ (∀ n, n ∈ r.gang → runOf t n = none) ∧ (∀ n, n ∉ r.gang → fulOf t n = fulOf s n)) ∧
    (∀ stack i, fullerPresent s stack i = true → runOf s stack = none →
      ((fulOf s stack).sparesUsed.contains (i / 32) = false → ∃ t, exec (.fullerUncorrectableError stack i) s = .next t ∧ sameBytes s t ∧
        fulOf t stack = { fulOf s stack with sparesUsed := (fulOf s stack).sparesUsed ++ [i / 32] }) ∧
      ((fulOf s stack).sparesUsed.contains (i / 32) = true → ∃ t, exec (.fullerUncorrectableError stack i) s = .next t ∧ sameBytes s t ∧
        fulOf t stack = { fulOf s stack with absent := (fulOf s stack).absent ++ [i] })) ∧
    (∀ stack i r, fullerPresent s stack i = true → runOf s stack = some r → r.stopping = false → bitOf (recWord r.inv 0) 10 = true → r.inv.rerun = false →
      ∃ t, exec (.fullerUncorrectableError stack i) s = .next t ∧ ∀ n, n ∈ r.gang →
        runOf t n = some { r with inv := { r.inv with rerun := true }, halted := [], waiting := [] } ∧ ∀ j, j < 512 → fullerOf t n j = FullerSt.reset) ∧
    (∀ stack v c imgs, (fulOf s stack).libPending = some (v, c, imgs) → runOf s stack = none →
      (imgs.map (fun g => routineUnits g.code)).sum + storeUsed s stack false ≤ 1024 → ∃ t, exec (.fullerLibTake stack) s = .next t ∧ sameBytes s t ∧
      (fulOf t stack).libVersion = v ∧ (fulOf t stack).libCrc = c ∧ (fulOf t stack).libPending = none ∧
      (∀ j, 0x40 ≤ j → (∀ g, g ∈ imgs → g.slot ≠ j) → tget none (fulOf t stack).slots j = tget none (fulOf s stack).slots j) ∧
      (∀ g, imgs = [g] → g.slot < 0x40 → ∀ j, j < 0x40 → tget none (fulOf t stack).slots j = if j = g.slot then some (none, g.code) else none)) ∧
    (∀ shop ctx off len, (∀ i, i < len → (kvByte s ctx (off + i)).isSome = true) → ∃ t, exec (.kvApertureRead shop ctx off len) s = .next t ∧ sameBytes s t ∧
      t.regs.lastBytes = (List.range len).map (fun i => ((kvByte s ctx (off + i)).getD (0, 0)).1))
/-! ### The order book -/

/-- OPEN: the first check of Table 10.4's order that fails refuses it; otherwise the lowest FREE entry becomes the order, ADMITTED with the next GEN, and
OPENED is written. FEED: the order goes to PREFILL with its tokens and the first step of its generation, or its matched stored pages are attached first, or
the FEED is held; a FEED aborts a cellaring. STORE_PREFIX makes the nodes that are missing and starts their copy (R247, R249, R256, R260, R261). -/
def Obligations.OrdersOpenAndFeed : Prop :=
  ∀ (s : State) (ring tag : Nat) (cpl : Bool), ring ≠ opRing →
    (∀ lc noCellar grammarEn model grammar evmask deadline ttl cellarAfter params,
      let a : OpenArgs := ⟨model, lc, noCellar, grammarEn, grammar, evmask, deadline, ttl, cellarAfter, params⟩
      let c := Instr.openOrder ring tag cpl lc noCellar grammarEn model grammar evmask deadline ttl cellarAfter params
      let u := openRead ring a s
      (∀ cause, openCause ring a s = some cause → ∃ t, exec c s = .next t ∧ t.host = (refuseCmd ring tag 1 none cause u).host ∧
        countersOnly u t ∧ t = { u with host := t.host, bal := t.bal, regs := t.regs }) ∧
      (∀ o, openCause ring a s = none → freeEntry s = some o → ∃ t, exec c s = .next t ∧ otherOrders o s t ∧ countersOnly u t ∧
        t = { u with book := t.book, mem := t.mem, host := t.host, bal := t.bal, regs := t.regs } ∧
        let r := orderOf t o
        r.state = 1 ∧ r.tenant = ring ∧ r.model = model ∧ r.lc = lc ∧ r.noCellar = noCellar ∧ r.gen = ((orderOf s o).gen + 1) % 2 ^ 16 ∧ r.n = 0 ∧
        r.grammarEn = grammarEn ∧ r.evmask = evmask ∧ r.deadline = deadline ∧ r.cellarAfter = cellarAfter ∧ r.ttl = (if ttl = 0 then rfield s 0x600000 16 0 else ttl) ∧
        r.params = paramsOf (peekDev s (some ring) params 64).data ∧ r.step = none ∧ r.copy = none ∧ r.held = none ∧ r.selector = bindSelector s ∧
        t.host = (acceptCmd ring tag 1 cpl (some (o, r.gen)) (emit ring (mkRec u 1 1 0 tag (some (o, r.gen)) [1, 0, 0, 0, 0, 0]) u)).host)) ∧
    (∀ (o gen list count maxNew : Nat) (isMatch : Bool) (scan : Nat), orderStale s ring o gen = false → 1 ≤ count → count ≤ 2 ^ 20 → maxNew ≤ 2 ^ 20 →
      let r := orderOf s o
      let blk := peekDev s (some ring) list (4 * count)
      let u := readFx (some ring) list (4 * count) s
      let toks := (List.range count).map (fun i => leAt blk.data (4 * i) 4)
      let all := (if r.pendValid then [r.pendingTok] else []) ++ toks
      let hits := if isMatch = true ∧ r.n = 0 ∧ r.pendValid = false ∧ bitOf (rget s 0x600000) 32 = true then matchNodes s r.tenant r.model ((count - 1) / 256) 0 toks else []
      let c := Instr.feed ring tag cpl o gen list count maxNew isMatch scan
      blk.ok = true → blk.poison = 0 →
      ((r.state = 1 ∨ r.state = 4) → storing r = false → r.n + all.length ≤ orderLimit s o → hits = [] → ∃ t, exec c s = .next t ∧ otherOrders o s t ∧ sameBytes s t ∧
        let q := orderOf t o
        q.state = 2 ∧ q.found = r.state ∧ q.feed = all ∧ q.n = r.n ∧ q.pendValid = false ∧ q.maxNew = maxNew ∧ q.made = 0 ∧ q.fed = (r.fed + count) % 2 ^ 32 ∧
        (q.step.map (fun x => (x.t0, x.e, x.selects, x.admitted))) = some (r.n, r.n + min 4096 all.length, decide (all.length ≤ 4096 ∧ maxNew ≠ 0), false)) ∧
      ((r.state = 1 ∨ r.state = 4) → storing r = false → r.n + all.length ≤ orderLimit s o → hits ≠ [] → ∃ t, exec c s = .next t ∧ otherOrders o s t ∧ sameBytes s t ∧
        let q := orderOf t o
        q.state = 2 ∧ q.feed = all ∧ q.n = r.n ∧ (q.copy.map (fun y => (y.kind, y.total, y.nodes))) = some (2, hits.length, hits) ∧
        (q.step.map (fun x => (x.t0, x.e, x.attach))) = some (0, 256 * hits.length, true)) ∧
      (r.state = 6 ∨ r.state = 7 ∨ ((r.state = 1 ∨ r.state = 4) ∧ storing r = true) → r.held = none → ∃ t, exec c s = .next t ∧ otherOrders o s t ∧ ordersOnly u t ∧
        orderOf t o = { r with
          held := some ⟨toks, maxNew, isMatch, ring, tag, scan⟩, recallAsked := r.recallAsked || r.state == 6
          recallWait := if r.state = 6 ∧ r.recallAsked = false then rfield s 0x600000 31 20 else r.recallWait } ∧ t.host = (acceptCmd ring tag 2 cpl (some (o, gen)) u).host) ∧
      (r.state = 5 → (r.copy.map (fun y => y.done && y.failed == 0)).getD false = false → storing r = false → isMatch = false → r.n + all.length ≤ orderLimit s o →
        ∃ t, exec c s = .next t ∧ otherOrders o s t ∧ (orderOf t o).state = 2 ∧ (orderOf t o).found = (if r.prior = 0 then 1 else 4) ∧ (orderOf t o).copy = none ∧
          (orderOf t o).feed = all)) ∧
    (∀ o gen list pages kv, orderStale s ring o gen = false → (orderOf s o).state = 1 ∨ (orderOf s o).state = 4 → storing (orderOf s o) = false →
      orderKv s o = some kv → 1 ≤ pages → pages ≤ (orderOf s o).n / 256 →
      let blk := peekDev s (some ring) list (1024 * pages)
      let page := fun (j : Nat) => (List.range 256).map (fun i => leAt blk.data (4 * (256 * j + i)) 4)
      blk.ok = true → blk.poison = 0 → ∃ t stored made, exec (.storePrefix ring tag cpl o gen list pages) s = .next t ∧ otherOrders o s t ∧ stored ≤ pages ∧
        orderOf t o = { orderOf s o with copy := some ⟨3, stored, made.isEmpty, 0, [], made, [], tag⟩ } ∧
        (∀ k, k ∈ made → nodeOf s k = none ∧ ∃ x, nodeOf t k = some x ∧ x.tenant = (orderOf s o).tenant ∧ x.model = (orderOf s o).model ∧ ∃ j, j < stored ∧ x.tokens = page j) ∧
        (∀ k, k ∉ made → nodeOf t k = nodeOf s k))

/-- The commands that name an order, in the states that admit them: STOP, TRUNCATE, CELLAR, RECALL, SET_TTL, QUERY and CLOSE, and their refusals STALE and
STATE, which change no order; FORCE_CLOSE of the operator; DROP_PREFIXES (R240, R244, R251, R256, R263). -/
def Obligations.OrderCommands : Prop :=
  (∀ (s : State) (ring tag o gen : Nat) (cpl : Bool), ring ≠ opRing →
    let r := orderOf s o
    let told := fun (op a b : Nat) (t : State) => t.bal = (forwardEntry ring (cmdWords op tag cpl false (o + gen * 2 ^ 16) a b) s).bal
    let changed := fun (c : Instr) (op a b : Nat) (q : OrderRec) => ∃ t, exec c s = .next t ∧ ordersOnly s t ∧ otherOrders o s t ∧ orderOf t o = q ∧
      t.host = (acceptCmd ring tag op cpl (some (o, gen)) s).host ∧ told op a b t
    let refused := fun (c : Instr) (op cause : Nat) => ∃ t, exec c s = .next t ∧ t.book = s.book ∧ ordersOnly s t ∧ t.host = (refuseCmd ring tag op (some (o, gen)) cause s).host
    (orderStale s ring o gen = false →
      (r.state = 2 ∨ r.state = 3 → changed (.stop ring tag cpl o gen) 3 0 0 { r with stopAsked := true }) ∧
      (∀ len, r.state = 1 ∨ r.state = 4 → storing r = false → len ≤ r.n →
        changed (.truncate ring tag cpl o gen len) 4 len 0 { r with n := len, pendValid := false, cutPend := true }) ∧
      (r.state = 1 ∨ r.state = 4 → r.noCellar = false → poolUsable s = true → cellarUsed s r.tenant + imageUnits s o ≤ quotaOf s r.tenant 2 →
        allocUnits s (imageUnits s o) 0 [] ≠ none → changed (.cellar ring tag cpl o gen) 5 0 0 { r with cellarAsked := true }) ∧
      (r.state = 6 → changed (.recall ring tag cpl o gen) 6 0 0
        { r with recallWait := if r.recallAsked then r.recallWait else rfield s 0x600000 31 20, recallAsked := true, recallTag := some tag }) ∧
      (∀ secs scan, 1 ≤ r.state → r.state ≤ 7 → 1 ≤ secs → secs ≤ 86400 → changed (.setTtl ring tag cpl o gen secs scan) 7 secs 0
        { r with ttl := secs, expire := if r.state = 6 then scan - s.sys.readyAt + secs * 10 ^ 9 else r.expire }) ∧
      (1 ≤ r.state → r.state ≤ 9 → ∃ t, exec (.query ring tag cpl o gen) s = .next t ∧ t.book = s.book ∧ ordersOnly s t ∧ t.bal = s.bal ∧
        t.host = (acceptCmd ring tag 0x0A cpl (some (o, gen)) (emitPair ring (mkRec s 1 0x0E 0 tag (some (o, gen)) ((entryWords r).take 6))
          (mkRec s 1 0x0E 1 tag (some (o, gen)) ((entryWords r).drop 6 ++ [0, 0, 0, 0])) s)).host) ∧
      (1 ≤ r.state → r.state ≤ 9 → r.state ≠ 8 → ∃ t, exec (.close ring tag cpl o gen) s = .next t ∧ otherOrders o s t ∧
        (orderOf t o).state = 8 ∧ (orderOf t o).gen = r.gen ∧ (orderOf t o).tenant = r.tenant ∧ orderBare (orderOf t o))) ∧
    (∀ len secs scan, orderStale s ring o gen = true → ∀ p, p ∈ [(Instr.stop ring tag cpl o gen, 3), (.truncate ring tag cpl o gen len, 4), (.cellar ring tag cpl o gen, 5),
      (.recall ring tag cpl o gen, 6), (.setTtl ring tag cpl o gen secs scan, 7), (.query ring tag cpl o gen, 0x0A), (.close ring tag cpl o gen, 0x0B)] → refused p.1 p.2 1) ∧
    (∀ len, orderStale s ring o gen = false → ∀ p, p ∈ [(Instr.stop ring tag cpl o gen, 3, [2, 3]), (.truncate ring tag cpl o gen len, 4, [1, 4]),
      (.cellar ring tag cpl o gen, 5, [1, 4]), (.recall ring tag cpl o gen, 6, [6]), (.close ring tag cpl o gen, 0x0B, [1, 2, 3, 4, 5, 6, 7, 9])] →
      r.state ∉ p.2.2 → refused p.1 p.2.1 2)) ∧
  (∀ (s : State) (tag o : Nat), let r := orderOf s o
    (o < 65536 → r.state ≠ 0 → r.state ≠ 8 → ∃ t, exec (.forceClose tag o) s = .next t ∧ otherOrders o s t ∧ (orderOf t o).state = 8 ∧ (orderOf t o).gen = r.gen ∧
      orderBare (orderOf t o)) ∧
    (65536 ≤ o → exec (.forceClose tag o) s = .next (completion opRing 0x0C 1 tag 0 0 0 s)) ∧
    (o < 65536 → r.state = 0 ∨ r.state = 8 → exec (.forceClose tag o) s = .next (completion opRing 0x0C 0x0F tag 0 0 0 s))) ∧
  (∀ (s : State) (ring tag model : Nat) (cpl : Bool), s.unitsOk = true → ring ≠ opRing → model < 4096 → ∃ t, exec (.dropPrefixes ring tag cpl model) s = .next t ∧
    t.book.orders = s.book.orders ∧ t.host = (acceptCmd ring tag 9 cpl none s).host ∧
    ∀ k, nodeOf t k = (match nodeOf s k with
      | none => none
      | some x => if x.tenant = ring ∧ x.model = model then (if x.busy = 0 then none else some { x with drop := true }) else some x))

/-- The copies of orders: CELLARING, RECALL, attach and prefix-store copies end and wait for their boundary; a recalled frame holds the image's bytes, an
attached frame the stored page's and a stored frame the order's; failures are kept for the boundary. The waits, times to live, idle bells and deadlines of
orders end as they are due (R250, R254 to R258, R260, R261). -/
def Obligations.OrderCopies : Prop :=
  ∀ (s : State) (o : Nat),
    let r := orderOf s o
    let only := fun (q : OrderRec) (t : State) => ordersOnly s t ∧ otherOrders o s t ∧ orderOf t o = q
    (r.state = 5 → copyRuns s o 0 = true → ∃ t, exec (.cellaringCopyDone o) s = .next t ∧ only { r with copy := r.copy.map (fun c => { c with done := true }) } t ∧ t.host = s.host) ∧
    (r.state = 5 → ∃ t, exec (.cellarWriteError o) s = .next t ∧ only { r with copy := r.copy.map (fun c => { c with failed := 1 }) } t ∧ t.regs = s.regs) ∧
    (r.state = 7 → copyRuns s o 1 = true → ∃ t, exec (.recallCopyDone o) s = .next t ∧ otherOrders o s t ∧ countersOnly s t ∧
      t = { s with book := { s.book with orders := t.book.orders }, mem := t.mem, regs := t.regs } ∧
      orderOf t o = { r with copy := r.copy.map (fun c => { c with done := true }) } ∧
      let frames := (r.image.map (fun i => i.frames)).getD []
      ((∀ f p, f ∈ frames → p ∈ f.2.1 → p.1 < 65536) →
        (∀ f k, f ∈ frames → imageTarget s o f.1 = some k → k < 12 * 2 ^ 20 → tsorted f.2.1 = true → (∀ g, g ∈ frames → imageTarget s o g.1 = some k → g = f) →
          ∀ off, off < 65536 → keyByte t (k * 65536 + off) = tget (0 : Byte) f.2.1 off) ∧
        (∀ a, (∀ f, f ∈ frames → imageTarget s o f.1 ≠ some (a / 65536)) → keyByte t a = keyByte s a))) ∧
    (∀ c unit failure, r.state = 7 → r.copy = some c → c.failed = 0 → c.done = false → failure = 3 ∨ failure = 4 → ∃ t, exec (.cellarUnitRead o unit failure) s = .next t ∧
      sameBytes s t ∧ otherOrders o s t ∧ orderOf t o = { r with copy := some { c with failed := failure } } ∧
      (failure = 4 → t = { s with book := t.book }) ∧ (failure = 3 → ∃ e, e ∈ t.ras.log ∧ e.typ = 0x10 ∧ e.bell = s.bell % 2 ^ 32)) ∧
    (∀ unit failure, failure ≠ 3 → failure ≠ 4 → exec (.cellarUnitRead o unit failure) s = .next s) ∧
    (r.state = 6 → r.recallAsked = true → r.recallWait = 0 → ∃ t, exec (.recallWaitExpiry o) s = .next t ∧
      only { r with recallAsked := false, recallTag := none, held := none } t ∧
      (∀ tag, r.recallTag = some tag → r.held = none → t.host = (refuseCmd r.tenant tag 6 (some (o, r.gen)) r.recallCause s).host) ∧
      (∀ f, r.recallTag = none → r.held = some f → t.host = (refuseCmd r.tenant f.tag 2 (some (o, r.gen)) r.recallCause s).host)) ∧
    (r.state = 6 → r.expire ≤ devNs s → r.recallAsked = false → r.held = none → awaitsCommand s o = false → ∃ t, exec (.ttlExpiry o) s = .next t ∧ otherOrders o s t ∧
      orderOf t o = { OrderRec.reset with gen := r.gen } ∧
      (r.step = none → t.host = (ordEvent o 0x0A 0 0 0 { s with book := { s.book with orders := tset OrderRec.reset s.book.orders o { r with state := 0 } } }).host)) ∧
    (r.state = 4 → r.cellarAfter ≠ 0 → r.cellarAfter ≤ r.idle → r.noCellar = false → ∃ t, exec (.cellarAfterExpiry o) s = .next t ∧ only { r with cellarAsked := true } t ∧
      t.host = s.host) ∧
    (∀ x, r.step = some x → x.admitted = true → x.missed = false → r.deadline ≠ 0 → r.deadline ≤ s.bell - x.bell → ∃ t, exec (.deadlineMiss o) s = .next t ∧
      only { r with misses := min 0xFFFF (r.misses + 1), step := some { x with missed := true } } t ∧ t.host = (ordEvent o 0x0F 0 0 (s.bell - x.bell) s).host) ∧
    (∀ c kv x, s.memOk = true → r.copy = some c → orderKv s o = some kv → copyRuns s o 2 = true → r.step = some x → x.admitted = true → framesApart (nodePairs s o c.nodes 0 kv) →
      ∃ t, exec (.attachCopyDone o) s = .next t ∧ otherOrders o s t ∧ orderOf t o = { r with copy := some { c with done := true } } ∧
        framesCopied (nodePairs s o c.nodes 0 kv) s t) ∧
    (∀ c kv, s.memOk = true → r.copy = some c → orderKv s o = some kv → copyRuns s o 3 = true →
      let l := (nodePairs s o c.nodes (c.total - c.nodes.length) kv).map (fun p => (p.2, p.1))
      framesApart l → ∃ t, exec (.prefixStoreCopyDone o) s = .next t ∧ otherOrders o s t ∧ orderOf t o = { r with copy := some { c with done := true } } ∧ framesCopied l s t)

/-! ### Token selectors -/

/-- Deliveries merge into the order's claimed row, are held while no row is free, or are counted where the step selects nothing (R267, R269). The order whose
row completed first selects a token by the pipeline of R271 once its mask is ready: at TEMP 0 the largest logit, the lowest ID among equals; it becomes
PENDING, the automaton moves, and the first reason of R286 ends the generation; with nothing allowed the generation ends with reason 8 (R287). A mask is the
grammar's, the list's or both (R277, R280); a failed selector is absent and its selections end (R290). -/
def Obligations.Selections : Prop :=
  ∀ (s : State),
    let others := fun (q : Nat) (t : State) => ∀ p, p ≠ q → selOf t p = selOf s p
    let rowOf := fun (t : State) (q o : Nat) => (selOf t q).rows.find? (fun r => decide (r.order = o))
    let merged := fun (t : State) (q o : Nat) (vals : List (Nat × Nat)) =>
      ∃ row, rowOf t q o = some row ∧ row.complete = decide (orderVocab s o ≤ row.vals.length) ∧
        ∀ k, tget 0 row.vals k = match vals.find? (fun v => decide (v.1 = k)) with
          | some v => v.2 + 1
          | none => tget 0 (((rowOf s q o).map (fun r => r.vals)).getD []) k
    (∀ o vals poison, (∀ v, v ∈ vals → v.1 < orderVocab s o) → (vals.map Prod.fst).Nodup →
      let q := (orderOf s o).selector
      (stepSelects (orderOf s o) = true → ((selOf s q).rows.any (fun x => decide (x.order = o)) = true ∨
          (rowFits s q o = true ∧ (selOf s q).held.any (fun x => decide (x.order = o)) = false)) →
        ∃ t, exec (.logitDelivery o vals poison) s = .next t ∧ merged t q o vals ∧ others q t ∧ otherOrders o s t ∧ countersOnly s t ∧ (selOf t q).held = (selOf s q).held ∧
          t = { s with selectors := t.selectors, book := { s.book with orders := t.book.orders }, regs := t.regs } ∧
          orderOf t o = if poison then { orderOf s o with faultPend := some ((orderOf s o).faultPend.getD (1, 6, 0)) } else orderOf s o) ∧
      (stepSelects (orderOf s o) = true → (selOf s q).rows.any (fun x => decide (x.order = o)) = false →
        (rowFits s q o = false ∨ (selOf s q).held.any (fun x => decide (x.order = o)) = true) →
        ∃ t, exec (.logitDelivery o vals poison) s = .next t ∧ t = { s with selectors := t.selectors } ∧ others q t ∧
          selOf t q = { selOf s q with held := (selOf s q).held ++ [⟨o, vals, poison⟩] }) ∧
      (stepSelects (orderOf s o) = false → ∃ t, exec (.logitDelivery o vals poison) s = .next t ∧ t.selectors = s.selectors ∧ sameBytes s t ∧ otherOrders o s t)) ∧
    (∀ q h rest, (selOf s q).held = h :: rest → (h.vals.map Prod.fst).Nodup →
      (stepSelects (orderOf s h.order) = true → ((selOf s q).rows.any (fun x => decide (x.order = h.order)) = true ∨ rowFits s q h.order = true) →
        ∃ t, exec (.heldDeliveryAccept q) s = .next t ∧ merged t q h.order h.vals ∧ others q t ∧ (selOf t q).held = rest ∧ otherOrders h.order s t ∧ sameBytes s t) ∧
      (stepSelects (orderOf s h.order) = false → ∃ t, exec (.heldDeliveryAccept q) s = .next t ∧ others q t ∧ selOf t q = { selOf s q with held := rest } ∧ t.book = s.book ∧
        tget 0 t.regs.live 0x700148 = min (2 ^ 64 - 1) (tget 0 s.regs.live 0x700148 + 1))) ∧
    (∀ q waited o rest row, (selOf s q).ready = o :: rest → rowOf s q o = some row → (selOf s q).absent = false →
      let r := orderOf s o
      let mask := maskOfOrder s q o
      let allowed := if hasMask r then mask.getD [] else List.range (orderVocab s o)
      let code := fun (k : Nat) => tget 0 row.vals k - 1
      let res := selectTok code allowed r.params (if r.params.repWin = 0 then [] else penaltyToks r) r.n
      (row.poison = true → ∃ t, exec (.selection q waited) s = .next t ∧ t.book = s.book ∧ others q t ∧ rowOf t q o = none) ∧
      (row.poison = false → hasMask r = true → mask = none → exec (.selection q waited) s = .next s) ∧
      (row.poison = false → (hasMask r = true → mask ≠ none) → allowed = [] → ∃ t, exec (.selection q waited) s = .next t ∧ others q t ∧ otherOrders o s t ∧
        rowOf t q o = none ∧ orderOf t o = { r with pendValid := false, genEnd := some 8, unreported := [], step := r.step.map (fun x => { x with selected := true }) }) ∧
      (row.poison = false → (hasMask r = true → mask ≠ none) → allowed ≠ [] → ∃ t, exec (.selection q waited) s = .next t ∧ otherOrders o s t ∧ sameBytes s t ∧
        (r.selector = q → others q t) ∧ rowOf t q o = none ∧
        let u := orderOf t o
        u.pendingTok = res.tok ∧ u.pendValid = true ∧ u.generated = (r.generated + 1) % 2 ^ 32 ∧ u.made = r.made + 1 ∧ u.n = r.n ∧
        u.history = ((r.n, res.tok) :: r.history).take 4096 ∧ (u.step.map (fun x => x.selected)) = r.step.map (fun _ => true) ∧ u.genEnd = endReason t o res.tok ∧
        (r.grammarEn = false → u.autState = r.autState ∧ u.autStack = r.autStack) ∧
        (∀ g, r.grammarEn = true → grammarOf s r.grammar = some g → (u.autState, u.autStack) = autStep g r.autState r.autStack res.tok)) ∧
      (r.params.temp % 2 ^ 31 = 0 → r.params.repWin = 0 → (∃ k, k ∈ allowed ∧ readLogit (code k) ≠ negInf) → allowed.Nodup → res.tok ∈ allowed ∧
        ∀ k, k ∈ allowed → ltF32 (readLogit (code res.tok)) (readLogit (code k)) = false ∧
          (ltF32 (readLogit (code k)) (readLogit (code res.tok)) = false → res.tok ≤ k)) ∧
      ((∀ k, k ∈ allowed → readLogit (code k) = negInf) → r.params.repWin = 0 → res.tok = allowed.headD 0)) ∧
    (∀ q o rest, (selOf s q).maskQueue = o :: rest →
      let r := orderOf s o
      let gram := if r.grammarEn then grammarOf s r.grammar else none
      let good := ∀ g k, gram = some g → k ∈ imageSectors s g (maskReads g r.autState) → sectorPoison s k = 0
      let listGood := r.params.listEn = true → (readList s o).2.2 = false
      (good → listGood → ∃ t, exec (.maskBuild q) s = .next t ∧ others q t ∧ t.book = s.book ∧ sameBytes s t ∧ (selOf t q).maskQueue = rest ∧ ∃ mask,
        (selOf t q).masks = (selOf s q).masks ++ [(o, mask)] ∧
        ∀ k, k ∈ mask ↔ (k < orderVocab s o ∨ gram ≠ none ∨ r.params.listEn = true) ∧ (∀ g, gram = some g → k ∈ grammarMask g r.autState r.autStack) ∧
          (r.params.listEn = true → k ∈ (readList s o).1)) ∧
      (¬good ∨ ¬listGood → ∃ t, exec (.maskBuild q) s = .next t ∧ others q t ∧ otherOrders o s t ∧ (selOf t q).masks = (selOf s q).masks ∧ (selOf t q).maskQueue = rest ∧
        orderOf t o = { r with faultPend := some (r.faultPend.getD (1, 6, 0)) })) ∧
    (∀ q, q < 4 → (selOf s q).absent = false → ∃ t, exec (.selectorFail q) s = .next t ∧ others q t ∧ t.book = s.book ∧ sameBytes s t ∧
      (selOf t q).absent = true ∧ (selOf t q).rows = [] ∧ (selOf t q).ready = [] ∧ (selOf t q).masks = [] ∧ (selOf t q).maskQueue = (selOf s q).maskQueue ∧
      t.sched.stepEnds = s.sched.stepEnds ++ (selOf s q).rows.map (fun r => (r.order, false)) ∧ t.sched.plc.absent = s.sched.plc.absent ++ [unitWord 9 q 0])

/-! ### Bells, the scheduler and the governor -/

/-- What is left of H joins the remainder at HOLD_RELEASE percent of the bell, and an admission takes its charge from the remainder or H, never more than
they hold (R331, R333); at every sample the governor adds 1 %, tests, and clamps (R337, R338); a migration's copy leaves the destination frame with the
source's bytes until its boundary commits (R299, R300). -/
def Obligations.SchedulerAndGovernor : Prop :=
  ∀ (s : State) (time : Nat),
    let now := max s.now time
    (100 * (now - s.sched.opened) ≥ bellNs s * forceField s 0x100020 22 16 → exec (.holdRelease time) s =
      .next { s with now := now, sched := { s.sched with remainder := s.sched.remainder + s.sched.hold, hold := 0 } }) ∧
    (100 * (now - s.sched.opened) < bellNs s * forceField s 0x100020 22 16 → exec (.holdRelease time) s = .next { s with now := now }) ∧
    (∀ nJ, let e := s.sched.energy + 101 * nJ
      let hit := s.sched.budget * 100000000 ≤ e * 10 + 14000000000 + min Config.pFloorW 1900 * (s.sched.opened + bellNs s - now) * 1000
      (s.sys.powered = true → s.sched.clamped = false → hit → exec (.governorSample nJ time) s = .next { s with
        now := now, sched := { s.sched with energy := e, clamped := true, cands := s.sched.cands.map (fun c => { c with admitted := 0 }) } }) ∧
      (s.sys.powered = false ∨ s.sched.clamped = true ∨ ¬hit → exec (.governorSample nJ time) s = .next { s with now := now, sched := { s.sched with energy := e } })) ∧
    (∃ t, exec (.dispatchAdmit time) s = .next t ∧ t.now = now ∧ t.bell = s.bell ∧ t.sched.allow = s.sched.allow ∧ t.sched.remainder ≤ s.sched.remainder ∧
      t.sched.hold ≤ s.sched.hold ∧ t.sched.charged + t.sched.remainder + t.sched.hold = s.sched.charged + s.sched.remainder + s.sched.hold) ∧
    (s.ready = false ∨ s.sched.allow = 0 ∨ s.sched.clamped = true → exec (.dispatchAdmit time) s = .next { s with now := now }) ∧
    (∀ c, s.sched.cands = [c] → c.kind = .copy → c.idx ≠ 2 → c.idx ≠ 4 → c.lc = false → c.device = true → c.admitted = 0 → c.total = c.started + 1 →
      s.sched.late = [] → s.ready = true → 0 < s.sched.allow → s.sched.clamped = false → s.sched.migUsed ≤ plcField s 12 4 * 10 * bellNs s →
      (∀ n, n ∈ c.gang → thermalRoom s 4 n (chargeOf s c 40) = true) → chargeOf s c 40 ≤ s.sched.remainder → ∃ t, exec (.dispatchAdmit time) s = .next t ∧
        t.sched.cands = [] ∧ t.sched.charged = s.sched.charged + chargeOf s c 40 ∧ t.sched.remainder = s.sched.remainder - chargeOf s c 40 ∧
        t.sched.hold = s.sched.hold ∧ sameBytes s t ∧ t.book = s.book ∧ countersOnly s t) ∧
    (∀ g e, s.memOk = true → mapEnt s g = some e → e.migrating = true → e.copied = false →
      (∀ c, c ∈ s.sched.cands → ¬(c.kind = .copy ∧ c.idx = 4 ∧ c.addr = g)) →
      let l := [(e.stack * 2 ^ 20 + e.frame, e.dest * 2 ^ 20 + e.destFrame)]
      framesApart l → ∃ t, exec (.migrationCopyDone g) s = .next t ∧ mapEnt t g = some { e with copied := true } ∧ (∀ h, h ≠ g → mapEnt t h = mapEnt s h) ∧
        framesCopied l s t ∧ countersOnly s t ∧ t = { s with mem := t.mem, regs := t.regs })

/-- A boundary ends the bell and opens the next: BELL_COUNT goes up by one, the accounts start anew, the plan's allowance is A = B − reserve − standing × T −
carry-in, and at the end of a ledger period the statistics are taken (R319, R322, R328, R547); before READY only the accounts start anew (R321). An early
scan is asked for, held, merged or ignored, and performed (R324); a ledger close ends with BUSY clear and every latched copy new (R547). -/
def Obligations.Bells : Prop :=
  ∀ (s : State),
    (∀ b, s.sys.powered = false ∨ s.sys.stage = 8 → exec (.bellBoundary b) s = .next s) ∧
    (∀ b, s.sys.powered = true → s.sys.stage ≠ 8 → s.sys.resets = [] → ∃ t, exec (.bellBoundary b) s = .next t ∧
      t.now = max s.now b.time ∧ t.sched.opened = t.now ∧ t.sched.energy = 0 ∧ t.sched.clamped = false ∧ t.sched.standing = b.standing ∧ t.ready = s.ready ∧
      (s.ready = false → t.bell = s.bell ∧ t.sched.charged = 0) ∧
      (s.ready = true → t.bell = s.bell + 1 ∧
        t.sched.allow = bellBudget t - (bellBudget t * rfield t 0x300008 4 0 / 100 + b.standing * bellNs t + t.sched.carry) ∧
        (s.sched.ledgerAt + s.sched.ledger ≤ s.bell + 1 → t.stat.busy = true ∧ t.sched.ledgerAt = s.bell + 1) ∧
        (s.bell + 1 < s.sched.ledgerAt + s.sched.ledger → t.stat.busy = false ∧ t.sched.ledgerAt = s.sched.ledgerAt ∧ bellNs t = bellNs s))) ∧
    (∀ vf value time, let now := max s.now time
      (bitOf value 0 = false → exec (.bellEarlyScan vf value time) s = .next { s with now := now }) ∧
      (bitOf value 0 = true → (s.ready = false ∨ (0 < vf ∧ s.book.enabled.contains (vf - 1) = false) ∨ s.host.scanHeld = true) →
        ∃ t, exec (.bellEarlyScan vf value time) s = .next t ∧ t = { s with now := now, regs := t.regs } ∧ countersOnly s t ∧
          tget 0 t.regs.live 0x100140 = min (2 ^ 64 - 1) (tget 0 s.regs.live 0x100140 + 1)) ∧
      (bitOf value 0 = true → s.ready = true → (vf = 0 ∨ s.book.enabled.contains (vf - 1) = true) → s.host.scanHeld = false →
        ∃ t, exec (.bellEarlyScan vf value time) s = .next t ∧ t = { s with now := now, regs := t.regs, host := { s.host with scanHeld := true } } ∧ countersOnly s t)) ∧
    (∀ cells fails cmds time, let now := max s.now time
      (s.host.scanHeld = false ∨ (s.host.lastScan ≠ 0 ∧ now < s.host.lastScan + 10000) → exec (.earlyScan cells fails cmds time) s = .next { s with now := now }) ∧
      (s.host.scanHeld = true → (s.host.lastScan = 0 ∨ s.host.lastScan + 10000 ≤ now) → ∃ t, exec (.earlyScan cells fails cmds time) s = .next t ∧
        t.now = now ∧ t.bell = s.bell ∧ t.host.scanHeld = false ∧ t.host.lastScan = now ∧ t.host.fails = fails ∧ sameBytes s t ∧
        let r := ringOf s opRing
        let base := rget s 0x200000 / 4096 * 4096
        let mem := cells.foldl (fun m p => tset (0 : Byte) m p.1 p.2) s.host.mem
        let tail := leAt ((List.range 8).map (fun i => tget (0 : Byte) mem (base + i))) 0 8 % 2 ^ 32
        let d := (tail + 2 ^ 32 - r.consumed) % 2 ^ 32
        (tsorted s.host.rings = true → rfield s 0x200000 0 0 = 1 → fails = [] → r.started = true → r.fresh = false → r.stopped = false → d ≤ 2 ^ r.sqLog →
          (ringOf t opRing).consumed = (r.consumed + min d 256) % 2 ^ 32))) ∧
    (s.stat.busy = false → exec .ledgerClose s = .next s) ∧
    (s.stat.busy = true → ∃ t, exec .ledgerClose s = .next t ∧ t.stat.busy = false ∧ t.stat.seq = (s.stat.seq + 1) % 2 ^ 32 ∧ t.regs.latched = s.stat.snap ∧
      t.regs.tlatched = s.stat.tsnap ∧ t.stat.bells = s.stat.snapBells ∧ t.stat.period = s.stat.snapPeriod ∧ sameBytes s t ∧ t.book = s.book ∧ t.bell = s.bell ∧ t.now = s.now)

/-! ### Temperatures and tallies -/

/-- A sample gives its channel's reading and rate; the unit enters its warning and slow-down levels at their thresholds, with a grace deadline, and leaves
them more than 2 °C below; a failed channel reads as Table 14.3 says (R344 to R348, R353). A grace time's end starts enforcement while the sample is still at
the threshold, and otherwise leaves the request open (R353, R354). The flash window and what is held for it follow R358. -/
def Obligations.Temperatures : Prop :=
  ∀ (s : State),
    let levels := fun (u : Nat) (t : State) =>
      let x := unitOf s u
      let v := unitTemp t u
      unitOf t u = { x with
        warn := if warnAt s u ≤ v then true else if v < warnAt s u - 16 then false else x.warn
        slow := if slowAt s u ≤ v then true else if v < slowAt s u - 16 then false else x.slow
        deadline := if x.slow = false ∧ slowAt s u ≤ v then (if x.enforcing then x.deadline else some (nowMs t + forceField s 0x400000 7 0))
          else if x.slow = true ∧ v < slowAt s u - 16 then none else x.deadline
        opened := if x.slow = true ∧ v < slowAt s u - 16 then false else x.opened
        cool := x.cool || decide (v < warnAt s u) } ∧
      (∀ w, w ≠ u → unitOf t w = unitOf s w) ∧
      (u < 12 → (stackOf t u).temp = (v / 8).toNat ∧ (stackOf t u).sensorFail = (unitChans u).any (fun c => (chanOf t c).state == 2)) ∧
      (∀ n, n ≠ u → stackOf t n = stackOf s n) ∧ (12 ≤ u → t.stks = s.stks)
    let frame := fun (c time : Nat) (t : State) => countersOnly s t ∧ (∀ d, d ≠ c → chanOf t d = chanOf s d) ∧
      t = { s with now := max s.now time, therm := { s.therm with chans := t.therm.chans, units := t.therm.units }, stks := t.stks, host := t.host, regs := t.regs }
    let peak := fun (c r : Nat) => if signedOf 16 r > signedOf 16 (chanOf s c).peak then r else (chanOf s c).peak
    (∀ c reading time, c < 56 → chanEnabled s c = true → ∃ t, exec (.thermalSample c reading time) s = .next t ∧ frame c time t ∧ levels (chanUnit c) t ∧
      chanOf t c = ⟨reading % 65536, 0, sampleRate t c, peak c (reading % 65536), t.now⟩ ∧
      (let x := unitOf s (chanUnit c)
       let v := unitTemp t (chanUnit c)
       (chanOf s c).state = 0 → x.slow = false → v < slowAt s (chanUnit c) →
         (x.warn = false → v < warnAt s (chanUnit c) → t.host = s.host) ∧
         (x.warn = false → warnAt s (chanUnit c) ≤ v → t.host = (emitOp 6 1 0 [thermUnitWord (chanUnit c), codeOf 16 v, unitLevel t (chanUnit c)] s).host))) ∧
    (∀ c wire time, c < 56 → chanEnabled s c = true → ∃ t, exec (.sensorFail c wire time) s = .next t ∧ frame c time t ∧ levels (chanUnit c) t ∧
      (let r := if wire then 0x7FFF else codeOf 16 (unitLimit s (chanUnit c) + 8)
       chanOf t c = ⟨(chanOf s c).reading, if wire then 1 else 2, sampleRate t c, peak c r, t.now⟩ ∧ chanReading t c = r)) ∧
    (∀ c reading wire time, 56 ≤ c ∨ chanEnabled s c = false → exec (.thermalSample c reading time) s = .next { s with now := max s.now time } ∧
      exec (.sensorFail c wire time) s = .next { s with now := max s.now time }) ∧
    (∀ u d, u < 32 → (unitOf s u).deadline = some d →
      (nowMs s < d → exec (.graceExpiry u) s = .next s) ∧
      (d ≤ nowMs s → unitTemp s u < slowAt s u → ∃ t, exec (.graceExpiry u) s = .next t ∧ t = { s with therm := { s.therm with units := t.therm.units } } ∧
        unitOf t u = { unitOf s u with deadline := none, opened := true } ∧ ∀ w, w ≠ u → unitOf t w = unitOf s w) ∧
      (d ≤ nowMs s → slowAt s u ≤ unitTemp s u → ∃ t, exec (.graceExpiry u) s = .next t ∧ (∀ w, w ≠ u → unitOf t w = unitOf s w ∧ stackOf t w = stackOf s w) ∧
        sameBytes s t ∧ t.therm.chans = s.therm.chans ∧
        unitOf t u = { unitOf s u with
          enforcing := true, said := true, deadline := none, opened := false, lastInc := some (codeOf 16 (unitTemp s u), s.now)
          ceil := if u < 12 then (unitOf s u).ceil else max 12 ((unitOf s u).ceil - 2) } ∧
        stackOf t u = if u < 12 then { stackOf s u with step := min 7 ((stackOf s u).step + 1) } else stackOf s u)) ∧
    (∀ reading,
      let v := signedOf 16 (reading % 65536)
      let ok := if s.therm.flashOpen then 0 ≤ v ∧ v ≤ 85 * 8 else 16 ≤ v ∧ v ≤ 83 * 8
      (¬ok ∨ s.therm.flashOpen = true → ∃ t, exec (.flashTempSample reading) s = .next t ∧
        t = { s with therm := { s.therm with flashTemp := reading % 65536, flashOpen := t.therm.flashOpen } } ∧ (t.therm.flashOpen = true ↔ ok)) ∧
      (ok → s.therm.flashOpen = false → ∃ t, exec (.flashTempSample reading) s = .next t ∧ t.therm.flashOpen = true ∧ t.therm.held = [] ∧ t.host = s.host ∧
        (s.therm.held ≠ [] → (∀ h, h ∈ s.therm.held → h.kind = 0) → t.ras.nvLog = ((s.therm.held.flatMap (fun h => h.ras.toList)).reverse ++ s.ras.nvLog).take 65536) ∧
        (s.therm.held ≠ [] → (∀ h, h ∈ s.therm.held → h.kind = 1) → t.therm.audit = ((s.therm.held.map (fun h => h.words)).reverse ++ s.therm.audit).take 16384)))

/-- A satisfied wait leaves the tally unit and its waiter goes on; the tally aperture reads value and OVF, and a set stores the value, clears OVF and
satisfies the waits that it reaches; an access that the tally's owner does not allow is a PROTECTION fault that signals nothing (R378, R381 to R383). A
write to a reduction alias combines every 4-byte element and stores nothing else (R386). -/
def Obligations.Tallies : Prop :=
  ∀ (s : State),
    (∀ k, (∀ w, w ∈ s.tal.waits → w.tally = k → w.satisfied = false) → exec (.tallyWaitSatisfied k) s = .next s) ∧
    (∀ k l w r, s.tal.waits = l ++ w :: r → (∀ x, x ∈ l → x.tally = k → x.satisfied = false) → w.tally = k → w.satisfied = true →
      ∃ t, exec (.tallyWaitSatisfied k) s = .next t ∧ t.tal = { s.tal with waits := l ++ r } ∧ t.regs = s.regs ∧ t.mem = s.mem ∧
        (∀ b, w.who = .bench b → t = { s with tal := t.tal, benches := t.benches } ∧ otherBenches b s t ∧
          benchOf t b = if (benchOf s b).wait = .tally then { benchOf s b with wait := .run } else benchOf s b) ∧
        (∀ n, w.who = .sheet n → otherShops (n / 2) s t ∧ (n % 2 < (shopOf s (n / 2)).banks.length →
          bankOf t (n / 2) (n % 2) = { bankOf s (n / 2) (n % 2) with
            waited := orMask (bankOf s (n / 2) (n % 2)).waited (waitBits (sheetWaits (bankOf s (n / 2) (n % 2)).regs) k w.value) })) ∧
        (∀ q, w.who = .collective q → t = { s with tal := t.tal, bal := { s.bal with colls := s.bal.colls.map (fun c =>
          if c.id = q then { c with waited := orMask c.waited (waitBits ((c.words.drop 2).take 4) k w.value) } else c) } })) ∧
    (∀ shop ctx off len, tallyAccess s ctx off len = true → ∃ t, exec (.tallyRead shop ctx off len) s = .next t ∧
      t = { s with regs := { s.regs with last := t.regs.last, lastBytes := t.regs.lastBytes } } ∧
      t.regs.last.toNat = (if len = 4 then (tallyOf s (off / 8)).value.toNat else (tallyOf s (off / 8)).value.toNat + b2n (tallyOf s (off / 8)).ovf * 2 ^ 32) ∧
      t.regs.lastBytes = leBytes len t.regs.last.toNat) ∧
    (∀ shop ctx off len data, tallyAccess s ctx off len = true → ∃ t, exec (.tallySet shop ctx off len data) s = .next t ∧ t = { s with tal := t.tal } ∧
      tallyOf t (off / 8) = ⟨BitVec.ofNat 32 data, false⟩ ∧ (∀ k, k ≠ off / 8 → tallyOf t k = tallyOf s k) ∧ t.tal.range = s.tal.range ∧
      t.tal.waits = s.tal.waits.map (fun w => if w.tally = off / 8 ∧ w.value ≤ data % 2 ^ 32 then { w with satisfied := true } else w)) ∧
    (∀ shop ctx off len data, tallyAccess s ctx off len = false → (shopOf s shop).fault = none → ∃ t u, exec (.tallyRead shop ctx off len) s = .next t ∧
      exec (.tallySet shop ctx off len data) s = .next u ∧ (shopOf t shop).fault = some [5, 0, 1, ctx, 0, 0] ∧ (shopOf u shop).fault = some [5, 0, 3, ctx, 0, 0] ∧
      t.tal.vals = s.tal.vals ∧ u.tal.vals = s.tal.vals ∧ sameBytes s t ∧ sameBytes s u) ∧
    (∀ shop ctx addr data kind a n, data.length = 4 * n → 0 < n → addr % 4 = 0 → resolve s (ctxTenant s ctx) addr = .reduce kind a →
      (∀ i, i < 4 * n → ∃ b, resolve s (ctxTenant s ctx) (addr + i) = .reduce kind b) → ∃ t, exec (.reductionWrite shop ctx addr data) s = .next t ∧
      t = { s with mem := { s.mem with bytes := t.mem.bytes }, regs := t.regs } ∧ countersOnly s t ∧
      (∀ i, i < n → keyWord t (a + 4 * i) 4 = reduceElem kind (keyWord s (a + 4 * i) 4) (ofLeBytes ((data.drop (4 * i)).take 4)) % 2 ^ 32) ∧
      (∀ k, ¬(a ≤ k ∧ k < a + 4 * n) → keyByte t k = keyByte s k)) ∧
    (∀ shop ctx addr data, (∀ kind a, resolve s (ctxTenant s ctx) addr ≠ .reduce kind a) → (shopOf s shop).fault = none →
      ∃ t, exec (.reductionWrite shop ctx addr data) s = .next t ∧ (shopOf t shop).fault = some [5, 0, 3, ctx, 0, 0] ∧ sameBytes s t)


/-! ### The Balis fabric -/

/-- Ports and lanes. Signal on an enabled port starts training; the nine lanes' bit errors decide which pass and which is the spare, fewer than 8 or a peer of
the own device ID leave it down for 10 s; a down port trains again after its wait (R395, R399, R405). A codeword that is wrong or out of order is answered
with NAK, one in order is taken and acknowledges (R396, R398, R403). A lane fails over to the spare, or the port goes down; a retested lane becomes the spare
(R398, R400). A lost signal stops sending, back within 2 ms resumes, after 2 ms takes the port down (R421). -/
def Obligations.BalisPorts : Prop :=
  ∀ (s : State) (port time : Nat), port < 16 →
    let now := max s.now time
    let x := portOf s port
    let passes := fun (errs : List (Nat × Nat)) =>
      (List.range 9).filter (fun l => ((errs[l]?).map (fun e => decide (e.1 ≤ 20000000 ∧ e.2 ≤ 20000000))).getD false)
    (portEn s port = true → s.sys.powered = true → x.state ≤ 1 → ∃ t, exec (.signalDetect port time) s = .next t ∧ fabricOnly now s t ∧ t.host = s.host ∧
      portOf t port = { x with state := 2, lostAt := none } ∧ otherPorts port s t) ∧
    (portEn s port = false ∨ s.sys.powered = false ∨ 2 ≤ x.state → exec (.signalDetect port time) s = .next { s with now := now }) ∧
    (∀ errs peer pp lat, x.state = 2 → (passes errs).length < 8 → ∃ t, exec (.trainingDone port errs peer pp lat time) s = .next t ∧ fabricOnly now s t ∧
      t.host = s.host ∧ portOf t port = { x with state := 4, pass := maskOf (passes errs), spare := 0xF, retrain := now + 10000000000 } ∧ otherPorts port s t) ∧
    (∀ errs peer pp lat, x.state = 2 → 8 ≤ (passes errs).length → peer ≠ 0 → peer = ownDevice s →
      ∃ t, exec (.trainingDone port errs peer pp lat time) s = .next t ∧ fabricOnly now s t ∧ otherPorts port s t ∧
        t.host = (emitOp 7 9 0 [port] (emitOp 7 2 0 [port, 4] s)).host ∧
        portOf t port = { x with state := 4, peer := peer, peerPort := pp, retrain := now + 10000000000 }) ∧
    (∀ errs peer pp lat, x.state = 2 → 8 ≤ (passes errs).length → ¬(peer ≠ 0 ∧ peer = ownDevice s) → peer < 4096 → pp < 16 → lat < 65536 →
      ∃ t, exec (.trainingDone port errs peer pp lat time) s = .next t ∧ fabricOnly now s t ∧ otherPorts port s t ∧ reachabilityHeld s t ∧
        (let p := portOf t port
         p.state = 3 ∧ p.pass = maskOf (passes errs) ∧ p.lock = maskOf (passes errs) ∧ p.peer = peer ∧ p.peerPort = pp ∧ p.latency = lat ∧ p.lostAt = none ∧
           (∀ l, l ∈ p.failed ↔ l < 9 ∧ l ∉ passes errs) ∧ p.rxNext = 0 ∧ p.txNext = 0 ∧ p.nak = false ∧
           ((passes errs).length < 9 → p.spare = 0xF) ∧ ((passes errs).length = 9 → p.spare < 9 ∧ ∀ l, l < 9 → ∀ e g, errs[l]? = some e → errs[p.spare]? = some g →
             e.1 + e.2 ≤ g.1 + g.2)) ∧
        (routedDevices s = [] → t.host = (emitOp 7 1 0 [port, peer, (portOf t port).spare] s).host)) ∧
    (x.state = 4 → x.retrain ≤ now → portEn s port = true → ∃ t, exec (.portRetrain port time) s = .next t ∧ fabricOnly now s t ∧ t.host = s.host ∧
      portOf t port = { x with state := 2 } ∧ otherPorts port s t) ∧
    (x.state ≠ 4 ∨ now < x.retrain ∨ portEn s port = false → exec (.portRetrain port time) s = .next { s with now := now }) ∧
    (∀ correct fixed seq ack nak credits sent taken stalled, portUp s port = true →
      let room := 2048 - ((x.txNext + 4096 - (x.txAcked + 1) % 4096) % 4096)
      ∃ t, exec (.codewordReceive port correct fixed seq ack nak credits sent taken stalled []) s = .next t ∧ fabricOnly s.now s t ∧ t.host = s.host ∧
        t.book = s.book ∧ (∀ m, m ≠ port → portOf t m = portOf s m) ∧
        (correct = false ∨ seq % 4096 ≠ x.rxNext → t.bal = { s.bal with ports := t.bal.ports } ∧
          portOf t port = { x with nak := true, txNext := (x.txNext + min sent room) % 4096 }) ∧
        (correct = false → t.regs = (bump (blsC port 0x120) 1 (bump (blsC port 0x140) stalled s)).regs) ∧
        (correct = true → seq % 4096 = x.rxNext →
          portOf t port = { x with
            rxNext := (x.rxNext + 1) % 4096, nak := false, txAcked := ack % 4096, txNext := (x.txNext + min sent room) % 4096
            replays := if nak then x.replays + 1 else 0, queue := (portOf t port).queue, credits := (portOf t port).credits } ∧
          (x.queue = [] → t.bal.out.filter (fun q => decide (q.1 = port)) = (s.bal.out.filter (fun q => decide (q.1 = port))).drop taken ∧
            t.bal.out.filter (fun q => decide (q.1 ≠ port)) = s.bal.out.filter (fun q => decide (q.1 ≠ port))))) ∧
    (∀ lane errors, lane < 9 → portUp s port = true → bitOf x.pass lane = true → ∃ t, exec (.laneFail port lane errors time) s = .next t ∧ fabricOnly now s t ∧
      otherPorts port s t ∧
      (let off := { x with pass := x.pass - 2 ^ lane, failed := x.failed ++ [lane], errors := tset 0 x.errors lane (min errors 0xFFFFFFFF), spare := 0xF }
       (x.spare = lane → portOf t port = off ∧ t.host = s.host ∧ t.regs = s.regs) ∧
       (x.spare ≠ lane → x.spare ≠ 0xF → portOf t port = off ∧ t.host = (emitOp 7 3 0 [port, lane, errors] s).host ∧
         t.regs = (bump 0x1400140 1 (bump (blsC port 0x130) 1 (emitOp 7 3 0 [port, lane, errors] s))).regs) ∧
       (x.spare = 0xF → portOf t port = portLost 4 now x ∧ reachabilityHeld s t ∧ (routedDevices s = [] → t.host = (emitOp 7 2 0 [port, 1] s).host)))) ∧
    (∀ lane, portUp s port = true → x.failed.contains lane = true → ∃ t, exec (.laneRetestDone port lane true) s = .next t ∧ fabricOnly s.now s t ∧
      t.host = s.host ∧ otherPorts port s t ∧ portOf t port = { x with
        failed := x.failed.filter (fun l => decide (l ≠ lane)), pass := x.pass ||| 2 ^ lane, lock := x.lock ||| 2 ^ lane
        spare := if x.spare = 0xF then lane else x.spare }) ∧
    (∀ lane, exec (.laneRetestDone port lane false) s = .next s) ∧
    (portUp s port = true → ∃ t, exec (.signalLoss port time) s = .next t ∧ fabricOnly now s t ∧ t.host = s.host ∧ otherPorts port s t ∧
      portOf t port = { x with lostAt := some (x.lostAt.getD now), lock := 0 }) ∧
    (x.state = 2 ∨ x.state = 4 → ∃ t, exec (.signalLoss port time) s = .next t ∧ fabricOnly now s t ∧ t.host = s.host ∧ otherPorts port s t ∧
      portOf t port = { x with state := 1 }) ∧
    (∀ l, x.lostAt = some l →
      (now ≤ l + 2000000 → ∃ t, exec (.signalReturn port time) s = .next t ∧ fabricOnly now s t ∧ t.host = s.host ∧ otherPorts port s t ∧
        portOf t port = { x with lostAt := none, lock := x.pass, queue := (portOf t port).queue, credits := (portOf t port).credits }) ∧
      (l + 2000000 < now → exec (.signalReturn port time) s = .next { s with now := now }) ∧
      (now < l + 2000000 → exec (.portDown port time) s = .next { s with now := now }) ∧
      (l + 2000000 ≤ now → ∃ t, exec (.portDown port time) s = .next t ∧ fabricOnly now s t ∧ otherPorts port s t ∧ portOf t port = portLost 1 now x ∧
        (portUp s port = true → reachabilityHeld s t ∧ (routedDevices s = [] → t.host = (emitOp 7 2 0 [port, 2] s).host)))) ∧
    (x.lostAt = none → exec (.signalReturn port time) s = .next { s with now := now } ∧ exec (.portDown port time) s = .next { s with now := now })

/-- The failure of a reference input takes down the eight ports that it serves (R395). The bell mark over the fewest links aligns this device's boundaries with
its source's; another period is a BELL_MISMATCH, said once, and 16 bells without a mark lose the source (R418). -/
def Obligations.BalisReferenceAndMarks : Prop :=
  ∀ (s : State) (time : Nat),
    let now := max s.now time
    let src := rfield s (blsD 8) 11 0
    (∀ ref, ref < 2 → ∃ t, exec (.balisReferenceFailure ref time) s = .next t ∧ fabricOnly now s t ∧
      (∀ n, 8 * ref ≤ n → n < 8 * ref + 8 → portUp s n = true ∨ (portOf s n).state = 2 → portOf t n = portLost 4 now (portOf s n)) ∧
      (∀ n, n < 8 * ref ∨ 8 * ref + 8 ≤ n ∨ (portUp s n = false ∧ (portOf s n).state ≠ 2) →
        portOf t n = { portOf s n with queue := (portOf t n).queue, credits := (portOf t n).credits })) ∧
    (∀ port bell phase period, port < 16 → portUp s port = true → s.ready = true → src ≠ 0 → src ≠ ownDevice s →
      (period = s.sched.period → ∃ t, exec (.bellMark port bell phase period true time) s = .next t ∧ fabricOnly now { s with sched := t.sched } t ∧
        t.sched = { s.sched with opened := time - phase - (portOf s port).latency } ∧ t.book = s.book ∧
        t.bal = { s.bal with fabric := bell % 2 ^ 48, aligned := true, noMark := 0, mismatch := false, sourceLost := false } ∧
        t.host = if s.bal.sourceLost then (emitOp 7 7 0 [bell % 2 ^ 48] s).host else s.host) ∧
      (period ≠ s.sched.period → s.bal.mismatch = true → exec (.bellMark port bell phase period true time) s = .next { s with now := now }) ∧
      (period ≠ s.sched.period → s.bal.mismatch = false → ∃ t, exec (.bellMark port bell phase period true time) s = .next t ∧ fabricOnly now s t ∧
        t.book = s.book ∧ t.bal = { s.bal with mismatch := true, aligned := false } ∧ t.host = (emitOp 7 8 0 [period] s).host)) ∧
    (∀ port bell phase period, exec (.bellMark port bell phase period false time) s = .next { s with now := now }) ∧
    (16 ≤ s.bal.noMark → s.bal.sourceLost = false → src ≠ 0 → src ≠ ownDevice s → ∃ t, exec .bellSourceLost s = .next t ∧ fabricOnly s.now s t ∧ t.book = s.book ∧
      t.bal = { s.bal with sourceLost := true, aligned := false } ∧ t.host = (emitOp 7 6 0 [s.bal.fabric] s).host) ∧
    (s.bal.noMark < 16 ∨ s.bal.sourceLost = true ∨ src = 0 ∨ src = ownDevice s → exec .bellSourceLost s = .next s)

/-- A packet that arrives on an up port is counted; with a wrong ECRC it is dropped and recorded; one for another device goes on over its route in the next
virtual channel, and where there is none it is recorded and its request answered UNREACHABLE (R401, R403, R405, R406). Requests for this device are answered
BUSY_RETRY before READY and while their home is in reset (R419, R423), and otherwise performed: READ, WRITE and ATOMIC on the addressed bytes, SIGNAL on the
tally, COLL_READY and COLL_DATA on their instance, CTRL by its code; a range or a tally that the tenant does not hold is REFUSED (R402, R409, R411, R412, R414,
R416, R417). -/
def Obligations.BalisRequests : Prop :=
  ∀ (s : State) (n : Nat) (p : Packet), n < 16 → portUp s n = true →
    let s1 := bump (blsC n 0x108) (packetBeats p) s
    let ten := some p.tenant
    let len := p.data.length
    let serves := fun (typ : Nat) => ownDevice s ≠ 0 ∧ p.dst = ownDevice s ∧ busyHint s { p with typ := typ } = none
    let homes := fun (w l : Nat) => ∀ i, i < l → resolve s ten (p.addr + i) = .stack (w + i) ∨ resolve s ten (p.addr + i) = .warehouse (w + i)
    let whole := fun (w : Nat) => 1 ≤ len ∧ len ≤ 1024 ∧ p.addr / 1024 = (p.addr + len - 1) / 1024 ∧ homes w len ∧
      ∀ i, i < len → w + i < 0xC000000000 → (frameOf s ((w + i) / 65536)).lost = false
    let memory := fun (t : State) => countersOnly s t ∧ t = { s with mem := t.mem, stks := t.stks, bal := t.bal, regs := t.regs } ∧ t.bal.reqs = s.bal.reqs
    let fabric := fun (t : State) => countersOnly s t ∧ t = { s with bal := { s.bal with ports := t.bal.ports, out := t.bal.out }, regs := t.regs }
    (∀ r, r ∈ requestRows ++ answerRows →
      (∃ t, exec (r.2 n false p) s = .next t ∧ fabric t ∧ t.bal.out = s.bal.out ∧ (∀ m, m ≠ n → portOf t m = portOf s m) ∧
        t.regs = (bump (blsC n 0x138) 1 s1).regs ∧ portOf t n = (if (portOf s n).err.isSome then { portOf s n with errOver := true }
          else { portOf s n with err := some [r.1, 1, p.src, p.tenant] })) ∧
      (ownDevice s = 0 → exec (r.2 n true p) s = .next s1) ∧
      (ownDevice s ≠ 0 → p.dst ≠ ownDevice s → p.vc < 7 →
        (∀ m, routePort s { p with typ := r.1 } = some m →
          ∃ t, exec (r.2 n true p) s = .next t ∧ fabric t ∧ handedTo m { p with typ := r.1, vc := p.vc + 1 } t) ∧
        (routePort s { p with typ := r.1 } = none → ∃ t, exec (r.2 n true p) s = .next t ∧ fabric t ∧
          (isRequest r.1 = true → answeredWith p 0xE 0 [] s t) ∧ ((portOf s n).err = none → (portOf t n).err = some [r.1, 3, p.dst, p.tenant]))) ∧
      (ownDevice s ≠ 0 → p.dst ≠ ownDevice s → 7 ≤ p.vc → ∃ t, exec (r.2 n true p) s = .next t ∧ (isRequest r.1 = true → answeredWith p 0xE 0 [] s t) ∧
        ((portOf s n).err = none → (portOf t n).err = some [r.1, 2, p.dst, p.tenant]) ∧
        t.host = (if s.bal.loopSaid then s.host else (emitOp 7 9 0 [p.dst] s).host) ∧ t.bal.loopSaid = true)) ∧
    (∀ r h, r ∈ requestRows → ownDevice s ≠ 0 → p.dst = ownDevice s → busyHint s { p with typ := r.1 } = some h →
      ∃ t, exec (r.2 n true p) s = .next t ∧ fabric t ∧ answeredWith p 0xD h [] s t) ∧
    (∀ w, serves 1 → 1 ≤ p.beats → p.beats ≤ 32 → p.addr % 32 = 0 → p.addr / 1024 = (p.addr + p.beats * 32 - 1) / 1024 → homes w (p.beats * 32) →
      ∃ t, exec (.read n true p) s = .next t ∧ sameBytes s t ∧ t.bal.reqs = s.bal.reqs ∧ t.book = s.book ∧ t.tal = s.tal ∧ countersOnly s t ∧
        answeredWith p 2 (sectorMask s ten p.addr (p.beats * 32)) (peekDev s ten p.addr (p.beats * 32)).data s t) ∧
    (serves 1 → ¬(p.addr % 32 = 0 ∧ rangeOk p (p.beats * 32) = true ∧ remoteHomeOk s p.tenant p.addr (p.beats * 32) false = true) →
      ∃ t, exec (.read n true p) s = .next t ∧ fabric t ∧ answeredWith p 0xF 1 [] s t) ∧
    (∀ w, serves 3 → p.op ≠ 6 → p.op ≠ 7 → p.arg = 0 → whole w → ∃ t, exec (.write n true p) s = .next t ∧ memory t ∧ bytesStored w p.data s t ∧
      answeredWith p 4 0 [] s t) ∧
    (∀ w, serves 3 → p.op ≠ 6 → p.op ≠ 7 → p.arg = 1 → len = 64 → p.addr % 64 = 0 → homes w 64 → w % 64 = 0 → w < 0xC000000000 →
      ∃ t, exec (.write n true p) s = .next t ∧ sameBytes s t ∧ tget 0 t.mem.sector (w / 64) = 2 ∧ (∀ u, u ≠ w / 64 → tget 0 t.mem.sector u = tget 0 s.mem.sector u) ∧
        answeredWith p 4 0 [] s t) ∧
    (serves 3 → p.op ≠ 6 → p.op ≠ 7 → ¬(rangeOk p len = true ∧ remoteHomeOk s p.tenant p.addr len true = true) →
      ∃ t, exec (.write n true p) s = .next t ∧ fabric t ∧ answeredWith p 0xF 1 [] s t) ∧
    (serves 3 → p.op = 7 → ∃ t, exec (.write n true p) s = .next t ∧ (∀ k, keyByte t k = keyByte (remoteKvRow { p with typ := 3 } s1).1 k) ∧
      ((remoteKvRow { p with typ := 3 } s1).2 = true → answeredWith p 4 0 [] (remoteKvRow { p with typ := 3 } s1).1 t) ∧
      ((remoteKvRow { p with typ := 3 } s1).2 = false → answeredWith p 0xF 1 [] s t ∧ fabric t)) ∧
    (serves 3 → p.op = 6 → ∃ t, exec (.write n true p) s = .next t ∧ t.book = (remoteLogits { p with typ := 3 } s1).1.book ∧
      ((remoteLogits { p with typ := 3 } s1).2 = true → answeredWith p 4 0 [] (remoteLogits { p with typ := 3 } s1).1 t) ∧
      ((remoteLogits { p with typ := 3 } s1).2 = false → answeredWith p 0xF 1 [] s t ∧ fabric t)) ∧
    (∀ w, serves 5 → p.addr % 8 = 0 → resolve s ten p.addr = .warehouse w → p.op ≤ 5 →
      (keyPoison s w = 0 → ∃ t, exec (.atomic n true p) s = .next t ∧ memory t ∧ t.stks = s.stks ∧
        bytesStored w (leBytes 8 (atomicOp p.op (keyWord s w 8) p.arg (p.arg2 % 2 ^ 32 + leAt p.data 0 4 * 2 ^ 32))) s t ∧
        answeredWith p 6 0 (leBytes 8 (keyWord s w 8) ++ leBytes 24 0) s t) ∧
      (keyPoison s w ≠ 0 → ∃ t, exec (.atomic n true p) s = .next t ∧ fabric t ∧ answeredWith p 6 1 (leBytes 8 (keyWord s w 8) ++ leBytes 24 0) s t)) ∧
    (serves 5 → p.addr % 8 ≠ 0 ∨ 5 < p.op ∨ (∀ w, resolve s ten p.addr ≠ .warehouse w) →
      ∃ t, exec (.atomic n true p) s = .next t ∧ fabric t ∧ answeredWith p 0xF 1 [] s t) ∧
    (let k := p.addr % 65536
     let v := (tallyOf s k).value.toNat + p.arg % 2 ^ 32
     (serves 7 → tallyAllowed s ten k = true → ∃ t, exec (.balisSignal n true p) s = .next t ∧ answeredWith p 8 0 [] s t ∧ t.mem = s.mem ∧
       tallyOf t k = (if v ≤ 0xFFFFFFFF then ⟨BitVec.ofNat 32 v, (tallyOf s k).ovf⟩ else ⟨0xFFFFFFFF, true⟩) ∧ (∀ j, j ≠ k → tallyOf t j = tallyOf s j) ∧
       t.tal.waits = s.tal.waits.map (fun w => if w.tally = k ∧ w.value ≤ (tallyOf t k).value.toNat then { w with satisfied := true } else w)) ∧
     (serves 7 → tallyAllowed s ten k = false → ∃ t, exec (.balisSignal n true p) s = .next t ∧ fabric t ∧ answeredWith p 0xF 2 [] s t)) ∧
    (∀ c, serves 9 → s.bal.colls.find? (fun c => c.started && decide (collKey c = p.arg)) = some c →
      ∃ t x, exec (.collReady n true p) s = .next t ∧ x ∈ t.bal.colls ∧ x.id = c.id ∧
        x.ready = c.ready ++ [((groupMembers s (collGroup c)).findIdx? (fun d => decide (d = p.src))).getD 0]) ∧
    (serves 9 → s.bal.colls.find? (fun c => c.started && decide (collKey c = p.arg)) = none →
      (s.bal.heldReady.length < 256 → exec (.collReady n true p) s = .next { s1 with bal := { s1.bal with
        heldReady := s1.bal.heldReady ++ [(p.arg % 2 ^ 12, p.arg / 2 ^ 12 % 2 ^ 24, p.arg / 2 ^ 36, p.src)] } }) ∧
      (256 ≤ s.bal.heldReady.length → ∃ t, exec (.collReady n true p) s = .next t ∧ fabric t ∧ answeredWith p 0xD 100 [] s t)) ∧
    (∀ w, serves 0xA → p.arg = 0 → whole w → ∃ t, exec (.collData n true p) s = .next t ∧ memory t ∧ bytesStored w p.data s t ∧ answeredWith p 4 0 [] s t ∧
      ∀ c, c ∈ s.bal.colls → c.started = true → c.tenant = ten → collFolds c = true → collWord c 10 ≤ p.addr →
        p.addr < collWord c 10 + collM s c * slotElems s c * 4 → { c with got := c.got ++ [(p.addr, len)] } ∈ t.bal.colls) ∧
    (serves 0xA → ¬(rangeOk p len = true ∧ remoteHomeOk s p.tenant p.addr len false = true) →
      ∃ t, exec (.collData n true p) s = .next t ∧ fabric t ∧ answeredWith p 0xF 1 [] s t) ∧
    (serves 0xB → p.arg ∉ [1, 3, 4, 5, 6] → ∃ t, exec (.ctrl n true p) s = .next t ∧ fabric t ∧ answeredWith p 0xC 0 [] s t) ∧
    (let w := fun (i : Nat) => leAt p.data (8 * i) 8
     let q := { p with typ := 0xB }
     (serves 0xB → p.arg = 3 → exec (.ctrl n true p) s = .next (answerTo q 0xC 0 [] (applyEntry [] ⟨w 0, s.now, [w 1, w 2, w 3, w 4, 0, 0, 0, 0]⟩ s1))) ∧
     (serves 0xB → p.arg = 4 → (groupMembers s (orderGroup s (w 0)))[0]? = some p.src → (orderOf s (w 0)).gen = w 1 → stepSelects (orderOf s (w 0)) = true →
       exec (.ctrl n true p) s = .next (answerTo q 0xC 0 [] (takeToken (w 0) (w 2) s1))) ∧
     (serves 0xB → p.arg = 4 → (orderOf s (w 0)).gen ≠ w 1 → ∃ t, exec (.ctrl n true p) s = .next t ∧ fabric t ∧ answeredWith p 0xC 0 [] s t) ∧
     (serves 0xB → p.arg = 5 → (orderOf s (w 0)).gen = w 1 → (groupMembers s (orderGroup s (w 0))).contains p.src = true →
       exec (.ctrl n true p) s = .next (answerTo q 0xC 0 [] (stepRefused (w 0) (w 2) 0 s1))) ∧
     (∀ c, serves 0xB → p.arg = 1 → s.bal.colls.find? (fun c => c.started && decide (collKey c = w 0)) = some c →
       ∃ t, exec (.ctrl n true p) s = .next t ∧ ∀ x, x ∈ t.bal.colls → x.id ≠ c.id) ∧
     (serves 0xB → p.arg = 6 → (∀ c, c ∈ s.bal.colls → (groupMembers s (collGroup c)).contains p.src = false) →
       ∃ t, exec (.ctrl n true p) s = .next t ∧ answeredWith p 0xC 0 [] s t ∧ t.mem = s.mem ∧
         ∀ o, (orderOf s o).state ≠ 0 → orderGroup s o ≠ 0 → (groupMembers s (orderGroup s o)).contains p.src = true →
           orderOf t o = { orderOf s o with faultPend := some ((orderOf s o).faultPend.getD (6, 0, 0)) }))

/-- Answers. An answer that names no request of this device changes nothing; otherwise its request is done and its data goes to the bench, engine, invocation
or relay that issued it (R404, R409). BUSY_RETRY makes it wait, twice as long each time up to 1 ms, to be sent again until RETRY_MAX has passed (R420); REFUSED
and UNREACHABLE end it with its issuer's fault (R406, R409, R421); a request that times out is sent once more, if it is a READ or a WRITE to memory, and else
ends (R422). -/
def Obligations.BalisAnswers : Prop :=
  ∀ (s : State) (n time : Nat) (p : Packet), n < 16 → portUp s n = true → ownDevice s ≠ 0 → p.dst = ownDevice s →
    let s1 := bump (blsC n 0x108) (packetBeats p) s
    let now := max s.now time
    let gone := fun (id : Nat) (t : State) => ∀ q, q ∈ t.bal.reqs → q.id ≠ id
    (∀ r, r ∈ answerRows → reqFor s p = none → exec (r.2 n true p) s = .next s1) ∧
    (∀ r (row : Nat → Bool → Packet → Instr) data mask, reqFor s p = some r →
      (row, data, mask) ∈ [(Instr.readData, p.data, p.arg), (Instr.atomicData, p.data, p.arg), (Instr.writeAck, [], 0), (Instr.signalAck, [], 0), (Instr.ctrlAck, [], 0)] →
      ∃ t, exec (row n true p) s = .next t ∧ gone r.id t ∧ countersOnly s t ∧
        t = { s with bal := t.bal, regs := t.regs, benches := t.benches, shops := t.shops, fulStacks := t.fulStacks, tal := t.tal } ∧
        (∀ k acc, r.issuer = .bench k acc → otherBenches k s t ∧ t.shops = s.shops ∧ t.fulStacks = s.fulStacks ∧ t.tal = s.tal ∧
          benchOf t k = { benchOf s k with out := (benchOf s k).out.map (fun a => if a.id = acc then { a with
            arrived := true, data := if a.kind = 2 then data.take 8 else if a.kind = 0 then data.take 32 else a.data, poison := decide (mask ≠ 0) } else a) }) ∧
        (∀ m e, r.issuer = .engine m e → otherShops m s t ∧ t.benches = s.benches ∧ t.fulStacks = s.fulStacks ∧ t.tal = s.tal ∧
          (engOf t m e).runs = (engOf s m e).runs.map (fun x => if x.need.contains r.id then
            { x with need := x.need.filter (fun i => decide (i ≠ r.id)), chunks := if r.pkt.typ = 1 then x.chunks ++ [(r.off, data, mask)] else x.chunks } else x)) ∧
        (∀ m, r.issuer = .invocation m → t.benches = s.benches ∧ t.shops = s.shops ∧ t.tal = s.tal ∧ (∀ k, k ≠ m → fulOf t k = fulOf s k) ∧
          fulOf t m = { fulOf s m with fetch := (fulOf s m).fetch.map (fun x => if x.need.contains r.id then
            { x with need := x.need.filter (fun i => decide (i ≠ r.id)), chunks := x.chunks ++ [(r.off, data, mask)] } else x) }) ∧
        (∀ q, r.issuer = .relay q → t.benches = s.benches ∧ t.shops = s.shops ∧ t.fulStacks = s.fulStacks ∧
          t.tal = { s.tal with sent := s.tal.sent.filter (fun x => decide (x.seq ≠ q)) })) ∧
    (∀ r, reqFor s p = some r →
      let first := max (p.arg % 65536 * 1000) 10000
      let wait := if r.wait = 0 then first else max first (min 1000000 (2 * r.wait))
      ∃ t, exec (.busyRetry n true p time) s = .next t ∧ countersOnly s t ∧ t = { s with now := now, bal := t.bal, regs := t.regs } ∧
        t.regs = (bump (blsC n 0x148) 1 s1).regs ∧ t.bal = { s.bal with reqs := s.bal.reqs.map (fun q => if q.id = r.id then { q with
          wait := wait, due := some (now + wait), busySince := some (q.busySince.getD now) } else q) }) ∧
    (∀ r, reqFor s p = some r → r.id < s.bal.nextId → r.pkt.typ ≠ 9 → ∃ t u, exec (.unreachable n true p) s = .next t ∧ exec (.refused n true p) s = .next u ∧
      gone r.id t ∧ gone r.id u ∧ sameBytes s t ∧ sameBytes s u ∧
      ((portOf s n).err = none → (portOf u n).err = some [r.pkt.typ, 5, p.src, r.pkt.tenant]) ∧
      (∀ o, (orderOf s o).state ≠ 0 → orderGroup s o ≠ 0 → (groupMembers s (orderGroup s o)).contains r.pkt.dst = true → r.issuer = .control →
        orderOf t o = { orderOf s o with faultPend := some ((orderOf s o).faultPend.getD (6, 0, 0)) }) ∧
      (∀ k acc l, r.issuer = .bench k acc → launchOf s k = some l →
        ((shopOf s (k / 256)).benchFault = none → (shopOf u (k / 256)).benchFault = some [5, k % 256, (benchOf s k).pc, l.cmd.ctx]) ∧
        ((shopOf s (k / 256)).fault = none →
          (shopOf t (k / 256)).fault = some [0xA, 0, l.cmd.engine, l.cmd.ctx, srcTempl l.cmd.src, srcTicket l.cmd.src])) ∧
      (∀ m e x, r.issuer = .engine m e → (engOf s m e).runs.find? (fun x => x.need.contains r.id) = some x → (shopOf s m).fault = none →
        (shopOf t m).fault = some [0xA, 0, x.cmd.engine, x.cmd.ctx, srcTempl x.cmd.src, srcTicket x.cmd.src] ∧
        (shopOf u m).fault = some [5, 0, x.cmd.engine, x.cmd.ctx, srcTempl x.cmd.src, srcTicket x.cmd.src])) ∧
    (∀ id, (∀ q, q ∈ s.bal.reqs → q.id ≠ id) →
      exec (.retryResend id time) s = .next { s with now := now } ∧ exec (.requestTimeout id time) s = .next { s with now := now }) ∧
    (∀ id r, s.bal.reqs.find? (fun q => decide (q.id = id)) = some r → id < s.bal.nextId →
      let lasts := max 3 (rfield s (blsD 8) 39 32) * 1000000
      let memory := r.pkt.typ = 1 ∨ (r.pkt.typ = 3 ∧ toAlias r.pkt = false)
      (∀ d b, r.due = some d → r.busySince = some b →
        (now < d → exec (.retryResend id time) s = .next { s with now := now }) ∧
        (d ≤ now → b + max 1 (rfield s (blsD 8) 31 16) * 1000000 ≤ now → ∃ t, exec (.retryResend id time) s = .next t ∧ gone id t ∧ sameBytes s t ∧
          ((portOf s r.pkt.port).err = none → (portOf t r.pkt.port).err = some [r.pkt.typ, 6, r.pkt.dst, r.pkt.tenant])) ∧
        (d ≤ now → now < b + max 1 (rfield s (blsD 8) 31 16) * 1000000 → ∃ t, exec (.retryResend id time) s = .next t ∧ countersOnly s t ∧
          t = { s with now := now, bal := t.bal, regs := t.regs } ∧
          (portUp s r.pkt.port = true → handedTo r.pkt.port r.pkt t ∧
            t.bal.reqs = s.bal.reqs.map (fun q => if q.id = id then { q with due := none, sent := now } else q)))) ∧
      (r.due = none ∨ r.busySince = none → exec (.retryResend id time) s = .next { s with now := now }) ∧
      (r.held = true ∨ r.due.isSome = true ∨ now < r.sent + lasts → exec (.requestTimeout id time) s = .next { s with now := now }) ∧
      (r.held = false → r.due = none → r.sent + lasts ≤ now → memory → r.again = false → ∃ t q, exec (.requestTimeout id time) s = .next t ∧ countersOnly s t ∧
        t = { s with now := now, bal := t.bal, regs := t.regs } ∧ q ∈ t.bal.reqs ∧ q.id = id ∧ q.again = true ∧ (routePort s r.pkt = none → q.held = true)) ∧
      (r.held = false → r.due = none → r.sent + lasts ≤ now → ¬memory ∨ r.again = true → ∃ t, exec (.requestTimeout id time) s = .next t ∧ gone id t ∧ sameBytes s t ∧
        (r.pkt.typ ≠ 9 → (portOf s r.pkt.port).err = none → (portOf t r.pkt.port).err = some [r.pkt.typ, 7, r.pkt.dst, r.pkt.tenant])))

/-- Collectives (R415 to R417). START numbers an instance whose waits hold, takes the COLL_READYs held for it and sends its own to the other members; FOLD
reduces the slots of its staging in ascending order into the result area and from there to DST; COMPLETE ends it once all that it sends has been
acknowledged. -/
def Obligations.Collectives : Prop :=
  ∀ (s : State) (inst : Nat) (c : CollSt), collOf s inst = some c → (∀ q, q ∈ s.bal.reqs → q.id < s.bal.nextId) →
    let me := collMe s c
    let m := collM s c
    let seq := tget 0 s.bal.collSeq (collGroup c * 2 ^ 24 + collNum c)
    let key := collKey { c with started := true, bell := s.bell, seq := seq }
    let keyOf := fun (h : Nat × Nat × Nat × Nat) => h.1 + h.2.1 * 2 ^ 12 + h.2.2.1 * 2 ^ 36
    let members := groupMembers s (collGroup c)
    let targets := if collFolds c then collFolders s c else if collOp c = 3 ∨ me = collRoot c then List.range m else []
    let busy := s.bal.reqs.any (fun r => decide (r.issuer = .collective inst ∧ r.pkt.typ ≠ 9))
    let ends := c.started = true ∧ busy = false ∧ targets.all (fun j => c.sentTo.contains j) = true ∧ ((collFolders s c).contains me = false ∨ c.folded = true)
    let n := (collPart s c me).2
    let bytes := slotElems s c * 4
    let slot := fun (j i : Nat) => leAt (peekDev s c.tenant (collWord c 10 + j * bytes + 4 * i) 4).data 0 4
    let out := fun (i : Nat) => (List.range (m - 1)).foldl (fun a j => reduceElem (bitsOf (collWord c 0) 4 3 + 1) a (slot (j + 1) i)) (slot 0 i) % 2 ^ 32
    let dst := collWord c 9 + if collOp c = 0 then me * collK s c * 4 else 0
    let folds := c.started = true ∧ c.folded = false ∧ (collFolders s c).contains me = true ∧ slotsFull s c = true
    (c.started = true ∨ waitsHold ((c.words.drop 2).take 4) c.waited = false ∨ unitInReset s 1 (collQuarter c) = true → exec (.collectiveStart inst) s = .next s) ∧
    (c.started = false → waitsHold ((c.words.drop 2).take 4) c.waited = true → unitInReset s 1 (collQuarter c) = false →
      ∃ t x, exec (.collectiveStart inst) s = .next t ∧ x ∈ t.bal.colls ∧ x.id = inst ∧ x.started = true ∧ x.bell = s.bell ∧ x.seq = seq ∧
        tget 0 t.bal.collSeq (collGroup c * 2 ^ 24 + collNum c) = seq + 1 ∧ t.book = s.book ∧ t.tal = s.tal ∧
        (∀ h, h ∈ s.bal.heldReady → keyOf h = key → (members.findIdx? (fun d => decide (d = h.2.2.2))).getD 0 ∈ x.ready) ∧
        t.bal.heldReady = s.bal.heldReady.filter (fun h => decide (keyOf h ≠ key)) ∧
        ((collFolders s c).contains me = true → me ∈ x.ready ∧ ∀ d, d ∈ members → d ≠ ownDevice s →
          ∃ q, q ∈ t.bal.reqs ∧ q.pkt.typ = 9 ∧ q.pkt.dst = d ∧ q.pkt.arg = key ∧ q.issuer = .collective inst)) ∧
    (¬folds → exec (.collectiveFold inst) s = .next s) ∧
    (folds → ∃ t x, exec (.collectiveFold inst) s = .next t ∧ x ∈ t.bal.colls ∧ x.id = inst ∧ x.folded = true ∧ t.book = s.book ∧ t.tal = s.tal) ∧
    (∀ w v, folds → 0 < n → members[me]? = some (ownDevice s) → (∀ j, j < m → sectorMask s c.tenant (collWord c 10 + j * bytes) (4 * n) = 0) →
      (∀ i, i < 4 * n → homeKey (resolve s c.tenant (collWord c 10 + m * bytes + i)) = some (w + i) ∧ homeKey (resolve s c.tenant (dst + i)) = some (v + i) ∧
        keyPoison s (w + i) = 0 ∧ keyPoison s (v + i) = 0) →
      v + 4 * n ≤ w ∨ w + 4 * n ≤ v → ∃ t, exec (.collectiveFold inst) s = .next t ∧
        (∀ i, i < n → keyWord t (w + 4 * i) 4 = out i ∧ keyWord t (v + 4 * i) 4 = out i) ∧
        (∀ k, ¬(w ≤ k ∧ k < w + 4 * n) → ¬(v ≤ k ∧ k < v + 4 * n) → keyByte t k = keyByte s k)) ∧
    (¬ends → exec (.collectiveComplete inst) s = .next s) ∧
    (ends → ∃ t, exec (.collectiveComplete inst) s = .next t ∧ (∀ x, x ∈ t.bal.colls → x.id ≠ inst) ∧ (∀ q, q ∈ t.bal.reqs → q.issuer ≠ .collective inst) ∧
      (∀ w, w ∈ t.tal.waits → w.who ≠ .collective inst) ∧ t.sched.cands = s.sched.cands.filter (fun k => decide (k.id ≠ c.cand)) ∧ sameBytes s t ∧ t.book = s.book ∧
      (∀ j, tget none s.tal.relays j ≠ none → tallyOf t j = tallyOf s j))

/-! ### The host port -/

/-- Models, grammars and mappings (R278, R279, R282, R440, R441). The first check that fails answers the command and changes nothing else; an accepted load
takes its memory and a handle and waits for its copies, whose end makes the model usable and completes the command; an unload waits for the next boundary. MAP
gives translations to cleared warehouse pages or to frames, or answers that there are none; UNMAP takes back exactly one MAP. -/
def Obligations.HostModels : Prop :=
  ∀ (s : State) (ring tag : Nat),
    let done := fun (op st a d i : Nat) => completion ring op st tag a d i s
    let jobId := s.sched.nextId + 1
    (∀ image len img,
      let code := (readImage (issuer ring) image len s).1
      let u := readFx (issuer ring) image len s
      let done := fun (op st a d i : Nat) => completion ring op st tag a d i u
      (len = 0 ∨ code = 1 → exec (.modelLoad ring tag image len img) s = .next (done 0x10 1 0 0 0)) ∧
      (len ≠ 0 → code = 3 → exec (.modelLoad ring tag image len img) s = .next (done 0x10 6 0 8 0)) ∧
      (∀ d i, len ≠ 0 → code = 0 → imageFail u img = some (d, i) → exec (.modelLoad ring tag image len img) s = .next (done 0x10 6 0 d i)) ∧
      (len ≠ 0 → code = 0 → imageFail u img = none → memAllows u ring (((stackParts u img).map (fun p => p.2.2)).sum + (whParts u img).length) = false →
        exec (.modelLoad ring tag image len img) s = .next (done 0x10 4 0 0 0)) ∧
      (∀ h x y, len ≠ 0 → code = 0 → imageFail u img = none →
        memAllows u ring (((stackParts u img).map (fun p => p.2.2)).sum + (whParts u img).length) = true → freeHandle u = some h →
        placeParts h (issuer ring) img u = some x → placePages h ring img x.1 = some y →
        ∃ t m, exec (.modelLoad ring tag image len img) s = .next t ∧ t.host = u.host ∧ modelOf t h = some m ∧ m.tenant = ring ∧ m.loading = true ∧
          m.granules = x.2.1 ∧ m.whPages = y.2 ∧ (∀ k, k ≠ h → modelOf t k = modelOf u k) ∧ jobCands t jobId ≠ [] ∧
          t.jobs.jobs = u.jobs.jobs ++ [{ mkJob 0x10 ring tag h 0 u with id := jobId, img := some img }])) ∧
    (∀ e, jobOf s 0x10 ring tag = none → exec (.modelLoadDone ring tag e) s = .next s) ∧
    (∀ j img m, jobOf s 0x10 ring tag = some j → j.img = some img → modelOf s j.a = some m →
      (∃ t, exec (.modelLoadDone ring tag true) s = .next t ∧ modelOf t j.a = none ∧ ∀ x, x ∈ t.jobs.jobs → x.id ≠ j.id) ∧
      (jobCands s j.id ≠ [] → exec (.modelLoadDone ring tag false) s = .next s) ∧
      (jobCands s j.id = [] → ∃ t, exec (.modelLoadDone ring tag false) s = .next t ∧ t.host = (done 0x10 0 j.a 0 0).host ∧
        modelOf t j.a = some { m with loading := false } ∧ t.jobs.jobs = s.jobs.jobs.filter (fun x => decide (x.id ≠ j.id)) ∧
        ((img.relays.map Prod.fst).Nodup → ∀ r, r ∈ img.relays → tget none t.tal.relays r.1 = some r.2) ∧
        ((img.routines.map (fun r => r.slot)).Nodup → ∀ r n, r ∈ img.routines → n < 12 → stackPresent s n = true →
          tget none (fulOf t n).slots r.slot = some (some m.tenant, r.code)))) ∧
    (∀ h, modelOf s h = none → exec (.modelUnload ring tag h) s = .next (done 0x11 1 0 0 0)) ∧
    (∀ h m, modelOf s h = some m →
      (m.tenant ≠ ring → exec (.modelUnload ring tag h) s = .next (done 0x11 3 0 0 0)) ∧
      (m.tenant = ring → m.loading = true ∨ m.unloading = true → exec (.modelUnload ring tag h) s = .next (done 0x11 1 0 0 0)) ∧
      (m.tenant = ring → m.loading = false → m.unloading = false → modelBusy s h = true → exec (.modelUnload ring tag h) s = .next (done 0x11 7 0 0 0)) ∧
      (m.tenant = ring → m.loading = false → m.unloading = false → modelBusy s h = false → ∃ t, exec (.modelUnload ring tag h) s = .next t ∧ t.host = s.host ∧
        modelOf t h = some { m with unloading := true } ∧ t.jobs.jobs = s.jobs.jobs ++ [{ mkJob 0x11 ring tag h 0 s with id := jobId }] ∧
        t.mem.bytes = s.mem.bytes ∧ (ring < 4096 → ∀ x, x ∈ tget [] t.mem.xlat ring ↔ x ∈ tget [] s.mem.xlat ring ∧ x.model ≠ some h))) ∧
    (∀ image len g, ring ≠ opRing → exec (.grammarLoad opRing tag image len) s = .next (completion opRing 0x12 3 tag 0 0 0 s) ∧
      exec (.grammarUnload opRing tag g) s = .next (completion opRing 0x13 3 tag 0 0 0 s)) ∧
    (∀ image len l, ring ≠ opRing → readImage (issuer ring) image len s = (0, l) →
      let u := readFx (issuer ring) image len s
      let done := fun (op st a d i : Nat) => completion ring op st tag a d i u
      (parseGrammar len l = none → exec (.grammarLoad ring tag image len) s = .next (done 0x12 6 0 0 0)) ∧
      (∀ g i ks, parseGrammar len l = some g → (List.range (min 1024 (u.grammars.length + 1))).find? (fun i => (grammarOf u i).isNone) = some i →
        bulkFrames u (cdiv len 65536) = some ks → (u.grammars.map (fun p => (p.2.map (fun x => x.bytes)).getD 0)).sum + len ≤ 2 ^ 32 →
        ∃ t r, exec (.grammarLoad ring tag image len) s = .next t ∧ t.host = (done 0x12 0 i 0 0).host ∧ grammarOf t i = some r ∧
          r = { g with tenant := ring, frames := r.frames } ∧ r.frames.length = ks.length ∧ ∀ k, k ≠ i → grammarOf t k = grammarOf u k)) ∧
    (∀ g, ring ≠ opRing → grammarOf s g = none → exec (.grammarUnload ring tag g) s = .next (done 0x13 1 0 0 0)) ∧
    (∀ g x, ring ≠ opRing → grammarOf s g = some x →
      (x.tenant ≠ ring → exec (.grammarUnload ring tag g) s = .next (done 0x13 3 0 0 0)) ∧
      (x.tenant = ring → x.unloaded = true → exec (.grammarUnload ring tag g) s = .next (done 0x13 1 0 0 0)) ∧
      (x.tenant = ring → x.unloaded = false → ∃ t, exec (.grammarUnload ring tag g) s = .next t ∧ t.host = (done 0x13 0 0 0 0).host ∧
        grammarOf t g = some { x with unloaded := true, state := if x.state = 2 then 3 else x.state } ∧ (∀ k, k ≠ g → grammarOf t k = grammarOf s k) ∧
        countersOnly s t ∧ t = { s with grammars := t.grammars, host := t.host, regs := t.regs })) ∧
    (∀ addr size page wh quarter, ring ≠ opRing →
      let pg := if page = 0 then 65536 else if page = 1 then 2097152 else 1073741824
      let region := if wh then 0x010000000000 ≤ addr ∧ addr + size ≤ 0x010010000000 ∧ whPageOf addr / 1024 = quarter ∧ whPageOf (addr + size - 1) / 1024 = quarter
        else addr + size ≤ 0x00C000000000
      let ok := page < 3 ∧ (wh = true → page = 0) ∧ size ≠ 0 ∧ size % pg = 0 ∧ addr % pg = 0 ∧ region ∧ xlateMeets s ring addr size = false
      (¬ok → exec (.map ring tag addr size page wh quarter) s = .next (done 0x18 1 0 0 0)) ∧
      (ok → memAllows s ring (size / 65536) = false → exec (.map ring tag addr size page wh quarter) s = .next (done 0x18 4 0 0 0)) ∧
      (ok → memAllows s ring (size / 65536) = true → wh = true → (whFree s quarter).length < size / 65536 →
        exec (.map ring tag addr size page wh quarter) s = .next (done 0x18 5 0 0 0)) ∧
      (ok → memAllows s ring (size / 65536) = true → wh = true → size / 65536 ≤ (whFree s quarter).length →
        ∃ t, exec (.map ring tag addr size page wh quarter) s = .next t ∧ t.host = (done 0x18 0 0 0 0).host ∧
          t.jobs.maps = s.jobs.maps ++ [⟨ring, addr, size, wh⟩] ∧
          ∀ i, i < size / 65536 → ∃ p, (whFree s quarter)[i]? = some p ∧ ⟨addr + 65536 * i, 65536, whAddr p, 65536, none⟩ ∈ tget [] t.mem.xlat ring ∧
            tget 0 t.mem.whPages p = ring + 1 ∧ ∀ b, b < 65536 → keyByte t (whAddr p + b) = 0) ∧
      (ok → memAllows s ring (size / 65536) = true → wh = false → exec (.map ring tag addr size page wh quarter) s = .next (done 0x18 5 0 0 0) ∨
        ∃ t, exec (.map ring tag addr size page wh quarter) s = .next t ∧ t.host = (done 0x18 0 0 0 0).host ∧
          t.jobs.maps = s.jobs.maps ++ [⟨ring, addr, size, wh⟩] ∧
          ∀ i, i < size / pg → ∃ g, ⟨addr + pg * i, pg, g * 65536, pg, none⟩ ∈ tget [] t.mem.xlat ring)) ∧
    (∀ addr size, ring ≠ opRing →
      let mine := fun (m : MapRec) => m.tenant = ring ∧ m.va = addr ∧ m.size = size
      ((∀ m, m ∈ s.jobs.maps → ¬mine m) → exec (.unmap ring tag addr size) s = .next (done 0x19 1 0 0 0)) ∧
      (∀ m, m ∈ s.jobs.maps → mine m → ∃ t, exec (.unmap ring tag addr size) s = .next t ∧ t.host = s.host ∧ t.mem.bytes = s.mem.bytes ∧
        (∀ x, x ∈ t.jobs.maps ↔ x ∈ s.jobs.maps ∧ ¬mine x) ∧
        (∀ x, x ∈ tget [] t.mem.xlat ring ↔ x ∈ tget [] s.mem.xlat ring ∧ ¬(x.model = none ∧ addr ≤ x.va ∧ x.va < addr + size)) ∧
        t.jobs.jobs = s.jobs.jobs ++ [{ mkJob 0x19 ring tag addr 0 s with id := jobId, len := size }]))

/-- Work and administration (R440, R442, R443). COPY, RUN and CANCEL answer the first check that fails, or start or cancel their work; COPY_DONE moves the bytes
and RUN_COMPLETE answers once nothing of the run is left; SIGNAL signals its tally. TENANT_ENABLE and TENANT_DISABLE give and take away a tenant's place; BENCH_FW
and FULLER_LIB hand a checked image to their units. -/
def Obligations.HostWork : Prop :=
  ∀ (s : State) (ring tag : Nat),
    let ten := issuer ring
    let done := fun (op st a d i : Nat) => completion ring op st tag a d i s
    let op := fun (op st : Nat) => completion opRing op st tag 0 0 0 s
    let jobId := s.sched.nextId + 1
    (∀ lc src dst len k i sig,
      let ok := len ≠ 0 ∧ len < 2 ^ 32 ∧ ¬(src < dst + len ∧ dst < src + len) ∧ copyRange s ten src len = true ∧ copyRange s ten dst len = true
      (¬ok → exec (.copy ring tag lc src dst len k i sig) s = .next (done 0x1A 1 0 0 0)) ∧
      (ok → lcAllowed s ring lc = false → exec (.copy ring tag lc src dst len k i sig) s = .next (done 0x1A 0xB 0 0 0)) ∧
      (ok → lcAllowed s ring lc = true → sig = true → tallyAllowed s ten k = false → exec (.copy ring tag lc src dst len k i sig) s = .next (done 0x1A 0xE 0 0 0)) ∧
      (ok → lcAllowed s ring lc = true → (sig = true → tallyAllowed s ten k = true) → ∃ t, exec (.copy ring tag lc src dst len k i sig) s = .next t ∧
        t = { s with jobs := t.jobs, sched := t.sched } ∧ jobCands t jobId ≠ [] ∧
        t.jobs.jobs = s.jobs.jobs ++ [{ mkJob 0x1A ring tag src dst s with id := jobId, len := len, tally := if sig then some (k, i) else none }])) ∧
    (jobOf s 0x1A ring tag = none → exec (.copyDone ring tag) s = .next s) ∧
    (∀ j, jobOf s 0x1A ring tag = some j →
      (jobCands s j.id ≠ [] → exec (.copyDone ring tag) s = .next s) ∧
      (∀ h, jobCands s j.id = [] → 0 < j.len → resolve s ten j.a = .host h → hostRead s h 1 = none → ∃ t, exec (.copyDone ring tag) s = .next t ∧
        t.host = (done 0x1A 8 0 0 0).host ∧ sameBytes s t ∧ t.tal = s.tal ∧ t.jobs.jobs = s.jobs.jobs.filter (fun x => decide (x.id ≠ j.id))) ∧
      (∀ w v, jobCands s j.id = [] → v + j.len ≤ w ∨ w + j.len ≤ v →
        (∀ i, i < j.len → homeKey (resolve s ten (j.a + i)) = some (w + i) ∧ homeKey (resolve s ten (j.b + i)) = some (v + i) ∧ keyPoison s (w + i) = 0 ∧
          (v + i < 0xC000000000 → (frameOf s ((v + i) / 65536)).lost = false)) →
        ∃ t, exec (.copyDone ring tag) s = .next t ∧ t.host = (done 0x1A 0 j.len 0 0).host ∧
          (∀ k, keyByte t k = if v ≤ k ∧ k < v + j.len then keyByte s (w + (k - v)) else keyByte s k) ∧
          t.jobs.jobs = s.jobs.jobs.filter (fun x => decide (x.id ≠ j.id)) ∧ (j.tally = none → t.tal = s.tal) ∧
          (∀ k i, j.tally = some (k, i) → tget none s.tal.relays k = none → signalled k i s t))) ∧
    (∀ cpl k i, (tallyAllowed s ten k = false → exec (.signal ring tag cpl k i) s = .next (done 0x1B 0xE 0 0 0)) ∧
      (tallyAllowed s ten k = true → tget none s.tal.relays k = none → ∃ t, exec (.signal ring tag cpl k i) s = .next t ∧ signalled k i s t ∧
        countersOnly s t ∧ t = { s with tal := t.tal, host := t.host, regs := t.regs } ∧ t.host = if cpl then (done 0x1B 0 0 0 0).host else s.host)) ∧
    (∀ lc h prog args, (modelOf s h = none → exec (.run ring tag lc h prog args) s = .next (done 0x20 1 0 0 0)) ∧
      (∀ m, modelOf s h = some m → (m.tenant ≠ ring → exec (.run ring tag lc h prog args) s = .next (done 0x20 3 0 0 0)) ∧
        (m.tenant = ring → m.loading = true ∨ m.unloading = true ∨ m.entries[prog]? = none → exec (.run ring tag lc h prog args) s = .next (done 0x20 1 0 0 0)) ∧
        (∀ ws, m.tenant = ring → m.loading = false → m.unloading = false → m.entries[prog]? = some ws →
          let runs := (s.jobs.jobs.filter (fun j => decide (j.op = 0x20 ∧ j.ring = ring))).length
          (lcAllowed s ring lc = false → exec (.run ring tag lc h prog args) s = .next (done 0x20 0xB 0 0 0)) ∧
          (lcAllowed s ring lc = true → ring < 4096 → 1024 ≤ runs → exec (.run ring tag lc h prog args) s = .next (done 0x20 4 0 0 0)) ∧
          (lcAllowed s ring lc = true → 4096 ≤ ring ∨ runs < 1024 → ∃ t, exec (.run ring tag lc h prog args) s = .next t ∧
            t = { s with jobs := t.jobs, sched := t.sched } ∧ t.jobs.jobs = s.jobs.jobs ++ [{ mkJob 0x20 ring tag h prog s with id := jobId, args := args }] ∧
            t.sched.cands.length = s.sched.cands.length + ws.length ∧ t.sched.cands.take s.sched.cands.length = s.sched.cands ∧
            ∀ c, c ∈ t.sched.cands.drop s.sched.cands.length → c.job = jobId)))) ∧
    (∀ cpl rt, let found := s.jobs.jobs.find? (fun j => decide (j.op = 0x20 ∧ j.ring = ring ∧ j.tag = rt) && !j.cancelled)
      (found = none → exec (.cancel ring tag cpl rt) s = .next (done 0x21 1 0 0 0)) ∧
      (∀ j, found = some j → ∃ t, exec (.cancel ring tag cpl rt) s = .next t ∧
        t.jobs.jobs = s.jobs.jobs.map (fun x => if x.id = j.id then { x with cancelled := true } else x) ∧
        (∀ c, c ∈ t.sched.cands → c.job = j.id → ∃ r, r ∈ t.sched.running ∧ r.cand = c.id) ∧
        (j.ctx = none → t.host = if cpl then (done 0x21 0 0 0 0).host else s.host))) ∧
    (jobOf s 0x20 ring tag = none → exec (.runComplete ring tag) s = .next s) ∧
    (∀ j, jobOf s 0x20 ring tag = some j →
      (jobCands s j.id ≠ [] → exec (.runComplete ring tag) s = .next s) ∧
      (∀ c, j.ctx = some c → ctxBusy s c = true ∨ (∃ e, e ∈ s.sched.ending ∧ e.1 = c) → exec (.runComplete ring tag) s = .next s) ∧
      (j.ctx = none → jobCands s j.id = [] → ∃ t, exec (.runComplete ring tag) s = .next t ∧ t.host = (done 0x20 (if j.cancelled then 0xA else 0) 0 0 0).host ∧
        t.jobs.jobs = s.jobs.jobs.filter (fun x => decide (x.id ≠ j.id)) ∧ sameBytes s t ∧ t.sched = s.sched) ∧
      (∀ c, j.ctx = some c → ctxBusy s c = false → (∀ e, e ∈ s.sched.ending → e.1 ≠ c) → jobCands s j.id = [] →
        let f := (ctxOf s c).bind (fun x => x.fault)
        ∃ t, exec (.runComplete ring tag) s = .next t ∧ t.jobs.jobs = s.jobs.jobs.filter (fun x => decide (x.id ≠ j.id)) ∧ tget none t.sched.ctxs c = none ∧
          t.host = (if j.cancelled then (done 0x20 0xA c 0 0).host else match f with | some x => (done 0x20 9 c x.1 x.2).host | none => (done 0x20 0 c 0 0).host))) ∧
    (∀ x, ring ≠ opRing → exec (.tenantEnable ring tag x) s = .next (done 0x30 3 0 0 0) ∧ exec (.tenantDisable ring tag x) s = .next (done 0x31 3 0 0 0)) ∧
    (∀ x, let can := x < 4096 ∧ s.host.vfEnable = true ∧ s.host.numVfs > x ∧ tenantOff s x = true ∧ setOk (ringOf s x) = true
      (¬can → exec (.tenantEnable opRing tag x) s = .next (op 0x30 1)) ∧
      (can → ∃ t, exec (.tenantEnable opRing tag x) s = .next t ∧ x ∈ t.book.enabled ∧ x ∈ t.book.keys ∧ (∀ y, y ≠ x → (y ∈ t.book.enabled ↔ y ∈ s.book.enabled)) ∧
        (ringOf t x).started = true ∧ (ringOf t x).fresh = true ∧ t.mem = s.mem ∧
        ∀ k, (tget (0, 0) s.tal.range x).1 ≤ k → k < (tget (0, 0) s.tal.range x).1 + (tget (0, 0) s.tal.range x).2 → tallyOf t k = ⟨0, false⟩) ∧
      (4096 ≤ x → exec (.tenantDisable opRing tag x) s = .next (op 0x31 1)) ∧
      (x < 4096 → ∃ t, exec (.tenantDisable opRing tag x) s = .next t ∧ x ∉ t.book.enabled ∧ (∀ y, y ≠ x → (y ∈ t.book.enabled ↔ y ∈ s.book.enabled)) ∧
        (ringOf t x).started = false ∧ (∀ m, m ∈ t.jobs.maps → m.tenant ≠ x) ∧ (∀ e, e ∈ t.host.waiting → e.ring ≠ x) ∧ tget [] t.mem.xlat x = [] ∧
        ∃ j, j ∈ t.jobs.jobs ∧ j.op = 0x31 ∧ j.tag = tag ∧ j.a = x ∧ j.b = 0)) ∧
    (∀ image n ok, n ≠ 0x1FF → shopPresent s n = false → exec (.benchFw opRing tag image n ok) s = .next (op 0x32 1)) ∧
    (∀ image n h l, shopPresent s n = true → readImage none image 32 s = (0, h) → readImage none (image + 32) (4 * leAt h 8 2) s = (0, l) →
      let u := readFx none (image + 32) (4 * leAt h 8 2) (readFx none image 32 s)
      let op := fun (op st : Nat) => completion opRing op st tag 0 0 0 u
      (exec (.benchFw opRing tag image n false) s = .next (op 0x32 0xC)) ∧
      (benchHdrOk 1 1024 h = false ∨ (crc32 l).toNat ≠ leAt h 12 4 → exec (.benchFw opRing tag image n true) s = .next (op 0x32 6)) ∧
      (benchHdrOk 1 1024 h = true → (crc32 l).toNat = leAt h 12 4 → ∃ t, exec (.benchFw opRing tag image n true) s = .next t ∧ otherShops n s t ∧
        shopOf t n = { shopOf s n with fwPending := some (leAt h 6 2, leAt h 12 4, imageWords l (leAt h 8 2)) } ∧
        t = { u with shops := t.shops, host := { u.host with fwWaits := u.host.fwWaits ++ [⟨false, tag, [n], 0⟩] } })) ∧
    (∀ image n ok v c lib, n ≠ 0xF → stackPresent s n = false → exec (.fullerLib opRing tag image n ok v c lib) s = .next (op 0x33 1)) ∧
    (∀ image n v c lib, stackPresent s n = true → (readImage none image (32 + 8 * ((lib.map (fun r => r.code.length)).foldl max 0)) s).1 = 0 →
      let u := readFx none image (32 + 8 * ((lib.map (fun r => r.code.length)).foldl max 0)) s
      let op := fun (op st : Nat) => completion opRing op st tag 0 0 0 u
      exec (.fullerLib opRing tag image n false v c lib) s = .next (op 0x33 0xC) ∧
      (lib.all (fun r => routineOk r && r.typ == 1) = false → exec (.fullerLib opRing tag image n true v c lib) s = .next (op 0x33 6)) ∧
      (lib.all (fun r => routineOk r && r.typ == 1) = true → ∃ t, exec (.fullerLib opRing tag image n true v c lib) s = .next t ∧
        (∀ m, m ≠ n → fulOf t m = fulOf s m) ∧ fulOf t n = { fulOf s n with libPending := some (v, c, lib) } ∧
        t = { u with fulStacks := t.fulStacks, host := { u.host with fwWaits := u.host.fwWaits ++ [⟨true, tag, [n], 0⟩] } }))

/-- The endpoint and the far ports. HQ_DB_BASE starts and stops the operator's set and keeps its base while EN is 1 (R457); a PF FLR, PERST# and changes of
the VFs disable tenants and put the host block back (R427, R428); the link's width and speed are reported when they are low (R426). A far port is enumerated,
becomes ready, goes down with what it held, and reports its device's events (R453, R455, R575). -/
def Obligations.HostLink : Prop :=
  ∀ (s : State),
    (∀ value, value < 2 ^ 64 →
      let old := rget s 0x200000
      let en := bitOf value 0
      ∃ t, exec (.hqDbBase value) s = .next t ∧ t = { s with host := { s.host with rings := t.host.rings }, regs := { s.regs with vals := t.regs.vals } } ∧
        (bitOf old 0 = true → rget t 0x200000 = old / 4096 * 4096 + b2n en ∧
          rget t 0x2000F0 = (if value / 4096 ≠ old / 4096 then min 0xFFFFFFFF (rget s 0x2000F0 + 1) else rget s 0x2000F0) ∧
          (en = true → t.host = s.host) ∧ (en = false → (ringOf t opRing).started = false ∧ (ringOf t opRing).store = [])) ∧
        (bitOf old 0 = false → rget t 0x200000 = value / 4096 * 4096 + b2n en ∧ (en = false ∨ setOk (ringOf s opRing) = false → t.host = s.host) ∧
          (en = true → setOk (ringOf s opRing) = true → (ringOf t opRing).started = true ∧ (ringOf t opRing).fresh = true)) ∧
        (∀ k, k ≠ opRing → ringOf t k = ringOf s k) ∧ (∀ k, k ≠ 0x200000 → k ≠ 0x2000F0 → tget none t.regs.vals k = tget none s.regs.vals k)) ∧
    (∃ t u, exec .pfFlr s = .next t ∧ exec .perstAssert s = .next u ∧ t.host.rings = [] ∧ t.host.vfEnable = false ∧ t.host.numVfs = 0 ∧ t.host.waiting = [] ∧
      t.book.enabled = [] ∧ (∀ k, 0x200000 ≤ k % 2 ^ 32 → k % 2 ^ 32 < 0x300000 → tget none t.regs.vals k = none ∧ tget none t.regs.old k = none) ∧
      (∀ j, j ∈ t.jobs.jobs → j.op = 0x20 → j.ring = opRing → j.cancelled = true) ∧ 
      ((∀ y, y ∈ s.book.enabled → y < 4096) → (∀ j, j ∈ s.jobs.jobs → j.id ≤ s.sched.nextId) →
        ∀ y, y ∈ s.book.enabled → ∃ j, j ∈ t.jobs.jobs ∧ j.op = 0x31 ∧ j.a = y ∧ j.b = 2) ∧
      (s.sys.role.state = 2 → s.sys.role.channel = 0 → t.sys.role.state ≠ 2) ∧
      u = { t with host := { t.host with perst := true, linkUp := false, width := 0, speed := 0 } }) ∧
    (∀ time, exec (.perstRelease time) s = .next { s with now := max s.now time, host := { s.host with perst := false, perstRelease := max s.now time } }) ∧
    (∀ vf, (vf = 0 ∨ (vf - 1) ∉ s.book.enabled → exec (.vfFlr vf) s = .next s) ∧
      (1 ≤ vf → (vf - 1) ∈ s.book.enabled → ∃ t, exec (.vfFlr vf) s = .next t ∧ (∀ x, x ∈ t.book.enabled ↔ x ∈ s.book.enabled ∧ x ≠ vf - 1) ∧
        (ringOf t (vf - 1)).started = false ∧ ∃ j, j ∈ t.jobs.jobs ∧ j.op = 0x31 ∧ j.a = vf - 1 ∧ j.b = 1)) ∧
    (∀ en n, ∃ t, exec (.vfEnableClear en n) s = .next t ∧ t.host.vfEnable = en ∧ t.host.numVfs = min n 4096 ∧
      (∀ x, x ∈ t.book.enabled ↔ x ∈ s.book.enabled ∧ en = true ∧ x < n) ∧ ∀ x, x ∈ s.book.enabled → x ∉ t.book.enabled → (ringOf t x).started = false) ∧
    (∀ w v, (s.host.perst = true → exec (.linkDegraded w v) s = .next s) ∧ (s.host.perst = false → ∃ t, exec (.linkDegraded w v) s = .next t ∧ countersOnly s t ∧
      t = { s with host := t.host, regs := t.regs } ∧ t.host.linkUp = true ∧ t.host.width = w ∧ t.host.speed = v ∧
      (16 ≤ w → 6 ≤ v → t.host = { s.host with linkUp := true, width := w, speed := v }) ∧
      (w < 16 ∨ v < 6 → t.host = (emitOp 0xB 6 0 [w, gts v] { s with host := { s.host with linkUp := true, width := w, speed := v } }).host))) ∧
    (∀ p, p < 4 →
      let f := farPort s p
      let en := inForce s (0x1200000 + 8 * p) % 2 = 1
      let others := fun (t : State) => ∀ q, q ≠ p → farPort t q = farPort s q
      let portOnly := fun (t : State) => others t ∧ t = { s with book := { s.book with far := t.book.far } }
      (∀ ok w v c, (¬en → ∃ t, exec (.farEnumerate p ok w v c) s = .next t ∧ portOnly t ∧ farPort t p = { f with state := 0 }) ∧
        (en → f.present = false → ∃ t, exec (.farEnumerate p ok w v c) s = .next t ∧ portOnly t ∧ farPort t p = { f with state := 1 }) ∧
        (en → f.present = true → ok = true → ∃ t, exec (.farEnumerate p ok w v c) s = .next t ∧ portOnly t ∧
          farPort t p = { f with state := 2, width := w, speed := v, capacity := min c 67108864 }) ∧
        (en → f.present = true → ok = false → ∃ t, exec (.farEnumerate p ok w v c) s = .next t ∧ others t ∧ rasLogged 0x11 (unitWord 7 p 0) s t ∧ sameBytes s t ∧
          farPort t p = { f with state := 5, width := w, speed := v })) ∧
      (f.state ≠ 2 → exec (.farMediaReady p) s = .next s) ∧
      (f.state = 2 → ∃ t, exec (.farMediaReady p) s = .next t ∧ portOnly t ∧ farPort t p = { f with state := 3 }) ∧
      (∀ cause, f.state ≠ 3 → exec (.farPortDown p cause) s = .next s) ∧
      (∀ cause, f.state = 3 → tsorted s.book.orders = true → ∃ t, exec (.farPortDown p cause) s = .next t ∧ others t ∧ farPort t p = { f with state := 4 } ∧
        rasLogged 0x11 (unitWord 7 p 0) s t ∧ sameBytes s t ∧ ∀ o,
          let r := orderOf s o
          let hit := fun (us : List (Nat × Nat)) => us.any (fun u => decide (u.1 = p))
          let image := (r.state = 6 ∨ r.state = 7) ∧ hit ((r.image.map (fun i => i.units)).getD []) = true
          let copy := r.state = 5 ∧ hit ((r.copy.map (fun c => c.units)).getD []) = true
          (image → orderOf t o = { r with faultPend := some (r.faultPend.getD (5, 0, 0)) }) ∧
          (copy → orderOf t o = { r with copy := r.copy.map (fun c => { c with failed := 1 }) }) ∧ (¬image → ¬copy → orderOf t o = r)) ∧
      (∀ types, (types = [] ∨ (f.state ≠ 2 ∧ f.state ≠ 3) → exec (.farDeviceEvent p types) s = .next s) ∧
        (types ≠ [] → f.state = 2 ∨ f.state = 3 → ∃ t, exec (.farDeviceEvent p types) s = .next t ∧ rasLogged 0x11 (unitWord 7 p 0) s t ∧ t.book = s.book ∧
          t.mem = s.mem)) ∧
      (∀ high, ∃ t, exec (.farPrsntN p high) s = .next t ∧ others t ∧ sameBytes s t ∧
        (farPort t p).present = !high ∧ (high = false → portOnly t ∧ (farPort t p).state = f.state) ∧
        (high = true → (farPort t p).state = if en ∧ f.state ≠ 6 then 1 else if f.state = 3 then 4 else f.state)))

/-! ### Errors and repair -/

/-- Scrubs and repair. GO asks for a scrub of a good range, which ABORT or the end of every part ends with its summary; a read of the next sector counts what
it finds and poisons an uncorrectable one (R468 to R472). A finished column copy and a stockroom or warehouse row with spare rows are repaired; far units are
retired on request (R473, R476, R477). A failed shop moves to a spare or is absent, a lost die takes its frames and fullers, a lane moves to a spare lane (R479
to R481). Uncorrectable words of host management end what they hold, a failed steward restarts or is absent (R465, R520). The log shows the selected record
(R493). -/
def Obligations.ErrorsAndRepair : Prop :=
  ∀ (s : State),
    let x := s.ras.scrub
    let start := rfield s 0x1400008 23 0
    let count := rfield s 0x1400010 24 0
    let good := x.busy = false ∧ x.requested = false ∧ count ≠ 0 ∧ start + count ≤ 12582912
    (good → exec .scrubGo s = .next { s with ras := { s.ras with scrub := { x with requested := true, start := start, count := count, endCode := 0 } } }) ∧
    (¬good → ∃ t, exec .scrubGo s = .next t ∧ t = { s with regs := { s.regs with vals := t.regs.vals } } ∧
      rget t 0x14000F0 = min 0xFFFFFFFF (rget s 0x14000F0 + 1) ∧ ∀ k, k ≠ 0x14000F0 → tget none t.regs.vals k = tget none s.regs.vals k) ∧
    (x.busy = false → x.requested = false → exec .scrubAbort s = .next s) ∧
    (x.busy = true ∨ x.requested = true → ∃ t, exec .scrubAbort s = .next t ∧ t.ras.scrub.busy = false ∧ t.ras.scrub.requested = false ∧ t.ras.scrub.endCode = 2 ∧
      (x.busy = true → t.ras.scrub.sums = scrubSums x 2 (nowMs s)) ∧ sameBytes s t ∧ t.book = s.book) ∧
    (∀ stack sym bit, x.busy = false ∨ scrubNext s stack = none → exec (.scrubRead stack sym bit) s = .next s) ∧
    (∀ stack sym bit g sec e, x.busy = true → scrubNext s stack = some (g, sec, e) →
      let fk := stack * 2 ^ 20 + e.frame
      let sk := fk * 1024 + sec
      let invalid := frameState (frameOf s fk) = true ∧ tget 0 s.mem.sector sk = 0
      ∃ t, exec (.scrubRead stack sym bit) s = .next t ∧ sameBytes s t ∧ t.ras.scrub.busy = true ∧ tget 0 t.ras.scrub.cursor stack = g * 1024 + sec + 2 ∧
        (invalid → t.ras.scrub.invalid = x.invalid + 1 ∧ t.ras.scrub.read = x.read) ∧ (¬invalid → t.ras.scrub.read = x.read + 1) ∧
        (¬invalid → sectorPoison s sk = 1 → t.ras.scrub.unwritten = x.unwritten + 1) ∧ (¬invalid → sectorPoison s sk = 2 → t.ras.scrub.ue = x.ue + 1) ∧
        (¬invalid → sectorPoison s sk = 0 → sym = 1 → t.ras.scrub.corrected = x.corrected + 1) ∧
        (¬invalid → sectorPoison s sk = 0 → 2 ≤ sym → t.ras.scrub.ue = x.ue + 1 ∧ tget 0 t.mem.sector sk = 2 ∧ rasLogged 2 (unitWord 4 stack 0) s t)) ∧
    ((∃ n, n < 12 ∧ scrubNext s n ≠ none) ∨ x.busy = false → exec .scrubDone s = .next s) ∧
    (x.busy = true → (∀ n, n < 12 → scrubNext s n = none) → ∃ t, exec .scrubDone s = .next t ∧ t.ras.scrub.busy = false ∧ t.ras.scrub.endCode = 1 ∧
      t.ras.scrub.sums = scrubSums x 1 (nowMs s) ∧ sameBytes s t ∧ ∃ r, r ∈ t.ras.log ∧ r.typ = 0x16) ∧
    (∀ stack die bank col, exec (.columnRepairDone stack die bank col) s = .next { s with ras := { s.ras with repairs := s.ras.repairs.map (fun r =>
      if r.bank = stack * 1024 + die * 64 + bank ∧ r.column = true ∧ r.index = col then { r with copied := true } else r) } }) ∧
    (∀ wh bank addr ue,
      let inside := if wh then 0x010000000000 ≤ addr ∧ addr < 0x010010000000 else 0x020000000000 ≤ addr ∧ addr < 0x020028000000 ∧ addr % 0x200000 < 0x180000
      let unit := if wh then (addr - 0x010000000000) / 0x4000000 else (addr - 0x020000000000) / 0x200000
      let key := (if wh then 512 + unit else unit) * 64 + bank
      let used := tget 0 s.ras.rowsUsed key
      (¬inside → exec (.sramRowRepaired wh bank addr ue) s = .next s) ∧
      (inside → ∃ t, exec (.sramRowRepaired wh bank addr ue) s = .next t ∧ t.mem.bytes = s.mem.bytes ∧ (ue = true → linePoison t (addr / 64) = true) ∧
        (used < 4 → tget 0 t.ras.rowsUsed key = used + 1 ∧ t.mem.whRetired = s.mem.whRetired) ∧
        (4 ≤ used → t.ras.rowsUsed = s.ras.rowsUsed ∧ (wh = true → whPageOf addr ∈ t.mem.whRetired ∧ addr / 64 ∈ t.mem.lineDead ∧ linePoison t (addr / 64) = true)))) ∧
    (∀ port unit, port < 4 → unit < 2 ^ 27 →
      let held := (tget [] s.ras.farRetired port).length + (s.ras.farRetirePend.filter (fun x => decide (x.1 = port))).length
      (unit < (farPort s port).capacity → held < 4096 → exec (.rasFarRetire port unit) s = .next { s with ras := { s.ras with
        farRetirePend := s.ras.farRetirePend ++ [(port, unit)] } }) ∧
      ((farPort s port).capacity ≤ unit ∨ 4096 ≤ held → ∃ t, exec (.rasFarRetire port unit) s = .next t ∧
        t = { s with regs := { s.regs with vals := t.regs.vals } } ∧ rget t 0x14000F0 = min 0xFFFFFFFF (rget s 0x14000F0 + 1))) ∧
    (∀ n cause readable,
      let may := shopPresent s n = true ∧ (∀ m, m ∈ s.ras.moves → m.1 ≠ n) ∧ (cause = 0 → (shopOf s n).array.failed = true)
      (¬may → exec (.shopSparing n cause readable) s = .next s) ∧
      (∀ p, may → cause ≠ 3 → readable = true → freeSpare s (shopQuarter n) = some p →
        exec (.shopSparing n cause readable) s = .next { s with ras := { s.ras with moves := s.ras.moves ++ [(n, p * 2)] } }) ∧
      (may → freeSpare s (shopQuarter n) = none → ∃ t, exec (.shopSparing n cause readable) s = .next t ∧ (shopOf t n).state = 1 ∧ t.ras.moves = s.ras.moves ∧
        unitWord 2 n 0 ∈ t.sched.plc.absent ∧ rasLogged 0xD (unitWord 2 n 0) s t)) ∧
    (∀ n, (∀ m, m ∈ s.ras.moves → m.1 ≠ n) → exec (.shopSpareMoveDone n) s = .next s) ∧
    (∀ n m, s.ras.moves.find? (fun m => decide (m.1 = n)) = some m → ∃ t, exec (.shopSpareMoveDone n) s = .next t ∧ (shopOf t n).spare = some (m.2 / 2) ∧
      (shopOf t n).array.failed = false ∧ (∀ q, q ∈ t.ras.moves ↔ q ∈ s.ras.moves ∧ q.1 ≠ n) ∧ rasLogged 0xC (unitWord 2 n 0) s t ∧ otherShops n s t ∧
      (m.2 % 2 = 0 → sameBytes s t ∧ t.benches = s.benches)) ∧
    (∀ n die cause, 12 ≤ n ∨ (stackOf s n).state = 1 ∨ (die < 16 ∧ (stackOf s n).diesLost.contains die = true) → exec (.dieLost n die cause) s = .next s) ∧
    (∀ n die cause, n < 12 → (stackOf s n).state ≠ 1 → die < 16 → (stackOf s n).diesLost.contains die = false → ∃ t, exec (.dieLost n die cause) s = .next t ∧
      (stackOf t n).diesLost.contains die = true ∧ (∀ f, f < 2 ^ 20 → frameDie f = die → (frameOf t (n * 2 ^ 20 + f)).lost = true) ∧
      (∀ i, i < 32 → die * 32 + i ∈ (fulOf t n).absent) ∧ rasLogged 0xE (unitWord 4 n die) s t) ∧
    (∀ n die cause, n < 12 → (stackOf s n).state ≠ 1 → 16 ≤ die → ∃ t, exec (.dieLost n die cause) s = .next t ∧ (stackOf t n).state = 1 ∧
      (∀ i, fullerPresent t n i = false) ∧ unitWord 4 n 0 ∈ t.sched.plc.absent ∧ rasLogged 0xD (unitWord 4 n 0) s t) ∧
    (∀ kind index, ∃ t, exec (.hostmgmtUe kind index) s = .next t ∧ rasLogged 9 (unitWord 0 0 0) s t ∧
      (kind = 1 → index < 65536 → tallyOf t index = ⟨0, true⟩ ∧ ∀ j, j ≠ index → tallyOf t j = tallyOf s j) ∧
      (kind = 2 → ∀ c, c ∈ t.sched.cands → s.sched.cands.any (fun c => decide (c.id = index)) = true → c.id ≠ index) ∧
      (kind = 4 → index < 8 → (stewardOf s index).present = true → (stewardOf t index).restarting = true ∧
        ((stewardOf s index).restarting = false → (stewardOf t index).halted = none))) ∧
    (∀ h r, 8 ≤ h ∨ (stewardOf s h).present = false → exec (.lockstepFailure h r) s = .next s) ∧
    (∀ h, h < 8 → (stewardOf s h).present = true → ∃ t u, exec (.lockstepFailure h true) s = .next t ∧ exec (.lockstepFailure h false) s = .next u ∧
      (stewardOf t h).restarting = true ∧ (stewardOf t h).present = true ∧ (stewardOf u h).present = false ∧ (stewardOf u h).restarting = false ∧
      rasLogged 0xD (unitWord 11 h 0) s u ∧ ∀ k, k ≠ h → stewardOf t k = stewardOf s k ∧ stewardOf u k = stewardOf s k) ∧
    (∀ n ch lane, stackPresent s n = false ∨ 32 ≤ ch → exec (.stackChannelLaneFailure n ch lane) s = .next s) ∧
    (∀ n ch lane, stackPresent s n = true → ch < 32 → ∃ t,
      let k := tget 0 (stackOf s n).lanesLost ch + 1
      exec (.stackChannelLaneFailure n ch lane) s = .next t ∧ sameBytes s t ∧ stackOf t n = { stackOf s n with lanesLost := tset 0 (stackOf s n).lanesLost ch k } ∧
        (∀ j, j ≠ n → stackOf t j = stackOf s j) ∧ (k ≤ 2 → rasLogged 0xC (unitWord 4 n lane) s t) ∧ (2 < k → rasLogged 0x14 (unitWord 4 n ch) s t)) ∧
    (∀ seq, seq < 2 ^ 32 → ∃ t u, exec (.rasLogSel seq false) s = .next t ∧ exec (.rasLogSel seq true) s = .next u ∧ u.ras = { s.ras with pendingRead := some seq } ∧
      t.ras = { s.ras with
        pendingRead := none, bad := false
        shown := ((s.ras.log.find? (fun r => decide (r.seq = seq))).map rasShown).getD (List.replicate 8 0) }) ∧
    (s.ras.pendingRead = none → exec .nvLogReadDone s = .next s) ∧
    (∀ q, s.ras.pendingRead = some q → ∃ t, exec .nvLogReadDone s = .next t ∧ t = { s with ras := { s.ras with
      pendingRead := none, bad := t.ras.bad, shown := ((s.ras.nvLog.find? (fun r => decide (r.seq = q))).map rasShown).getD (List.replicate 8 0) } } ∧
      (t.ras.bad = true ↔ q ∈ s.ras.nvBad ∧ ∃ r, r ∈ s.ras.nvLog ∧ r.seq = q))

/-! ### Power, bring-up and resets -/

/-- Bring-up goes step by step from the release of SYS_RST_N to READY, each step from the one before, or ends FAILED with its cause (R496 to R504, R360); an
assertion of SYS_RST_N, a fall of PWR_OK, a loss of auxiliary power and a trip take every 12 V domain down (R356, R515, R573). A reset of a unit is asked for
once, drains, resets its unit and is tested (R506 to R509, R512). -/
def Obligations.BringUpAndResets : Prop :=
  ∀ (s : State) (time : Nat),
    let now := max s.now time
    let s0 := { s with now := now }
    let origin := fun (n : Nat) => if s.sys.powered then n else s.sys.origin
    (s.sys.aux = true → exec (.auxPowerOn time) s = .next s0) ∧
    (s.sys.aux = false → exec (.auxPowerOn time) s = .next { s0 with sys := { s.sys with aux := true, smbAddr := 0 } }) ∧
    (∀ a b, let may := s.sys.aux = true ∧ s.sys.v12 = true ∧ s.sys.pwrOk = true ∧ s.therm.tripLatch = false
      (s.sys.sysRstN = true → exec (.sysRstNRelease a b time) s = .next s0) ∧
      (s.sys.sysRstN = false → ¬may → exec (.sysRstNRelease a b time) s = .next { s0 with sys := { s.sys with sysRstN := true } }) ∧
      (s.sys.sysRstN = false → may → ∃ t, exec (.sysRstNRelease a b time) s = .next t ∧ t.sys.powered = true ∧ t.sys.sysRstN = true ∧ t.sys.released = now ∧
        t.sys.slotABad = !a ∧ (a = true → t.sys.stage = 2 ∧ t.sys.slot = 0) ∧ (a = false → b = true → t.sys.stage = 2 ∧ t.sys.slot = 1) ∧
        (a = false → b = false → t.sys.stage = 8 ∧ t.sys.cause = 1 ∧ t.sys.slot = 0 ∧ t.ready = false))) ∧
    (let hot := ∃ c, c < 56 ∧ chanEnabled s c = true ∧ warnAt s (chanUnit c) ≤ signedOf 16 (chanReading s c)
     (s.sys.stage ≠ 2 ∨ hot → exec (.thermalGate time) s = .next s0) ∧
     (s.sys.stage = 2 → ¬hot → ∃ t, exec (.thermalGate time) s = .next t ∧ t.sys.stage = 4 ∧ (∀ n, n < 320 → (shopOf t n).state = 0) ∧
       ∀ n, n < 12 → (stackOf t n).state = 0)) ∧
    (s.sys.stage ≠ 2 → exec (.thermalGateTimeout time) s = .next s0) ∧
    (s.sys.stage = 2 → ∃ t, exec (.thermalGateTimeout time) s = .next t ∧ t.sys.stage = 8 ∧ t.sys.cause = 2 ∧ t.ready = false) ∧
    (∀ fw lib fails, (s.sys.stage ≠ 4 → exec (.firmwareBroadcast fw lib fails time) s = .next s0) ∧
      (s.sys.stage = 4 → ∃ t, exec (.firmwareBroadcast fw lib fails time) s = .next t ∧ t.sys.stage = 5 ∧ (fails = [] → ∀ n, shopPresent s n = true →
        (shopOf t n).fwVersion = fw.1 ∧ (shopOf t n).fwCrc = fw.2.1 ∧ (shopOf t n).fwPending = none))) ∧
    (∀ fails, (s.sys.stage ≠ 5 → exec (.selfTest fails time) s = .next s0) ∧
      (s.sys.stage = 5 → (∃ f, f ∈ fails ∧ f.kind = 0) → ∃ t, exec (.selfTest fails time) s = .next t ∧ t.sys.stage = 8 ∧ t.sys.cause = 3) ∧
      (s.sys.stage = 5 → (∀ f, f ∈ fails → f.kind ≠ 0) → ∃ t, exec (.selfTest fails time) s = .next t ∧ t.sys.stage = 6)) ∧
    (s.sys.stage ≠ 6 ∨ portsSettled s0 = false → exec (.ready time) s = .next s0) ∧
    (s.sys.stage = 6 → portsSettled s0 = true → unitsReady s = false → ∃ t, exec (.ready time) s = .next t ∧ t.sys.stage = 8 ∧ t.sys.cause = 4 ∧ t.ready = false) ∧
    (s.sys.stage = 6 → portsSettled s0 = true → unitsReady s = true → ∃ t, exec (.ready time) s = .next t ∧ t.ready = true ∧ t.bell = 0 ∧ t.sys.stage = 7 ∧
      t.sys.cause = 0 ∧ t.sys.readyAt = now ∧ t.sched.opened = now ∧ (∀ b, b < 16 → bitOf t.sys.lockBits b = (bitOf s.sys.lockBits b || bitOf s.sys.lockPolicy b)) ∧
      ∀ n, n < 12 → stackPresent s n = true → (∀ x, x ∈ (fulOf s n).slots → 0x40 ≤ x.1) → (fulOf t n).absent = List.range 512) ∧
    (∃ t, exec (.sysRstNAssert time) s = .next t ∧ powerLost s t ∧ t.now = now ∧ t.sys.sysRstN = false ∧ t.sys.origin = origin 1 ∧ t.sys.v12 = s.sys.v12) ∧
    (exec (.pwrOkFall true time) s = .next { s0 with sys := { s.sys with pwrOk := true } }) ∧
    (∃ t, exec (.pwrOkFall false time) s = .next t ∧ powerLost s t ∧ t.now = now ∧ t.sys.pwrOk = false ∧ t.sys.origin = origin 1 ∧ t.sys.sysRstN = s.sys.sysRstN) ∧
    (∃ t, exec (.auxPowerLoss time) s = .next t ∧ powerLost s t ∧ t.now = now ∧ t.sys.aux = false ∧ t.sys.origin = 0 ∧ t.sys.role = RoleSt.reset ∧
      t.therm.tripLatch = false) ∧
    (∀ c reading wire, let r := if wire then 0x7FFF else reading % 65536
      (shutdownAt s c = none → exec (.shutdownTrip c reading wire time) s = .next s0) ∧
      (∀ l, shutdownAt s c = some l → s.sys.aux = false ∨ s.therm.tripLatch = true ∨ signedOf 16 r < l → exec (.shutdownTrip c reading wire time) s = .next s0) ∧
      (∀ l, shutdownAt s c = some l → s.sys.aux = true → s.therm.tripLatch = false → l ≤ signedOf 16 r →
        ∃ t, exec (.shutdownTrip c reading wire time) s = .next t ∧ powerLost s t ∧ t.therm.tripLatch = true ∧ t.sys.origin = origin 0 ∧
          t.therm.trip = some [if wire then 2 else 1, c, r, nowMs s0] ∧ t.therm.tripFlashed = s.therm.flashOpen ∧ t.therm.tripSaid = false)) ∧
    (s.therm.tripLatch = false → exec (.tripLatchClear time) s = .next s0) ∧
    (s.therm.tripLatch = true → exec (.tripLatchClear time) s = .next { s0 with
      therm := { s.therm with tripLatch := false }
      sys := { s.sys with v12 := false } }) ∧
    (∀ (row : Nat → Bool → Instr) scope unit update, (row, scope) ∈ [(Instr.shopReset, 0), (.quarterReset, 1), (.stackReset, 2)] →
      let refused := s.ready = false ∨ scopeUnits scope ≤ unit ∨ scopeAbsent s scope unit = true ∨ resetListed s scope unit = true ∨
        (scope = 0 ∧ resetListed s 1 (unit / 80) = true) ∨ (scope = 2 ∧ resetListed s 1 (unit / 3) = true)
      (refused → exec (row unit update) s = .next (accessFault 0 s)) ∧
      (¬refused → ∃ t, exec (row unit update) s = .next t ∧ t = { s with sys := { s.sys with resets := t.sys.resets }, regs := { s.regs with vals := t.regs.vals } } ∧
        t.sys.resets = s.sys.resets ++ [⟨scope, unit, update && staged s scope, 0, false, 0⟩] ∧ (update = false ∨ staged s scope = true → t.regs = s.regs))) ∧
    (∀ chan, (hasRight s chan 0 = false → ∃ t, exec (.computePartReset chan) s = .next t ∧ t.sys.resets = s.sys.resets ∧
        rget t 0xF8 = min 0xFFFFFFFF (rget s 0xF8 + 1)) ∧
      (hasRight s chan 0 = true → s.ready = true → resetListed s 3 0 = false →
        exec (.computePartReset chan) s = .next { s with sys := { s.sys with resets := s.sys.resets ++ [⟨3, 0, false, 0, false, 0⟩] } })) ∧
    (∀ scope unit, resetIn s scope unit 2 = none → exec (.drainEnd scope unit time) s = .next s0 ∧ exec (.drainTimeout scope unit time) s = .next s0) ∧
    (∀ scope unit r, resetIn s scope unit 2 = some r →
      let isReset := fun (t : State) => (∀ x, x ∈ t.sys.resets → x.scope = scope → x.unit = unit → x.phase = 4) ∧
        (scope = 0 → (shopOf s unit).state ≠ 1 → (shopOf t unit).fault = none ∧ (shopOf t unit).launches = [] ∧ (shopOf t unit).state = (shopOf s unit).state ∧
          otherShops unit s t ∧ ∀ k, roomAddr unit 0 ≤ k → k < roomAddr unit 0 + 0x200000 → keyByte t k = 0) ∧
        (scope = 1 → unit < 4 → ∀ i, i < 0x100000 → linePoison t (0x010000000000 / 64 + unit * 0x100000 + i) = true)
      (scope = 2 → (runOf s unit).isSome = true → exec (.drainEnd scope unit time) s = .next s0) ∧
      (scope ≠ 2 ∨ runOf s unit = none → ∃ t, exec (.drainEnd scope unit time) s = .next t ∧ isReset t ∧ t.sys.drainOut = s.sys.drainOut) ∧
      (now < r.applied + 50000 → exec (.drainTimeout scope unit time) s = .next s0) ∧
      (r.applied + 50000 ≤ now → ∃ t, exec (.drainTimeout scope unit time) s = .next t ∧ isReset t ∧ t.sys.drainOut = true)) ∧
    (∀ scope unit fails, resetIn s scope unit 4 = none → exec (.resetTestDone scope unit fails time) s = .next s0) ∧
    (∀ scope unit fails r, resetIn s scope unit 4 = some r → ∃ t, exec (.resetTestDone scope unit fails time) s = .next t ∧
      (∀ x, x ∈ t.sys.resets → x.scope = scope → x.unit = unit → x.phase = 5 ∧ x.failed = !fails.isEmpty) ∧ t.sys.failed = (s.sys.failed || !fails.isEmpty) ∧
      (fails = [] → t = { s0 with sys := { s.sys with resets := t.sys.resets, failed := t.sys.failed, lastPhase := t.sys.lastPhase } } ∧
        t.sys.lastPhase = s.sys.lastPhase)) ∧
    (∀ ten addr, (homeInReset s (resolve s ten addr) = true → exec (.retry ten addr) s = .next (bump 0x4B0 1 s)) ∧
      (homeInReset s (resolve s ten addr) = false → exec (.retry ten addr) s = .next s))

/-- R571: a 12 V level below 11.2 V or above 13.2 V disables the regulators of every 12 V domain with the effects of a loss of 12 V: those of an assertion of
SYS_RST_N, but for what the sideband shows. Whatever the command and the state, the domains are powered again only by a release of SYS_RST_N, with PWR_OK high
and 12 V in range. -/
def Obligations.SupplyWatch : Prop :=
  (∀ (s : State) (mv time : Nat), mv < 11200 ∨ 13200 < mv → ∃ t u, exec (.supplyOutOfRange mv time) s = .next t ∧ exec (.sysRstNAssert time) s = .next u ∧
    powerLost s t ∧ t.sys.v12 = false ∧ t = { u with sys := { u.sys with sysRstN := s.sys.sysRstN, origin := t.sys.origin, v12 := false, supplyBad := true } } ∧
    t.sys.origin = if s.sys.powered then 0 else s.sys.origin) ∧
  (∀ (s : State) (mv time : Nat), 11200 ≤ mv → mv ≤ 13200 →
    exec (.supplyOutOfRange mv time) s = .next { s with now := max s.now time, sys := { s.sys with v12 := true } }) ∧
  ∀ (s t : State) (c : Instr), s.sys.powered = false → exec c s = .next t → t.sys.powered = true →
    s.sys.pwrOk = true ∧ s.sys.v12 = true ∧ s.sys.sysRstN = false ∧ ∃ a b time, c = .sysRstNRelease a b time

/-! ### Stewards, roles and registers -/

/-- The bellboard and device locks (R521 to R529): an input that rises makes an edge source pending, a level source is pending while its input is asserted and
it is not active, and stays so when the input falls (the model's reading, log entry 46); a steward's claim of a pending source that targets it makes it active
with that owner, any other claim returns 0x3FF; only the owner completes; a steward's write of a pending word replaces that word. An acquire at the lock's EPOCH
takes a free lock for 10 µs, a release performs every staged store, more than 64 break the lock, and so does the end of a lease. A steward that runs and has not
refreshed its watchdog is restarted. -/
def Obligations.StewardsAndLocks : Prop :=
  ∀ (s : State) (h n k time : Nat), k < 256 →
    let now := max s.now time
    let s0 := { s with now := now }
    let lock := tget DevLock.reset s.sys.locks k
    let bellboard := fun (t : State) => t = { s0 with
      sys := { s.sys with bbdPend := t.sys.bbdPend, bbdLevel := t.sys.bbdLevel, bbdActive := t.sys.bbdActive }
      regs := { s.regs with last := t.regs.last } }
    let lockIs := fun (l : DevLock) (t : State) => tget DevLock.reset t.sys.locks k = l ∧ ∀ j, j ≠ k → tget DevLock.reset t.sys.locks j = tget DevLock.reset s.sys.locks j
    let onlyLocks := fun (v : Nat) (t : State) => t = { s0 with sys := { s.sys with locks := t.sys.locks }, regs := { s.regs with last := BitVec.ofNat 64 v } }
    (∀ (up gated : Bool), s.sys.powered = false → exec (.bellboardSource n up gated time) s = .next s0) ∧
    (∀ (up gated : Bool), s.sys.powered = true → ∃ t, exec (.bellboardSource n up gated time) s = .next t ∧
      t = { s0 with sys := { s.sys with bbdPend := t.sys.bbdPend, bbdLevel := t.sys.bbdLevel }, regs := t.regs } ∧
      (∀ m, m ≠ n → (m ∈ t.sys.bbdPend ↔ m ∈ s.sys.bbdPend) ∧ (m ∈ t.sys.bbdLevel ↔ m ∈ s.sys.bbdLevel)) ∧
      (levelSource n = true → (n ∈ t.sys.bbdLevel ↔ up = true) ∧ (n ∈ t.sys.bbdPend ↔ n ∈ s.sys.bbdPend ∨ (up = false ∧ bbdPending s n = true))) ∧
      (levelSource n = false → t.sys.bbdLevel = s.sys.bbdLevel ∧ (n ∈ t.sys.bbdPend ↔ n ∈ s.sys.bbdPend ∨ (up = true ∧ n < 433))) ∧
      t.regs = if gated = true ∧ up = true ∧ n < 433 then (bump 0x1600120 1 s).regs else s.regs) ∧
    (∀ p, pathOpen s p 1 = false → exec (.bbdClaim p n time) s = .next (answer 0xFFFFFFFFFFFFFFFF s0)) ∧
    (n < 1024 → pathOpen s .pf 1 = true → exec (.bbdClaim .pf n time) s = .next (answer 0x3FF s0)) ∧
    (n < 1024 → pathOpen s (.steward h) 1 = true →
      let target := bitOf (rget s (0x1601800 + n / 8 * 8)) (8 * (n % 8) + h)
      (bbdPending s n = true ∧ tget none s.sys.bbdActive n = none ∧ target = true →
        ∃ t, exec (.bbdClaim (.steward h) n time) s = .next t ∧ bellboard t ∧ t.regs.last = BitVec.ofNat 64 n ∧ t.sys.bbdLevel = s.sys.bbdLevel ∧
          (∀ m, m ∈ t.sys.bbdPend ↔ m ≠ n ∧ m ∈ s.sys.bbdPend) ∧ ∀ m, tget none t.sys.bbdActive m = if m = n then some h else tget none s.sys.bbdActive m) ∧
      (bbdPending s n = false ∨ tget none s.sys.bbdActive n ≠ none ∨ target = false →
        exec (.bbdClaim (.steward h) n time) s = .next (answer 0x3FF (bump 0x1600118 1 s0)))) ∧
    (∀ p v, pathOpen s p 2 = false → exec (.bbdComplete p n time) s = .next s0 ∧ exec (.bbdPend p n v time) s = .next s0) ∧
    (n < 1024 → pathOpen s (.steward h) 2 = true → s.sys.role.state ≠ 2 ∨ s.sys.role.channel < 3 →
      (tget none s.sys.bbdActive n = some h → ∃ t, exec (.bbdComplete (.steward h) n time) s = .next t ∧ bellboard t ∧ t.sys.bbdPend = s.sys.bbdPend ∧
        t.sys.bbdLevel = s.sys.bbdLevel ∧ t.regs = s.regs ∧ ∀ m, tget none t.sys.bbdActive m = if m = n then none else tget none s.sys.bbdActive m) ∧
      (tget none s.sys.bbdActive n ≠ some h → exec (.bbdComplete (.steward h) n time) s = .next (bump 0x1600110 1 s0)) ∧
      ∀ v, n < 16 → ∃ t, exec (.bbdPend (.steward h) n v time) s = .next t ∧ bellboard t ∧ t.sys.bbdActive = s.sys.bbdActive ∧
        t.sys.bbdLevel = s.sys.bbdLevel ∧ t.regs = s.regs ∧
        ∀ m, m ∈ t.sys.bbdPend ↔ if m / 64 = n then sourceExists m = true ∧ bitOf v (m % 64) = true else m ∈ s.sys.bbdPend) ∧
    (∀ v, n < 16 → pathOpen s .pf 2 = true → s.sys.role.state ≠ 2 ∨ s.sys.role.channel ≠ 0 →
      exec (.bbdPend .pf n v time) s = .next (accessFault 0x1600000 s0)) ∧
    (lock.lease = none → exec (.leaseExpiry k time) s = .next s0) ∧
    (∀ e, lock.lease = some e → now < e → exec (.leaseExpiry k time) s = .next s0) ∧
    (∀ e, lock.lease = some e → e ≤ now → ∃ t, exec (.leaseExpiry k time) s = .next t ∧ lockIs ⟨0, (lock.epoch + 1) % 2 ^ 24, [], none, lock.owner % 16⟩ t ∧
      t = { s0 with sys := { s.sys with locks := t.sys.locks }, regs := (bump 0x1600100 1 s).regs } ∧
      (∀ epoch, exec (.lockAcquire h k epoch time) s = exec (.lockAcquire h k epoch time) t) ∧
      ∀ epoch mem, exec (.lockRelease h k epoch mem time) s = exec (.lockRelease h k epoch mem time) t) ∧
    ((∀ e, lock.lease = some e → now < e) → ∀ epoch,
      (stewardActive s h = true ∧ lock.owner = 0 ∧ lock.epoch = epoch → ∃ t, exec (.lockAcquire h k epoch time) s = .next t ∧ onlyLocks 0 t ∧
        lockIs ⟨h + 1, epoch, [], some (now + 10000), lock.lastBroken⟩ t) ∧
      (stewardActive s h = false ∨ lock.owner ≠ 0 ∨ lock.epoch ≠ epoch → exec (.lockAcquire h k epoch time) s = .next (answer 1 s0)) ∧
      (∀ mem, stewardActive s h = false ∨ lock.owner ≠ h + 1 ∨ lock.epoch ≠ epoch → exec (.lockRelease h k epoch mem time) s = .next (answer 1 s0)) ∧
      (stewardActive s h = true → lock.owner = h + 1 → lock.epoch = epoch →
        let freed : DevLock := ⟨0, (epoch + 1) % 2 ^ 24, [], none, lock.lastBroken⟩
        (∀ mem, 64 < lock.staged.length + mem.length → ∃ t, exec (.lockRelease h k epoch mem time) s = .next t ∧ onlyLocks 1 t ∧
          lockIs ⟨0, (epoch + 1) % 2 ^ 24, [], none, lock.owner % 16⟩ t) ∧
        (lock.staged = [] → ∃ t, exec (.lockRelease h k epoch [] time) s = .next t ∧ onlyLocks 0 t ∧ lockIs freed t) ∧
        (∀ a v w, lock.staged = [] → (∀ i, i < 8 → homeKey (resolve s none (a + i)) = some (w + i)) →
          (∀ i, i < 8 → w + i < 0xC000000000 → (frameOf s ((w + i) / 65536)).lost = false) → ∃ t, exec (.lockRelease h k epoch [(a, v)] time) s = .next t ∧
          bytesStored w (leBytes 8 v) s t ∧ lockIs freed t ∧ t.regs.last = 0) ∧
        (∀ off v ins, 2 ≤ s.sys.stage → lock.staged = [⟨true, off, v, ins⟩] → ∃ t u, exec (.lockRelease h k epoch [] time) s = .next t ∧
          exec (.registerWrite (.steward h) off 8 v none ins time) { s with sys := { s.sys with locks := tset DevLock.reset s.sys.locks k freed } } = .next u ∧
          t = answer 0 u))) ∧
    (stewardActive s h = false → exec (.stewardWatchdog h) s = .next s) ∧
    (stewardActive s h = true → ∃ t, exec (.stewardWatchdog h) s = .next t ∧ stewardOf t h = { stewardOf s h with restarting := true } ∧
      (∀ j, j ≠ h → stewardOf t j = stewardOf s j) ∧ t = { s with sys := { s.sys with stewards := t.sys.stewards }, regs := (bump 0x1600108 1 s).regs }) ∧
    (h < 8 → (stewardOf s h).present = true → ∃ t, exec (.stewardRestartDone h) s = .next t ∧ stewardOf t h = { stewardOf s h with restarting := false } ∧
      (∀ j, j ≠ h → stewardOf t j = stewardOf s j) ∧ t = { s with sys := { s.sys with stewards := t.sys.stewards } }) ∧
    (8 ≤ h ∨ (stewardOf s h).present = false → exec (.stewardRestartDone h) s = .next s)

/-- Roles on the PF, SMBus and JTAG: a challenge of 48 random bytes; a response opens a session when the certificate and the response are good and no maker
session meets an enabled tenant, else it fails with a cause, and the third failure within 60 s locks challenges out for 60 s; a close, the end of 300 s and
TRST_N end a session; an unlock clears GLB_LOCK bits with RIGHTS bit 2, and a write of GLB_LOCK sets them; an image is written with RIGHTS bit 1 on the PF, a
recovery image without a session in FAILED with cause BOOT (R531 to R534, R536, R537). -/
def Obligations.Roles : Prop :=
  ∀ (s : State) (time : Nat),
    let now := max s.now time
    let s0 := { s with now := now }
    let r := s.sys.role
    (∀ p ins, pathOpen s p 2 = false → exec (.challenge p time) s = .next s0 ∧ exec (.respond p ins time) s = .next s0 ∧ exec (.roleClose p time) s = .next s0 ∧
      (∀ mask, exec (.unlock p mask time) s = .next s0) ∧ (∀ kind, exec (.imageWrite p kind ins time) s = .next s0) ∧
      ∀ v, exec (.glbLock p v time) s = .next s0) ∧
    (∀ p chan, (p, chan) ∈ rolePaths → pathOpen s p 2 = true →
      let touched := if r.state = 2 ∧ r.channel = chan then { r with lastWrite := now } else r
      let ends := fun (cause : Nat) => { s0 with sys := { s.sys with role := { touched with cause := cause, done := true } } }
      (r.state = 3 → exec (.challenge p time) s = .next (ends 8)) ∧
      (r.state = 2 → exec (.challenge p time) s = .next (ends 6)) ∧
      (r.state < 2 → ∃ t, exec (.challenge p time) s = .next t ∧ t.sys.role.challenge.length = 6 ∧ t = { s0 with
        freeCtr := t.freeCtr
        sys := { s.sys with role := { r with state := 1, channel := chan, challenge := t.sys.role.challenge, issued := now, cause := 0, done := true } } }) ∧
      (∀ ins, certAccepted chan now ins s → ∃ t, exec (.respond p ins time) s = .next t ∧ rolesOnly now { s.sys with stewards := t.sys.stewards } s t ∧
        t.sys.role = { r with
          state := 2, role := certField s 5 1, channel := chan, rights := certField s 6 2 % 256, serial := certField s 8 4, challenge := [], lastWrite := now
          cause := 0, done := true
          level := if chan ≠ 2 then 0 else if certField s 5 1 = 2 ∧ bitOf (certField s 6 2) 6 = true then 3 else if bitOf (certField s 6 2) 3 then 2 else 0 }) ∧
      (∀ ins, r.state = 3 → exec (.respond p ins time) s = .next (ends 8)) ∧
      (∀ ins, r.state ≠ 3 → ¬certAccepted chan now ins s → ∃ t, exec (.respond p ins time) s = .next t ∧ rolesOnly now s.sys s t ∧ audited s t ∧
        let fails := now :: r.fails.filter (fun x => decide (now < x + 60000000000))
        t.sys.role.cause ≠ 0 ∧ t.sys.role.cause ≠ 8 ∧ t.sys.role.fails = fails ∧ (r.state = 2 → t.sys.role.state = 2 ∧ t.sys.role.cause = 6) ∧
        (r.state ≠ 2 → t.sys.role.state ≠ 2 ∧ (t.sys.role.state = 3 ↔ 3 ≤ fails.length)) ∧ t.sys.role.lockedTill = (if 3 ≤ fails.length then now + 60000000000 else r.lockedTill)) ∧
      (r.state ≠ 2 → exec (.roleClose p time) s = .next (ends 5)) ∧
      (r.state = 2 → r.channel ≠ chan → exec (.roleClose p time) s = .next (ends 6)) ∧
      (r.state = 2 → r.channel = chan → ∃ t, exec (.roleClose p time) s = .next t ∧ sessionClosed s t ∧ t.sys.role.cause = 0 ∧
        rolesOnly now { s.sys with stewards := t.sys.stewards, lockPolicy := t.sys.lockPolicy } s t) ∧
      (∀ mask, hasRight s chan 2 = false → exec (.unlock p mask time) s = .next (ends 4)) ∧
      (∀ mask, hasRight s chan 2 = true → ∃ t, exec (.unlock p mask time) s = .next t ∧ rolesOnly now { s.sys with lockBits := t.sys.lockBits } s t ∧
        t.sys.role.cause = 0 ∧ ∀ b, b < 16 → bitOf t.sys.lockBits b = (bitOf s.sys.lockBits b && !bitOf mask b)) ∧
      (∀ kind ins, kind < 8 → chan ≠ 0 ∨ hasRight s 0 1 = false → exec (.imageWrite p kind ins time) s = .next (ends 4)) ∧
      ∀ kind ins, kind < 8 → chan = 0 → hasRight s 0 1 = true → ∃ t, exec (.imageWrite p kind ins time) s = .next t ∧ audited s t ∧
        rolesOnly now { s.sys with flash := t.sys.flash } s t ∧
        let cause := if kind = 7 then 11 else imageCause s ins
        let region := if kind = 0 then 0 else kind + 1
        t.sys.role.cause = (if cause = 0 ∧ ins.closed = true then 10 else cause) ∧
        ∀ k, flashOf t k = if cause ≠ 0 then flashOf s k else if k = region then (if ins.closed then ⟨false, 0⟩ else ⟨true, ins.version⟩)
          else if k = 1 ∧ kind = 0 ∧ s.sys.slot = 0 then flashOf s 0 else flashOf s k) ∧
    (∀ v, pathOpen s .pf 2 = true → ∃ t, exec (.glbLock .pf v time) s = .next t ∧ rolesOnly now { s.sys with lockBits := t.sys.lockBits } s t ∧
      (∀ b, b < 16 → bitOf t.sys.lockBits b = (bitOf s.sys.lockBits b || bitOf v b)) ∧ (t.sys.lockBits ≠ s.sys.lockBits → audited s t)) ∧
    (r.state ≠ 2 ∨ now < r.lastWrite + 300000000000 → exec (.sessionTimeout time) s = .next s0) ∧
    (r.state = 2 → r.lastWrite + 300000000000 ≤ now → ∃ t, exec (.sessionTimeout time) s = .next t ∧ sessionClosed s t ∧
      rolesOnly now { s.sys with stewards := t.sys.stewards, lockPolicy := t.sys.lockPolicy } s t) ∧
    (r.state ≠ 3 ∨ now < r.lockedTill → exec (.lockoutExpiry time) s = .next s0) ∧
    (r.state = 3 → r.lockedTill ≤ now → exec (.lockoutExpiry time) s = .next { s0 with sys := { s.sys with role := { r with state := 0 } } }) ∧
    (∀ addr ins, pathOpen s .pf 0 = false → exec (.glbRecoveryAddr addr ins time) s = .next s0) ∧
    (∀ addr ins, pathOpen s .pf 0 = true → s.sys.stage ≠ 8 ∨ s.sys.cause ≠ 1 → ∃ t, exec (.glbRecoveryAddr addr ins time) s = .next t ∧
      t = { s0 with sys := { s.sys with role := { r with lastWrite := t.sys.role.lastWrite } } }) ∧
    (∀ addr ins, pathOpen s .pf 0 = true → s.sys.stage = 8 → s.sys.cause = 1 → ∃ t, exec (.glbRecoveryAddr addr ins time) s = .next t ∧ audited s t ∧
      rolesOnly now { s.sys with flash := t.sys.flash } s t ∧
      ∀ k, flashOf t k = if k < 2 ∧ imageCause s ins = 0 then ⟨true, ins.version⟩ else flashOf s k) ∧
    (∀ p chan kind object words closed, ((p : RegPath), chan) ∈ rolePaths →
      let w := (words[0]?).getD 0
      let found := fun (t : State) (key : Nat) => t.sys.makerRecords.find? (fun x => decide (x.1 = key))
      (2 < kind ∨ s.sys.powered = false ∨ r.state ≠ 2 ∨ r.channel ≠ chan → exec (.fuseProgram chan kind object words closed time) s = .next s0) ∧
      (kind ≤ 2 → s.sys.powered = true → r.state = 2 → r.channel = chan →
        let right := if kind = 0 then 4 else 5
        let window := if kind = 0 then fuseOk s (object / 8 % 4) else s.therm.flashOpen
        (hasRight s chan right = false ∨ r.role ≠ 2 →
          exec (.fuseProgram chan kind object words closed time) s = .next { s0 with sys := { s.sys with role := { r with cause := 4, done := true } } }) ∧
        (hasRight s chan right = true → r.role = 2 → window = false → exec (.fuseProgram chan kind object words closed time) s = .next
          { s0 with sys := { s.sys with role := { r with lastWrite := now, cause := 10, done := true } } }) ∧
        (hasRight s chan right = true → r.role = 2 → window = true → ∃ t, exec (.fuseProgram chan kind object words closed time) s = .next t ∧ audited s t ∧
          rolesOnly now { s.sys with fuses := t.sys.fuses, makerRecords := t.sys.makerRecords } s t ∧ t.sys.role.cause = (if closed.isSome then 10 else 0) ∧
          (∀ k, tget 0 t.sys.fuses k = if kind = 0 ∧ k = object then tget 0 s.sys.fuses k ||| closed.getD w % 2 ^ 64 else tget 0 s.sys.fuses k) ∧
          (kind = 0 → t.sys.makerRecords = s.sys.makerRecords) ∧
          (kind ≠ 0 → object < 2 ^ 32 → closed = none →
            found t (kind * 2 ^ 32 + object) = (if words = [] then none else some (kind * 2 ^ 32 + object, words)) ∧
            ∀ key, key ≠ kind * 2 ^ 32 + object → found t key = found s key))))

/-- JTAG and debug (R533, R537, R540, R541): BYPASS, IDCODE, SAMPLE/PRELOAD, EXTEST (only while SYS_RST_N is asserted), DTMCS; DMI and the aperture by the debug
level: nothing at level 0 and 1 but reads of registers, halting and register writes at level 2, device memory at level 3; the ROLE data register captures the
first 2,048 bytes of the ROLE block and an update writes its RW and WO fields; RECOVERY; TRST_N resets the port and closes a session on it. -/
def Obligations.JtagAndDebug : Prop :=
  ∀ (s : State) (time : Nat),
    let now := max s.now time
    let ir := fun (n : Nat) => { s with sys := { s.sys with jtagIr := n, extest := if n = 2 ∨ n = 3 then s.sys.extest else [] } }
    let irNow := fun (n : Nat) => { ir n with now := now }
    let level := debugLevel s
    (exec .bypass s = .next (ir 0)) ∧
    (exec .idcode s = .next (answer (0x10800001 + Config.jedecCode % 2048 * 2) (ir 1))) ∧
    (∀ lands outputs, ∃ t, exec (.samplePreload lands outputs) s = .next t ∧ t.regs.lastBytes = lands ∧ t.sys = { s.sys with jtagIr := 2, extest := outputs } ∧
      t = { s with sys := t.sys, regs := { s.regs with lastBytes := lands } }) ∧
    (∀ lands outputs, s.sys.sysRstN = true → exec (.extest lands outputs) s = .next (ir 0)) ∧
    (∀ lands outputs, s.sys.sysRstN = false → ∃ t, exec (.extest lands outputs) s = .next t ∧ t.regs.lastBytes = lands ∧
      t.sys = { s.sys with jtagIr := 3, extest := outputs } ∧ t = { s with sys := t.sys, regs := { s.regs with lastBytes := lands } }) ∧
    (∃ t, exec .dtmcs s = .next t ∧ t = { ir 4 with freeCtr := t.freeCtr, regs := { s.regs with last := t.regs.last } } ∧ t.regs.last.toNat < 2 ^ 15 ∧
      t.regs.last.toNat % 16 = 1 ∧ bitsOf t.regs.last.toNat 11 10 = 0) ∧
    (s.sys.powered = false ∨ level < 2 → ∀ a v, exec (.dmi (.read a) time) s = .next (answer 0 (irNow 5)) ∧ exec (.dmi (.write a v) time) s = .next (irNow 5)) ∧
    (pathOpen s .aperture 2 = false → ∀ off size v, exec (.dmi (.regWrite off size v) time) s = .next (irNow 5)) ∧
    (pathOpen s .aperture 3 = false → ∀ a d, exec (.dmi (.memWrite a d) time) s = .next (irNow 5)) ∧
    (s.sys.powered = true → 2 ≤ level →
      (exec (.dmi (.read 0x11) time) s = .next (answer (dmStatus s) (irNow 5))) ∧
      (exec (.dmi (.read 0x10) time) s = .next (answer (tget 0 s.sys.dmi 0x10 % 2 ^ 30) (irNow 5))) ∧
      (∀ a, (0x4 ≤ a ∧ a < 0x10) ∨ (0x20 ≤ a ∧ a < 0x28) → exec (.dmi (.read a) time) s = .next (answer (tget 0 s.sys.dmi a) (irNow 5)) ∧
        ∀ v, ∃ t, exec (.dmi (.write a v) time) s = .next t ∧ t = { irNow 5 with sys := { (irNow 5).sys with dmi := t.sys.dmi } } ∧
          ∀ k, tget 0 t.sys.dmi k = if k = a then v % 2 ^ 32 else tget 0 s.sys.dmi k) ∧
      (∀ a, ∃ t, exec (.dmi (.read a) time) s = .next t ∧ t = { irNow 5 with freeCtr := t.freeCtr, regs := { s.regs with last := t.regs.last } }) ∧
      ∀ v, let h := bitsOf v 25 16
        ∃ t, exec (.dmi (.write 0x10 v) time) s = .next t ∧ t = { irNow 5 with sys := { (irNow 5).sys with dmi := t.sys.dmi, stewards := t.sys.stewards } } ∧
          (∀ k, tget 0 t.sys.dmi k = if k = 0x10 then v % 2 ^ 32 else tget 0 s.sys.dmi k) ∧ (∀ j, j ≠ h → stewardOf t j = stewardOf s j) ∧
          stewardOf t h = if h < 8 ∧ (stewardOf s h).present = true ∧ bitOf v 0 = true then
            (if bitOf v 31 then (if (stewardOf s h).halted.isSome then stewardOf s h else { stewardOf s h with halted := some now })
              else if bitOf v 30 then { stewardOf s h with halted := none } else stewardOf s h) else stewardOf s h) ∧
    (pathOpen s .aperture 2 = true → ∀ off size v,
      exec (.dmi (.regWrite off size v) time) s = exec (.registerWrite .aperture off size v none noRole time) (ir 5)) ∧
    (∀ a d w, pathOpen s .aperture 3 = true → (∀ i, i < d.length → homeKey (resolve s none (a + i)) = some (w + i)) →
      (∀ i, i < d.length → w + i < 0xC000000000 → (frameOf s ((w + i) / 65536)).lost = false) →
      ∃ t, exec (.dmi (.memWrite a d) time) s = .next t ∧ bytesStored w d s t ∧ t.sys = (ir 5).sys) ∧
    (∀ words ins, pathOpen s .jtag 0 = false → exec (.jtagRole words ins time) s = .next (irNow 6)) ∧
    (∀ ins, pathOpen s .jtag 0 = true → ∃ t, exec (.jtagRole none ins time) s = .next t ∧ t = { irNow 6 with regs := { s.regs with lastBytes := t.regs.lastBytes } } ∧
      t.regs.lastBytes.length = 2048 ∧ ∀ k, k < 256 → leAt t.regs.lastBytes (8 * k) 8 = regValue s (0x1800000 + 8 * k) % 2 ^ 64) ∧
    (∀ ins (w : List Nat), pathOpen s .jtag 0 = true → 2 ≤ w.length → ∃ t u, exec (.jtagRole (some (w.set 1 0)) ins time) s = .next t ∧
      exec (.jtagRole none ins time) s = .next u ∧ t.regs.lastBytes = u.regs.lastBytes ∧
      (∀ k, k = 2 ∨ (128 ≤ k ∧ k < 256 ∧ (s.sys.role.state = 1 ∨ s.sys.role.state = 2) ∧ s.sys.role.channel = 2) →
        rget t (0x1800000 + 8 * k) = ((w[k]?).getD 0) % 2 ^ 64) ∧
      t.mem = s.mem ∧ t.book = s.book ∧ t.bal = s.bal ∧ t.host = s.host ∧
      ∀ cmd, exec (.jtagRole (some (w.set 1 cmd)) ins time) s = exec (.registerWrite .jtag 0x1800008 8 cmd none ins time) t) ∧
    (∀ ins, s.sys.powered = false ∨ s.sys.stage ≠ 8 ∨ s.sys.cause ≠ 1 → exec (.recovery ins time) s = .next (irNow 7)) ∧
    (∀ ins, s.sys.powered = true → s.sys.stage = 8 → s.sys.cause = 1 → ∃ t, exec (.recovery ins time) s = .next t ∧ audited s t ∧
      rolesOnly now { (ir 7).sys with flash := t.sys.flash } s t ∧
      ∀ k, flashOf t k = if k < 2 ∧ imageCause s ins = 0 then ⟨true, ins.version⟩ else flashOf s k) ∧
    (s.sys.role.channel ≠ 2 ∨ s.sys.role.state = 0 ∨ s.sys.role.state = 3 → exec .trstN s = .next (ir 1)) ∧
    (s.sys.role.channel = 2 → s.sys.role.state = 2 → ∃ t, exec .trstN s = .next t ∧ sessionClosed s t ∧
      rolesOnly s.now { (ir 1).sys with stewards := t.sys.stewards, lockPolicy := t.sys.lockPolicy } s t) ∧
    (s.sys.role.channel = 2 → s.sys.role.state = 1 → exec .trstN s = .next { ir 1 with
      sys := { (ir 1).sys with role := { s.sys.role with state := 0, challenge := [] } } }) ∧
    (∀ a size, (pathOpen s .aperture 3 = false → exec (.debugApertureRead true a size time) s = .next (answer 0 { s with now := now })) ∧
      (pathOpen s .aperture 3 = true → ∃ t, exec (.debugApertureRead true a size time) s = .next t ∧ sameBytes s t ∧
        t.regs.lastBytes = (peekDev { s with now := now } none a size).data) ∧
      (pathOpen s .aperture 1 = false → exec (.debugApertureRead false a size time) s = .next (answer 0 { s with now := now })) ∧
      (pathOpen s .aperture 1 = true → a % 4 = 0 → a < 0x1602000 ∨ 0x1604000 ≤ a →
        exec (.debugApertureRead false a 4 time) s = .next (answer (regValue { s with now := now } (a / 8 * 8) / 2 ^ (a % 8 * 8) % 2 ^ 32) { s with now := now })))

/-- Register accesses (R5 to R10, R528, R535, R558): on a path that does not reach the registers a write does nothing and a read returns all ones; an access of
another size, misaligned or where no register lies is counted and changes nothing; a write stores RW fields, leaves RO fields, clears W1C fields, is refused and
counted at a locked RWL field, a WOT field written already, and an installer's field without the right, and drops a field that it reaches in part; a failed
range check keeps the whole register; a register that waits for its boundary keeps the value in force. A 32-bit read is a peek; a 64-bit read of the PF takes
its side effect. A steward's store under the lock that it holds is staged. The selectors take their snapshots (R239, R294, R539, R549, R554), and a bridge with
more lost lanes than spares is recorded (R17). -/
def Obligations.RegisterAccess : Prop :=
  ∀ (s : State) (time : Nat),
    let now := max s.now time
    let s0 := { s with now := now }
    let noPf := s.sys.role.state ≠ 2 ∨ s.sys.role.channel ≠ 0
    let kept := fun (t : State) => t = { s0 with
      sys := { s.sys with role := { s.sys.role with lastWrite := t.sys.role.lastWrite } }
      regs := { s.regs with vals := t.regs.vals, old := t.regs.old } }
    let onlyReg := fun (off : Nat) (t : State) => kept t ∧ ∀ k, k ≠ off → rget t k = rget s k
    let refusedAt := fun (base off : Nat) (t : State) => rget t (base + 0xF8) = min 0xFFFFFFFF (rget s (base + 0xF8) + 1) ∧
      (∀ k, k ≠ base + 0xF8 → k ≠ off → rget t k = rget s k) ∧ rfield t off 31 0 = rfield s off 31 0 ∧ (∃ r, r ∈ t.sys.refused ∧ r.off = off) ∧ t.regs.wot = s.regs.wot ∧ t.mem = s.mem ∧ t.book = s.book
    (∀ p off size v g ins, pathOpen s p 2 = false → exec (.registerWrite p off size v g ins time) s = .next s0) ∧
    (∀ p off size, pathOpen s p 1 = false → exec (.rcRead p off size time) s = .next (answer (2 ^ (8 * min size 8) - 1) s0)) ∧
    (∀ off size v g ins, pathOpen s .pf 2 = true → noPf → ¬((size = 4 ∨ size = 8) ∧ off % size = 0) →
      exec (.registerWrite .pf off size v g ins time) s = .next (accessFault (faultBase off) s0) ∧
      exec (.rcRead .pf off size time) s = .next (answer (2 ^ (8 * min size 8) - 1) (accessFault (faultBase off) s0))) ∧
    (∀ off v g ins, pathOpen s .pf 2 = true → noPf → off % 8 = 0 →
      (locate off = none → exec (.registerWrite .pf off 8 v g ins time) s = .next (accessFault 0 s0)) ∧
      ∀ blk win o, locate off = some (blk, win, o) → o ≠ 0xF0 → o ≠ 0xF8 → findReg blk win o = none →
        exec (.registerWrite .pf off 8 v g ins time) s = .next (accessFault (blockBase blk win) s0)) ∧
    (pathOpen s .pf 2 = true → ∀ g ins v,
      (∃ t, exec (.registerWrite .pf 0 8 v g ins time) s = .next t ∧ kept t ∧ t.regs = s.regs) ∧
      (∃ t, exec (.registerWrite .pf 0x1800010 8 v g ins time) s = .next t ∧ onlyReg 0x1800010 t ∧ rget t 0x1800010 = v % 2 ^ 64) ∧
      (∀ half, half < 2 → ∃ t, exec (.registerWrite .pf (0x1800010 + 4 * half) 4 v g ins time) s = .next t ∧ onlyReg 0x18000F0 t ∧
        rget t 0x18000F0 = min 0xFFFFFFFF (rget s 0x18000F0 + 1)) ∧
      (∃ t, exec (.registerWrite .pf 0x410 4 v g ins time) s = .next t ∧ onlyReg 0x410 t ∧ bitsOf (rget t 0x410) 15 0 = v % 65536) ∧
      (∃ t, exec (.registerWrite .pf 0x414 4 v g ins time) s = .next t ∧ kept t ∧ t.regs = s.regs) ∧
      (∃ t, exec (.registerWrite .pf 0x208 8 v g ins time) s = .next t ∧ t.sys.done = (s.sys.done && !bitOf v 14) ∧ t.sys.failed = (s.sys.failed && !bitOf v 15) ∧
        t.sys.drainOut = (s.sys.drainOut && !bitOf v 16) ∧ kept { t with sys := { t.sys with done := s.sys.done, failed := s.sys.failed, drainOut := s.sys.drainOut } } ∧
        t.regs = s.regs) ∧
      (∃ t, exec (.registerWrite .pf 0x400018 8 v g ins time) s = .next t ∧ (bitsOf v 5 0 ≤ 55 → onlyReg 0x400018 t ∧ rfield t 0x400018 5 0 = bitsOf v 5 0) ∧
        (55 < bitsOf v 5 0 → onlyReg 0x4000F0 t ∧ rget t 0x4000F0 = min 0xFFFFFFFF (rget s 0x4000F0 + 1))) ∧
      (∃ t, exec (.registerWrite .pf 0x100020 8 v g ins time) s = .next t ∧ kept t ∧ inForce t 0x100020 = inForce s 0x100020 ∧
        (bitsOf v 13 8 ≤ 50 → bitsOf v 13 8 ≤ bitsOf v 6 0 → rfield t 0x100020 6 0 = min 100 (bitsOf v 6 0) ∧ rfield t 0x100020 13 8 = bitsOf v 13 8 ∧
          rfield t 0x100020 22 16 = min 100 (bitsOf v 22 16)) ∧
        (50 < bitsOf v 13 8 ∨ min 100 (bitsOf v 6 0) < bitsOf v 13 8 → onlyReg 0x1000F0 t)) ∧
      (v < 2 ^ 32 → v ≠ rfield s 0x1800060 31 0 → ∃ t, exec (.registerWrite .pf 0x1800060 8 v g ins time) s = .next t ∧
        (hasRight s 0 0 = false ∨ s.regs.wot.contains 0x1800060 = true → refusedAt 0x1800000 0x1800060 t) ∧
        (hasRight s 0 0 = true → s.regs.wot.contains 0x1800060 = false → rfield t 0x1800060 31 0 = v ∧ t.regs.wot.contains 0x1800060 = true ∧ audited s t ∧
          ∀ k, k ≠ 0x1800060 → rget t k = rget s k)) ∧
      (v < 2 ^ 32 → v ≠ rfield s 0x1800050 31 0 → ∃ t, exec (.registerWrite .pf 0x1800050 8 v g ins time) s = .next t ∧
        (hasRight s 0 0 = false ∨ bitOf s.sys.lockBits 13 = true → refusedAt 0x1800000 0x1800050 t) ∧
        (hasRight s 0 0 = true → bitOf s.sys.lockBits 13 = false → rfield s 0x1800050 31 0 < v → rfield t 0x1800050 31 0 = v ∧ audited s t ∧
          ∀ k, k ≠ 0x1800050 → rget t k = rget s k) ∧
        (hasRight s 0 0 = true → bitOf s.sys.lockBits 13 = false → v < rfield s 0x1800050 31 0 → onlyReg 0x18000F0 t ∧
          rget t 0x18000F0 = min 0xFFFFFFFF (rget s 0x18000F0 + 1)))) ∧
    (pathOpen s .pf 1 = true → ∀ off, off % 8 = 0 → off < 0x1602000 ∨ 0x1604000 ≤ off → off ≠ 0x1600018 →
      (exec (.rcRead .pf off 8 time) s = .next (answer (regValue s0 off) (clearRc off s0))) ∧
      (exec (.rcRead .pf off 4 time) s = .next (answer (regValue s0 off % 2 ^ 32) s0)) ∧
      (exec (.rcRead .pf (off + 4) 4 time) s = .next (answer (regValue s0 off / 2 ^ 32 % 2 ^ 32) s0)) ∧
      (∀ n, n < 320 → off = 0x2000040 + n * 0x10000 → ∃ t, exec (.rcRead .pf off 8 time) s = .next t ∧
        shopOf t n = { shopOf s n with fault := none, faultOver := false } ∧ otherShops n s t ∧ t = { s0 with shops := t.shops, regs := { s.regs with last := t.regs.last } }) ∧
      ((off % 0x1000 = 0xF0 ∨ off % 0x1000 = 0xF8) → off < 0x800000 → off % 0x100000 < 0x1000 → ∃ t, exec (.rcRead .pf off 8 time) s = .next t ∧
        rget t off = 0 ∧ ∀ k, k ≠ off → rget t k = rget s k)) ∧
    (∀ ten, pathOpen s (.vf (ten + 1)) 1 = true → ten < 4096 →
      (s.ready = false → ∀ off size, exec (.rcRead (.vf (ten + 1)) off size time) s = .next (answer 0 s0)) ∧
      (s.ready = true → (exec (.rcRead (.vf (ten + 1)) 0 8 time) s = .next (answer (vfStatus s0 ten) s0)) ∧
        ∃ t, exec (.rcRead (.vf (ten + 1)) 0x10 8 time) s = .next t ∧ ringOf t ten = { ringOf s ten with lost := 0 } ∧
          t.regs.last = BitVec.ofNat 64 ((ringOf s ten).lost % 2 ^ 32) ∧ ∀ j, j ≠ ten → ringOf t j = ringOf s j) ∧
      (∀ v g ins, ∃ t, exec (.registerWrite (.vf (ten + 1)) 0x8000 8 v g ins time) s = .next t ∧ ringOf t ten = { ringOf s ten with msixAddr := v % 2 ^ 64 } ∧
        (∀ j, j ≠ ten → ringOf t j = ringOf s j) ∧ t = { s0 with host := t.host })) ∧
    (∀ h k off v ins, pathOpen s (.steward h) 2 = true → k < 256 →
      let lock := tget DevLock.reset s.sys.locks k
      let write := exec (.registerWrite (.steward h) off 8 v (some k) ins time) s
      ((∀ e, lock.lease = some e → now < e) → lock.owner ≠ h + 1 → write = exec (.registerWrite (.steward h) off 8 v none ins time) s) ∧
      ((∀ e, lock.lease = some e → now < e) → lock.owner = h + 1 → ∃ t, write = .next t ∧ t = { s0 with sys := { s.sys with locks := t.sys.locks } } ∧
        (∀ j, j ≠ k → tget DevLock.reset t.sys.locks j = tget DevLock.reset s.sys.locks j) ∧
        tget DevLock.reset t.sys.locks k = if lock.staged.length < 64 then { lock with staged := lock.staged ++ [⟨true, off, v, ins⟩] }
          else ⟨0, (lock.epoch + 1) % 2 ^ 24, [], none, lock.owner % 16⟩)) ∧
    (∀ n, pathOpen s .pf 0 = false → exec (.obkSel n) s = .next s ∧ exec (.plcMapSel n) s = .next s ∧ exec (.statTsel n) s = .next s ∧
      exec (.statBsel n) s = .next s ∧ exec (.roleAuditSel n) s = .next s) ∧
    (pathOpen s .pf 0 = true → noPf →
      let vals := fun (off n : Nat) (t : State) => rfield t off 63 0 = n ∧ ∀ k, k ≠ off → rget t k = rget s k
      (∀ n, n < 65536 → ∃ t, exec (.obkSel n) s = .next t ∧ vals 0x600010 n t ∧ t = { s with
        book := { s.book with shown := entryWords (orderOf s n) }
        regs := { s.regs with vals := t.regs.vals } }) ∧
      (∀ n, n < 2 ^ 24 → ∃ t, exec (.plcMapSel n) s = .next t ∧ vals 0x500010 n t ∧ t = { s with
        sys := { s.sys with mapShown := mapWord (mapEnt s n) }
        regs := { s.regs with vals := t.regs.vals } }) ∧
      (∀ n, n < 4096 → ∃ t, exec (.statTsel n) s = .next t ∧ vals 0x1A00048 n t ∧
        t.stat = if s.stat.busy then { s.stat with waitTsel := some n } else { s.stat with tval := (List.range 10).map (fun i => tget 0 s.regs.tlatched (n * 16 + i)) }) ∧
      (∀ kind unit, (kind = 1 ∧ unit < 4) ∨ (kind = 2 ∧ unit < 320) ∨ (kind = 4 ∧ unit < 12) →
        scopeAbsent s (if kind = 1 then 1 else if kind = 2 then 0 else 2) unit = false →
        ∃ t, exec (.statBsel (kind + unit * 16)) s = .next t ∧ vals 0x1A000A0 (kind + unit * 16) t ∧
          t.stat = if s.stat.busy then { s.stat with waitBsel := some (kind + unit * 16) }
            else { s.stat with bval := (List.range 4).map (fun i => tget 0 s.regs.bcopy ((kind * 512 + unit) * 4 + i)), bellSeq := s.stat.copyBell }) ∧
      (∀ n, n < 2 ^ 32 → ∃ t, exec (.roleAuditSel n) s = .next t ∧ vals 0x1800070 n t ∧ t = { s with
          sys := { s.sys with auditShown := t.sys.auditShown, auditRead := t.sys.auditRead }
          regs := { s.regs with vals := t.regs.vals } } ∧
        (auditFind s n = none → t.sys.auditShown = List.replicate 8 0 ∧ t.sys.auditRead = s.sys.auditRead) ∧
        ∀ w, auditFind s n = some w → t.sys.auditShown = w ∧ ∀ q, q ∈ t.sys.auditRead ↔ q = n ∨ q ∈ s.sys.auditRead)) ∧
    (∀ bridge lost spares, (bridge < 4 → spares < lost → ∃ t, exec (.bridgeLaneLoss bridge lost spares) s = .next t ∧ rasLogged 0x14 (unitWord 1 bridge 0) s t) ∧
      (4 ≤ bridge ∨ lost ≤ spares → exec (.bridgeLaneLoss bridge lost spares) s = .next s))

/-- The board management port (R344, R580, R581): it answers while 3.3 V auxiliary is in range, each command with its block, of length 0 where its data needs
12 V domains or the end of bring-up step 1 that are not there; a register read is a peek at REG_ADDR, a register write is one on the SMBus path, and the address
advances by 8. -/
def Obligations.ManagementPort : Prop :=
  ∀ (s : State) (time : Nat),
    let s0 := { s with now := max s.now time }
    let temps := fun (units : List Nat) => units.flatMap (fun u => leBytes 2 (codeOf 16 (unitTemp s u)))
    let up := pathOpen s .smbus 2
    let next := fun (t : State) => { t with sys := { t.sys with smbAddr := (t.sys.smbAddr + 8) % 2 ^ 32 } }
    (s.sys.aux = false → (∀ c, c ∈ [Instr.ident, .state, .alert, .trip, .quarters, .stackTemps, .channels, .links] → exec c s = .next s) ∧
      (∀ mv a, exec (.power mv a) s = .next s) ∧ ∀ off, exec (.regAddr off) s = .next s) ∧
    (s.sys.aux = true →
      (exec .ident s = .next (answerBytes (leBytes 8 (identWord s) ++ leBytes 8 deviceSerial) s)) ∧
      (exec .state s = .next (answerBytes (leBytes 1 (if s.therm.tripLatch then 4 else if s.sys.powered = false then 0 else if s.sys.stage = 7 then 2
        else if s.sys.stage = 8 then 3 else if s.sys.origin = 2 then 5 else 1) ++ leBytes 8 (if s.sys.powered then bootStatus s else 0)) s)) ∧
      (exec .alert s = .next (answerBytes (leBytes 8 (unitStatus s) ++ leBytes 8 (extStatus s) ++ leBytes 8 (failStatus s)) s)) ∧
      (exec .trip s = .next (answerBytes (leBytes 8 (tripWord s)) s)) ∧
      (exec .quarters s = .next (answerBytes (temps [12, 13, 14, 15]) s)) ∧
      (exec .stackTemps s = .next (answerBytes (temps (List.range 12)) s)) ∧
      (∃ t, exec .channels s = .next t ∧ t = answerBytes t.regs.lastBytes s ∧ t.regs.lastBytes.length = 112 ∧ ∀ c, c < 56 →
        leAt t.regs.lastBytes (2 * c) 2 = (if chanEnabled s c = true ∧ (chanOf s c).state = 0 then (chanOf s c).reading else 0x8000) % 65536) ∧
      (∀ mv a, exec (.power mv a) s = .next (answerBytes (if s.sys.powered then
        leBytes 2 mv ++ leBytes 2 a ++ leBytes 4 s.sched.lastMeasured ++ leBytes 4 (rfield s 0x300000 6 0 * 50) else []) s)) ∧
      (∃ t, exec .links s = .next t ∧ t = answerBytes t.regs.lastBytes s ∧ (up = false → t.regs.lastBytes = []) ∧
        (up = true → t.regs.lastBytes.length = 22 ∧ leAt t.regs.lastBytes 0 1 = s.host.width % 256 ∧ leAt t.regs.lastBytes 1 1 = s.host.speed % 256 ∧
          (∀ n, n < 16 → leAt t.regs.lastBytes (2 + n) 1 = portShown s n % 256) ∧ ∀ p, p < 4 → leAt t.regs.lastBytes (18 + p) 1 = (farPort s p).state % 256)) ∧
      (∀ off, exec (.regAddr off) s = .next (if off % 8 = 0 then { s with sys := { s.sys with smbAddr := off % 2 ^ 32 } } else s)) ∧
      (up = false → exec (.regDataRead time) s = .next (answerBytes [] s0)) ∧
      (up = true → s.sys.smbAddr % 8 = 0 → exec (.regDataRead time) s = .next (next (answerBytes (leBytes 8
        (if 0x1602000 ≤ s.sys.smbAddr ∧ s.sys.smbAddr < 0x1604000 then 0x3FF else if s.sys.smbAddr = 0x1600018 then 0 else regValue s0 s.sys.smbAddr)) s0)))) ∧
    (∀ v ins, up = false → exec (.regDataWrite v ins time) s = .next s0) ∧
    (∀ v ins, up = true → ∃ t, exec (.registerWrite .smbus s.sys.smbAddr 8 v none ins time) s = .next t ∧ exec (.regDataWrite v ins time) s = .next (next t)) ∧
    (∀ v ins blk win o, up = true → s.sys.role.state ≠ 2 ∨ s.sys.role.channel ≠ 1 → s.sys.smbAddr % 8 = 0 → locate s.sys.smbAddr = some (blk, win, o) →
      (findReg blk win o).isSome = true → s.sys.smbAddr < 0x1800000 ∨ 0x1800800 ≤ s.sys.smbAddr →
      ∃ t, exec (.regDataWrite v ins time) s = .next t ∧ rget t (blockBase blk win + 0xF8) = min 0xFFFFFFFF (rget s (blockBase blk win + 0xF8) + 1) ∧
        (∀ k, k ≠ blockBase blk win + 0xF8 → rget t k = rget s k) ∧ t.mem = s.mem ∧ t.book = s.book ∧ t.bal = s.bal ∧ t.sched = s.sched ∧ t.stat = s.stat)
end

