-- ==== Sys2Proof/Laws/Tbl.lean ====
section
/-! SUPPORT. What the sparse tables' operations do: read after write, writes elsewhere, the canonical form kept. -/

namespace Sys2Proof.Machine

variable {α : Type}

theorem tget_tdel_same (d : α) (t : Tbl α) (k : Nat) : tget d (tdel t k) k = d := by
  induction t with
  | nil => rfl
  | cons p t ih =>
    by_cases h : p.1 = k <;> simp_all [tdel, tget]

theorem tget_tdel_other (d : α) (t : Tbl α) {k j : Nat} (h : j ≠ k) : tget d (tdel t k) j = tget d t j := by
  induction t with
  | nil => rfl
  | cons p t ih =>
    by_cases h1 : p.1 = k
    · have : p.1 ≠ j := by omega
      simp_all [tdel, tget]
    · by_cases h2 : p.1 = j <;> simp_all [tdel, tget]

theorem tget_tins_same (d : α) (t : Tbl α) (k : Nat) (v : α) (h : ∀ p ∈ t, p.1 ≠ k) : tget d (tins t k v) k = v := by
  induction t with
  | nil => simp [tins, tget]
  | cons p t ih =>
    have hp : p.1 ≠ k := h p (by simp)
    have ht : ∀ q ∈ t, q.1 ≠ k := fun q hq => h q (by simp [hq])
    by_cases h1 : k < p.1 <;> simp [tins, tget, h1, hp, ih ht]

theorem tget_tins_other (d : α) (t : Tbl α) {k j : Nat} (v : α) (h : j ≠ k) : tget d (tins t k v) j = tget d t j := by
  induction t with
  | nil => simp [tins, tget, Ne.symm h]
  | cons p t ih =>
    by_cases h1 : k < p.1
    · simp [tins, tget, h1, Ne.symm h]
    · simp [tins, tget, h1, ih]

theorem tdel_keys (t : Tbl α) (k : Nat) : ∀ p ∈ tdel t k, p.1 ≠ k := by
  intro p hp; simpa [tdel] using (List.mem_filter.1 hp).2

/-- Reading the key just written gives the value written. -/
@[simp] theorem tget_tset_same [DecidableEq α] (d : α) (t : Tbl α) (k : Nat) (v : α) : tget d (tset d t k v) k = v := by
  unfold tset; split
  · simp_all [tget_tdel_same]
  · exact tget_tins_same d _ k v (tdel_keys t k)

/-- A write leaves every other key alone. -/
theorem tget_tset_other [DecidableEq α] (d : α) (t : Tbl α) {k j : Nat} (v : α) (h : j ≠ k) :
    tget d (tset d t k v) j = tget d t j := by
  unfold tset; split
  · exact tget_tdel_other d t h
  · rw [tget_tins_other d _ v h, tget_tdel_other d t h]

theorem tsorted_cons {p : Nat × α} {t : Tbl α} :
    tsorted (p :: t) = true ↔ (∀ q ∈ t, p.1 < q.1) ∧ tsorted t = true := by
  induction t generalizing p with
  | nil => simp [tsorted]
  | cons q t ih =>
    simp only [tsorted, Bool.and_eq_true, decide_eq_true_eq, List.mem_cons, forall_eq_or_imp]
    constructor
    · rintro ⟨h1, h2⟩
      have := (ih (p := q)).1 h2
      exact ⟨⟨h1, fun r hr => lt_trans h1 (this.1 r hr)⟩, h2⟩
    · rintro ⟨⟨h1, _⟩, h2⟩; exact ⟨h1, h2⟩

theorem tsorted_filter (t : Tbl α) (p : Nat × α → Bool) (h : tsorted t = true) : tsorted (t.filter p) = true := by
  induction t with
  | nil => rfl
  | cons q t ih =>
    rw [tsorted_cons] at h
    by_cases hq : p q
    · rw [List.filter_cons_of_pos hq, tsorted_cons]
      exact ⟨fun r hr => h.1 r (List.mem_filter.1 hr).1, ih h.2⟩
    · rw [List.filter_cons_of_neg (by simpa using hq)]; exact ih h.2

theorem tins_mem (t : Tbl α) (k : Nat) (v : α) : ∀ q ∈ tins t k v, q = (k, v) ∨ q ∈ t := by
  induction t with
  | nil => simp [tins]
  | cons p t ih =>
    intro q hq
    by_cases h1 : k < p.1
    · simpa [tins, h1] using hq
    · simp only [tins, h1, if_false, List.mem_cons] at hq
      rcases hq with rfl | hq
      · simp
      · rcases ih q hq with rfl | h <;> simp [*]

theorem tsorted_tins (t : Tbl α) (k : Nat) (v : α) (h : tsorted t = true) (hk : ∀ p ∈ t, p.1 ≠ k) :
    tsorted (tins t k v) = true := by
  induction t with
  | nil => rfl
  | cons p t ih =>
    rw [tsorted_cons] at h
    by_cases h1 : k < p.1
    · simp only [tins, h1, if_true]
      rw [tsorted_cons, tsorted_cons]
      refine ⟨?_, h⟩
      intro q hq
      rcases List.mem_cons.1 hq with rfl | hq
      · exact h1
      · exact lt_trans h1 (h.1 q hq)
    · simp only [tins, h1, if_false]
      rw [tsorted_cons]
      refine ⟨?_, ih h.2 (fun q hq => hk q (by simp [hq]))⟩
      intro q hq
      have hp := hk p (by simp)
      rcases tins_mem t k v q hq with rfl | hq
      · show p.1 < k
        omega
      · exact h.1 q hq

/-- Setting a value keeps the canonical form. -/
theorem twf_tset [DecidableEq α] (d : α) (t : Tbl α) (k : Nat) (v : α) (h : twf d t = true) :
    twf d (tset d t k v) = true := by
  simp only [twf, Bool.and_eq_true, List.all_eq_true, decide_eq_true_eq] at h ⊢
  have hf : tsorted (tdel t k) = true := tsorted_filter t _ h.1
  have hd : ∀ q ∈ tdel t k, q.2 ≠ d := fun q hq => h.2 q (List.mem_filter.1 hq).1
  unfold tset
  split
  · exact ⟨hf, hd⟩
  · refine ⟨tsorted_tins _ k v hf (tdel_keys t k), ?_⟩
    intro q hq
    rcases tins_mem _ k v q hq with rfl | hq
    · assumption
    · exact hd q hq

theorem twf_tmod [DecidableEq α] (d : α) (t : Tbl α) (k : Nat) (f : α → α) (h : twf d t = true) :
    twf d (tmod d t k f) = true := twf_tset d t k _ h

@[simp] theorem twf_nil [DecidableEq α] (d : α) : twf d ([] : Tbl α) = true := rfl

end Sys2Proof.Machine
end

