-- ==== Sys2Proof/Laws/State.lean ====
section
/-! SUPPORT. What each named update of the state leaves alone, field by field, and what reading the updated entry gives. -/

namespace Sys2Proof.Machine

/-! ### The fields that an update leaves alone -/

@[simp] theorem bump_fields (off n : Nat) (s : State) :
    (bump off n s).now = s.now ∧ (bump off n s).bell = s.bell ∧ (bump off n s).ready = s.ready ∧ (bump off n s).freeCtr = s.freeCtr ∧
    (bump off n s).mem = s.mem ∧ (bump off n s).stks = s.stks ∧ (bump off n s).host = s.host ∧ (bump off n s).tal = s.tal ∧
    (bump off n s).ras = s.ras ∧ (bump off n s).stat = s.stat ∧ (bump off n s).shops = s.shops ∧ (bump off n s).benches = s.benches ∧
    (bump off n s).sched = s.sched ∧ (bump off n s).book = s.book ∧ (bump off n s).selectors = s.selectors ∧ (bump off n s).grammars = s.grammars ∧
    (bump off n s).fulStacks = s.fulStacks ∧ (bump off n s).fullers = s.fullers ∧ (bump off n s).bal = s.bal ∧ (bump off n s).therm = s.therm ∧
    (bump off n s).jobs = s.jobs ∧ (bump off n s).sys = s.sys ∧ (bump off n s).pending = s.pending := by
  dsimp only [bump]; split <;> (and_intros <;> rfl)

@[simp] theorem bumpTenant_fields (t : Option Nat) (idx n : Nat) (s : State) :
    (bumpTenant t idx n s).now = s.now ∧ (bumpTenant t idx n s).bell = s.bell ∧ (bumpTenant t idx n s).ready = s.ready ∧
    (bumpTenant t idx n s).freeCtr = s.freeCtr ∧ (bumpTenant t idx n s).mem = s.mem ∧ (bumpTenant t idx n s).stks = s.stks ∧
    (bumpTenant t idx n s).host = s.host ∧ (bumpTenant t idx n s).tal = s.tal ∧ (bumpTenant t idx n s).ras = s.ras ∧
    (bumpTenant t idx n s).stat = s.stat ∧ (bumpTenant t idx n s).shops = s.shops ∧ (bumpTenant t idx n s).benches = s.benches ∧
    (bumpTenant t idx n s).sched = s.sched ∧ (bumpTenant t idx n s).book = s.book ∧ (bumpTenant t idx n s).selectors = s.selectors ∧
    (bumpTenant t idx n s).grammars = s.grammars ∧ (bumpTenant t idx n s).fulStacks = s.fulStacks ∧ (bumpTenant t idx n s).fullers = s.fullers ∧
    (bumpTenant t idx n s).bal = s.bal ∧ (bumpTenant t idx n s).therm = s.therm ∧ (bumpTenant t idx n s).jobs = s.jobs ∧
    (bumpTenant t idx n s).sys = s.sys ∧ (bumpTenant t idx n s).pending = s.pending := by
  dsimp only [bumpTenant]; split <;> (and_intros <;> rfl)

@[simp] theorem bumpBell_fields (kind unit idx n : Nat) (s : State) :
    (bumpBell kind unit idx n s).now = s.now ∧ (bumpBell kind unit idx n s).bell = s.bell ∧ (bumpBell kind unit idx n s).ready = s.ready ∧
    (bumpBell kind unit idx n s).freeCtr = s.freeCtr ∧ (bumpBell kind unit idx n s).mem = s.mem ∧ (bumpBell kind unit idx n s).stks = s.stks ∧
    (bumpBell kind unit idx n s).host = s.host ∧ (bumpBell kind unit idx n s).tal = s.tal ∧ (bumpBell kind unit idx n s).ras = s.ras ∧
    (bumpBell kind unit idx n s).stat = s.stat ∧ (bumpBell kind unit idx n s).shops = s.shops ∧ (bumpBell kind unit idx n s).benches = s.benches ∧
    (bumpBell kind unit idx n s).sched = s.sched ∧ (bumpBell kind unit idx n s).book = s.book ∧
    (bumpBell kind unit idx n s).selectors = s.selectors ∧ (bumpBell kind unit idx n s).grammars = s.grammars ∧
    (bumpBell kind unit idx n s).fulStacks = s.fulStacks ∧ (bumpBell kind unit idx n s).fullers = s.fullers ∧
    (bumpBell kind unit idx n s).bal = s.bal ∧ (bumpBell kind unit idx n s).therm = s.therm ∧ (bumpBell kind unit idx n s).jobs = s.jobs ∧
    (bumpBell kind unit idx n s).sys = s.sys ∧ (bumpBell kind unit idx n s).pending = s.pending := by
  and_intros <;> rfl

@[simp] theorem atTime_fields (t : Nat) (s : State) :
    (atTime t s).bell = s.bell ∧ (atTime t s).ready = s.ready ∧ (atTime t s).freeCtr = s.freeCtr ∧ (atTime t s).regs = s.regs ∧
    (atTime t s).mem = s.mem ∧ (atTime t s).stks = s.stks ∧ (atTime t s).host = s.host ∧ (atTime t s).tal = s.tal ∧ (atTime t s).ras = s.ras ∧
    (atTime t s).stat = s.stat ∧ (atTime t s).shops = s.shops ∧ (atTime t s).benches = s.benches ∧ (atTime t s).sched = s.sched ∧
    (atTime t s).book = s.book ∧ (atTime t s).selectors = s.selectors ∧ (atTime t s).grammars = s.grammars ∧ (atTime t s).fulStacks = s.fulStacks ∧
    (atTime t s).fullers = s.fullers ∧ (atTime t s).bal = s.bal ∧ (atTime t s).therm = s.therm ∧ (atTime t s).jobs = s.jobs ∧
    (atTime t s).sys = s.sys ∧ (atTime t s).pending = s.pending := by
  and_intros <;> rfl

@[simp] theorem answer_fields (v : Nat) (s : State) :
    (answer v s).now = s.now ∧ (answer v s).bell = s.bell ∧ (answer v s).ready = s.ready ∧ (answer v s).freeCtr = s.freeCtr ∧
    (answer v s).mem = s.mem ∧ (answer v s).stks = s.stks ∧ (answer v s).host = s.host ∧ (answer v s).tal = s.tal ∧ (answer v s).ras = s.ras ∧
    (answer v s).stat = s.stat ∧ (answer v s).shops = s.shops ∧ (answer v s).benches = s.benches ∧ (answer v s).sched = s.sched ∧
    (answer v s).book = s.book ∧ (answer v s).selectors = s.selectors ∧ (answer v s).grammars = s.grammars ∧ (answer v s).fulStacks = s.fulStacks ∧
    (answer v s).fullers = s.fullers ∧ (answer v s).bal = s.bal ∧ (answer v s).therm = s.therm ∧ (answer v s).jobs = s.jobs ∧
    (answer v s).sys = s.sys ∧ (answer v s).pending = s.pending := by
  and_intros <;> rfl

@[simp] theorem answerBytes_fields (l : List Byte) (s : State) :
    (answerBytes l s).now = s.now ∧ (answerBytes l s).bell = s.bell ∧ (answerBytes l s).ready = s.ready ∧ (answerBytes l s).freeCtr = s.freeCtr ∧
    (answerBytes l s).mem = s.mem ∧ (answerBytes l s).stks = s.stks ∧ (answerBytes l s).host = s.host ∧ (answerBytes l s).tal = s.tal ∧
    (answerBytes l s).ras = s.ras ∧ (answerBytes l s).stat = s.stat ∧ (answerBytes l s).shops = s.shops ∧ (answerBytes l s).benches = s.benches ∧
    (answerBytes l s).sched = s.sched ∧ (answerBytes l s).book = s.book ∧ (answerBytes l s).selectors = s.selectors ∧
    (answerBytes l s).grammars = s.grammars ∧ (answerBytes l s).fulStacks = s.fulStacks ∧ (answerBytes l s).fullers = s.fullers ∧
    (answerBytes l s).bal = s.bal ∧ (answerBytes l s).therm = s.therm ∧ (answerBytes l s).jobs = s.jobs ∧ (answerBytes l s).sys = s.sys ∧
    (answerBytes l s).pending = s.pending := by
  and_intros <;> rfl

@[simp] theorem modStack_fields (n : Nat) (f : StackSt → StackSt) (s : State) :
    (modStack n f s).now = s.now ∧ (modStack n f s).bell = s.bell ∧ (modStack n f s).ready = s.ready ∧ (modStack n f s).freeCtr = s.freeCtr ∧
    (modStack n f s).regs = s.regs ∧ (modStack n f s).mem = s.mem ∧ (modStack n f s).host = s.host ∧ (modStack n f s).tal = s.tal ∧
    (modStack n f s).ras = s.ras ∧ (modStack n f s).stat = s.stat ∧ (modStack n f s).shops = s.shops ∧ (modStack n f s).benches = s.benches ∧
    (modStack n f s).sched = s.sched ∧ (modStack n f s).book = s.book ∧ (modStack n f s).selectors = s.selectors ∧
    (modStack n f s).grammars = s.grammars ∧ (modStack n f s).fulStacks = s.fulStacks ∧ (modStack n f s).fullers = s.fullers ∧
    (modStack n f s).bal = s.bal ∧ (modStack n f s).therm = s.therm ∧ (modStack n f s).jobs = s.jobs ∧ (modStack n f s).sys = s.sys ∧
    (modStack n f s).pending = s.pending := by
  and_intros <;> rfl

@[simp] theorem modRing_fields (r : Nat) (f : RingSet → RingSet) (s : State) :
    (modRing r f s).now = s.now ∧ (modRing r f s).bell = s.bell ∧ (modRing r f s).ready = s.ready ∧ (modRing r f s).freeCtr = s.freeCtr ∧
    (modRing r f s).regs = s.regs ∧ (modRing r f s).mem = s.mem ∧ (modRing r f s).stks = s.stks ∧ (modRing r f s).tal = s.tal ∧
    (modRing r f s).ras = s.ras ∧ (modRing r f s).stat = s.stat ∧ (modRing r f s).shops = s.shops ∧ (modRing r f s).benches = s.benches ∧
    (modRing r f s).sched = s.sched ∧ (modRing r f s).book = s.book ∧ (modRing r f s).selectors = s.selectors ∧
    (modRing r f s).grammars = s.grammars ∧ (modRing r f s).fulStacks = s.fulStacks ∧ (modRing r f s).fullers = s.fullers ∧
    (modRing r f s).bal = s.bal ∧ (modRing r f s).therm = s.therm ∧ (modRing r f s).jobs = s.jobs ∧ (modRing r f s).sys = s.sys ∧
    (modRing r f s).pending = s.pending := by
  and_intros <;> rfl

@[simp] theorem hostWrite_fields (a : Nat) (l : List Byte) (s : State) :
    (hostWrite a l s).now = s.now ∧ (hostWrite a l s).bell = s.bell ∧ (hostWrite a l s).ready = s.ready ∧ (hostWrite a l s).freeCtr = s.freeCtr ∧
    (hostWrite a l s).regs = s.regs ∧ (hostWrite a l s).mem = s.mem ∧ (hostWrite a l s).stks = s.stks ∧ (hostWrite a l s).tal = s.tal ∧
    (hostWrite a l s).ras = s.ras ∧ (hostWrite a l s).stat = s.stat ∧ (hostWrite a l s).shops = s.shops ∧ (hostWrite a l s).benches = s.benches ∧
    (hostWrite a l s).sched = s.sched ∧ (hostWrite a l s).book = s.book ∧ (hostWrite a l s).selectors = s.selectors ∧
    (hostWrite a l s).grammars = s.grammars ∧ (hostWrite a l s).fulStacks = s.fulStacks ∧ (hostWrite a l s).fullers = s.fullers ∧
    (hostWrite a l s).bal = s.bal ∧ (hostWrite a l s).therm = s.therm ∧ (hostWrite a l s).jobs = s.jobs ∧ (hostWrite a l s).sys = s.sys ∧
    (hostWrite a l s).pending = s.pending := by
  and_intros <;> rfl

@[simp] theorem modFrame_fields (k : Nat) (f : Frame → Frame) (s : State) :
    (modFrame k f s).now = s.now ∧ (modFrame k f s).bell = s.bell ∧ (modFrame k f s).ready = s.ready ∧ (modFrame k f s).freeCtr = s.freeCtr ∧
    (modFrame k f s).regs = s.regs ∧ (modFrame k f s).stks = s.stks ∧ (modFrame k f s).host = s.host ∧ (modFrame k f s).tal = s.tal ∧
    (modFrame k f s).ras = s.ras ∧ (modFrame k f s).stat = s.stat ∧ (modFrame k f s).shops = s.shops ∧ (modFrame k f s).benches = s.benches ∧
    (modFrame k f s).sched = s.sched ∧ (modFrame k f s).book = s.book ∧ (modFrame k f s).selectors = s.selectors ∧
    (modFrame k f s).grammars = s.grammars ∧ (modFrame k f s).fulStacks = s.fulStacks ∧ (modFrame k f s).fullers = s.fullers ∧
    (modFrame k f s).bal = s.bal ∧ (modFrame k f s).therm = s.therm ∧ (modFrame k f s).jobs = s.jobs ∧ (modFrame k f s).sys = s.sys ∧
    (modFrame k f s).pending = s.pending := by
  and_intros <;> rfl

@[simp] theorem setLine_fields (ln : Nat) (bad : Bool) (s : State) :
    (setLine ln bad s).now = s.now ∧ (setLine ln bad s).bell = s.bell ∧ (setLine ln bad s).ready = s.ready ∧ (setLine ln bad s).freeCtr = s.freeCtr ∧
    (setLine ln bad s).regs = s.regs ∧ (setLine ln bad s).stks = s.stks ∧ (setLine ln bad s).host = s.host ∧ (setLine ln bad s).tal = s.tal ∧
    (setLine ln bad s).ras = s.ras ∧ (setLine ln bad s).stat = s.stat ∧ (setLine ln bad s).shops = s.shops ∧ (setLine ln bad s).benches = s.benches ∧
    (setLine ln bad s).sched = s.sched ∧ (setLine ln bad s).book = s.book ∧ (setLine ln bad s).selectors = s.selectors ∧
    (setLine ln bad s).grammars = s.grammars ∧ (setLine ln bad s).fulStacks = s.fulStacks ∧ (setLine ln bad s).fullers = s.fullers ∧
    (setLine ln bad s).bal = s.bal ∧ (setLine ln bad s).therm = s.therm ∧ (setLine ln bad s).jobs = s.jobs ∧ (setLine ln bad s).sys = s.sys ∧
    (setLine ln bad s).pending = s.pending := by
  and_intros <;> rfl

@[simp] theorem countHeat_fields (fk : Nat) (s : State) :
    (countHeat fk s).now = s.now ∧ (countHeat fk s).bell = s.bell ∧ (countHeat fk s).ready = s.ready ∧ (countHeat fk s).freeCtr = s.freeCtr ∧
    (countHeat fk s).regs = s.regs ∧ (countHeat fk s).stks = s.stks ∧ (countHeat fk s).host = s.host ∧ (countHeat fk s).tal = s.tal ∧
    (countHeat fk s).ras = s.ras ∧ (countHeat fk s).stat = s.stat ∧ (countHeat fk s).shops = s.shops ∧ (countHeat fk s).benches = s.benches ∧
    (countHeat fk s).sched = s.sched ∧ (countHeat fk s).book = s.book ∧ (countHeat fk s).selectors = s.selectors ∧
    (countHeat fk s).grammars = s.grammars ∧ (countHeat fk s).fulStacks = s.fulStacks ∧ (countHeat fk s).fullers = s.fullers ∧
    (countHeat fk s).bal = s.bal ∧ (countHeat fk s).therm = s.therm ∧ (countHeat fk s).jobs = s.jobs ∧ (countHeat fk s).sys = s.sys ∧
    (countHeat fk s).pending = s.pending := by
  and_intros <;> rfl

@[simp] theorem storeKeys_fields (l : List (Nat × Byte)) (s : State) :
    (storeKeys l s).now = s.now ∧ (storeKeys l s).bell = s.bell ∧ (storeKeys l s).ready = s.ready ∧ (storeKeys l s).freeCtr = s.freeCtr ∧
    (storeKeys l s).regs = s.regs ∧ (storeKeys l s).stks = s.stks ∧ (storeKeys l s).host = s.host ∧ (storeKeys l s).tal = s.tal ∧
    (storeKeys l s).ras = s.ras ∧ (storeKeys l s).stat = s.stat ∧ (storeKeys l s).shops = s.shops ∧ (storeKeys l s).benches = s.benches ∧
    (storeKeys l s).sched = s.sched ∧ (storeKeys l s).book = s.book ∧ (storeKeys l s).selectors = s.selectors ∧
    (storeKeys l s).grammars = s.grammars ∧ (storeKeys l s).fulStacks = s.fulStacks ∧ (storeKeys l s).fullers = s.fullers ∧
    (storeKeys l s).bal = s.bal ∧ (storeKeys l s).therm = s.therm ∧ (storeKeys l s).jobs = s.jobs ∧ (storeKeys l s).sys = s.sys ∧
    (storeKeys l s).pending = s.pending := by
  and_intros <;> rfl

@[simp] theorem wipeFrame_fields (k : Nat) (s : State) :
    (wipeFrame k s).now = s.now ∧ (wipeFrame k s).bell = s.bell ∧ (wipeFrame k s).ready = s.ready ∧ (wipeFrame k s).freeCtr = s.freeCtr ∧
    (wipeFrame k s).regs = s.regs ∧ (wipeFrame k s).stks = s.stks ∧ (wipeFrame k s).host = s.host ∧ (wipeFrame k s).tal = s.tal ∧
    (wipeFrame k s).ras = s.ras ∧ (wipeFrame k s).stat = s.stat ∧ (wipeFrame k s).shops = s.shops ∧ (wipeFrame k s).benches = s.benches ∧
    (wipeFrame k s).sched = s.sched ∧ (wipeFrame k s).book = s.book ∧ (wipeFrame k s).selectors = s.selectors ∧
    (wipeFrame k s).grammars = s.grammars ∧ (wipeFrame k s).fulStacks = s.fulStacks ∧ (wipeFrame k s).fullers = s.fullers ∧
    (wipeFrame k s).bal = s.bal ∧ (wipeFrame k s).therm = s.therm ∧ (wipeFrame k s).jobs = s.jobs ∧ (wipeFrame k s).sys = s.sys ∧
    (wipeFrame k s).pending = s.pending := by
  and_intros <;> rfl

@[simp] theorem setTally_fields (t : Nat) (v : Tally) (s : State) :
    (setTally t v s).now = s.now ∧ (setTally t v s).bell = s.bell ∧ (setTally t v s).ready = s.ready ∧ (setTally t v s).freeCtr = s.freeCtr ∧
    (setTally t v s).regs = s.regs ∧ (setTally t v s).mem = s.mem ∧ (setTally t v s).stks = s.stks ∧ (setTally t v s).host = s.host ∧
    (setTally t v s).ras = s.ras ∧ (setTally t v s).stat = s.stat ∧ (setTally t v s).shops = s.shops ∧ (setTally t v s).benches = s.benches ∧
    (setTally t v s).sched = s.sched ∧ (setTally t v s).book = s.book ∧ (setTally t v s).selectors = s.selectors ∧
    (setTally t v s).grammars = s.grammars ∧ (setTally t v s).fulStacks = s.fulStacks ∧ (setTally t v s).fullers = s.fullers ∧
    (setTally t v s).bal = s.bal ∧ (setTally t v s).therm = s.therm ∧ (setTally t v s).jobs = s.jobs ∧ (setTally t v s).sys = s.sys ∧
    (setTally t v s).pending = s.pending := by
  and_intros <;> rfl

@[simp] theorem modPort_fields (n : Nat) (f : PortSt → PortSt) (s : State) :
    (modPort n f s).now = s.now ∧ (modPort n f s).bell = s.bell ∧ (modPort n f s).ready = s.ready ∧ (modPort n f s).freeCtr = s.freeCtr ∧
    (modPort n f s).regs = s.regs ∧ (modPort n f s).mem = s.mem ∧ (modPort n f s).stks = s.stks ∧ (modPort n f s).host = s.host ∧
    (modPort n f s).tal = s.tal ∧ (modPort n f s).ras = s.ras ∧ (modPort n f s).stat = s.stat ∧ (modPort n f s).shops = s.shops ∧
    (modPort n f s).benches = s.benches ∧ (modPort n f s).sched = s.sched ∧ (modPort n f s).book = s.book ∧ (modPort n f s).selectors = s.selectors ∧
    (modPort n f s).grammars = s.grammars ∧ (modPort n f s).fulStacks = s.fulStacks ∧ (modPort n f s).fullers = s.fullers ∧
    (modPort n f s).therm = s.therm ∧ (modPort n f s).jobs = s.jobs ∧ (modPort n f s).sys = s.sys ∧ (modPort n f s).pending = s.pending := by
  and_intros <;> rfl

@[simp] theorem modReq_fields (id : Nat) (f : BReq → BReq) (s : State) :
    (modReq id f s).now = s.now ∧ (modReq id f s).bell = s.bell ∧ (modReq id f s).ready = s.ready ∧ (modReq id f s).freeCtr = s.freeCtr ∧
    (modReq id f s).regs = s.regs ∧ (modReq id f s).mem = s.mem ∧ (modReq id f s).stks = s.stks ∧ (modReq id f s).host = s.host ∧
    (modReq id f s).tal = s.tal ∧ (modReq id f s).ras = s.ras ∧ (modReq id f s).stat = s.stat ∧ (modReq id f s).shops = s.shops ∧
    (modReq id f s).benches = s.benches ∧ (modReq id f s).sched = s.sched ∧ (modReq id f s).book = s.book ∧ (modReq id f s).selectors = s.selectors ∧
    (modReq id f s).grammars = s.grammars ∧ (modReq id f s).fulStacks = s.fulStacks ∧ (modReq id f s).fullers = s.fullers ∧
    (modReq id f s).therm = s.therm ∧ (modReq id f s).jobs = s.jobs ∧ (modReq id f s).sys = s.sys ∧ (modReq id f s).pending = s.pending := by
  and_intros <;> rfl

@[simp] theorem modColl_fields (id : Nat) (f : CollSt → CollSt) (s : State) :
    (modColl id f s).now = s.now ∧ (modColl id f s).bell = s.bell ∧ (modColl id f s).ready = s.ready ∧ (modColl id f s).freeCtr = s.freeCtr ∧
    (modColl id f s).regs = s.regs ∧ (modColl id f s).mem = s.mem ∧ (modColl id f s).stks = s.stks ∧ (modColl id f s).host = s.host ∧
    (modColl id f s).tal = s.tal ∧ (modColl id f s).ras = s.ras ∧ (modColl id f s).stat = s.stat ∧ (modColl id f s).shops = s.shops ∧
    (modColl id f s).benches = s.benches ∧ (modColl id f s).sched = s.sched ∧ (modColl id f s).book = s.book ∧
    (modColl id f s).selectors = s.selectors ∧ (modColl id f s).grammars = s.grammars ∧ (modColl id f s).fulStacks = s.fulStacks ∧
    (modColl id f s).fullers = s.fullers ∧ (modColl id f s).therm = s.therm ∧ (modColl id f s).jobs = s.jobs ∧ (modColl id f s).sys = s.sys ∧
    (modColl id f s).pending = s.pending := by
  and_intros <;> rfl

@[simp] theorem modFul_fields (n : Nat) (f : FulStackSt → FulStackSt) (s : State) :
    (modFul n f s).now = s.now ∧ (modFul n f s).bell = s.bell ∧ (modFul n f s).ready = s.ready ∧ (modFul n f s).freeCtr = s.freeCtr ∧
    (modFul n f s).regs = s.regs ∧ (modFul n f s).mem = s.mem ∧ (modFul n f s).stks = s.stks ∧ (modFul n f s).host = s.host ∧
    (modFul n f s).tal = s.tal ∧ (modFul n f s).ras = s.ras ∧ (modFul n f s).stat = s.stat ∧ (modFul n f s).shops = s.shops ∧
    (modFul n f s).benches = s.benches ∧ (modFul n f s).sched = s.sched ∧ (modFul n f s).book = s.book ∧ (modFul n f s).selectors = s.selectors ∧
    (modFul n f s).grammars = s.grammars ∧ (modFul n f s).fullers = s.fullers ∧ (modFul n f s).bal = s.bal ∧ (modFul n f s).therm = s.therm ∧
    (modFul n f s).jobs = s.jobs ∧ (modFul n f s).sys = s.sys ∧ (modFul n f s).pending = s.pending := by
  and_intros <;> rfl

@[simp] theorem modFuller_fields (n i : Nat) (f : FullerSt → FullerSt) (s : State) :
    (modFuller n i f s).now = s.now ∧ (modFuller n i f s).bell = s.bell ∧ (modFuller n i f s).ready = s.ready ∧
    (modFuller n i f s).freeCtr = s.freeCtr ∧ (modFuller n i f s).regs = s.regs ∧ (modFuller n i f s).mem = s.mem ∧
    (modFuller n i f s).stks = s.stks ∧ (modFuller n i f s).host = s.host ∧ (modFuller n i f s).tal = s.tal ∧ (modFuller n i f s).ras = s.ras ∧
    (modFuller n i f s).stat = s.stat ∧ (modFuller n i f s).shops = s.shops ∧ (modFuller n i f s).benches = s.benches ∧
    (modFuller n i f s).sched = s.sched ∧ (modFuller n i f s).book = s.book ∧ (modFuller n i f s).selectors = s.selectors ∧
    (modFuller n i f s).grammars = s.grammars ∧ (modFuller n i f s).fulStacks = s.fulStacks ∧ (modFuller n i f s).bal = s.bal ∧
    (modFuller n i f s).therm = s.therm ∧ (modFuller n i f s).jobs = s.jobs ∧ (modFuller n i f s).sys = s.sys ∧
    (modFuller n i f s).pending = s.pending := by
  and_intros <;> rfl

@[simp] theorem modInvRun_fields (n : Nat) (f : InvRun → InvRun) (s : State) :
    (modInvRun n f s).now = s.now ∧ (modInvRun n f s).bell = s.bell ∧ (modInvRun n f s).ready = s.ready ∧ (modInvRun n f s).freeCtr = s.freeCtr ∧
    (modInvRun n f s).regs = s.regs ∧ (modInvRun n f s).mem = s.mem ∧ (modInvRun n f s).stks = s.stks ∧ (modInvRun n f s).host = s.host ∧
    (modInvRun n f s).tal = s.tal ∧ (modInvRun n f s).ras = s.ras ∧ (modInvRun n f s).stat = s.stat ∧ (modInvRun n f s).shops = s.shops ∧
    (modInvRun n f s).benches = s.benches ∧ (modInvRun n f s).sched = s.sched ∧ (modInvRun n f s).book = s.book ∧
    (modInvRun n f s).selectors = s.selectors ∧ (modInvRun n f s).grammars = s.grammars ∧ (modInvRun n f s).fullers = s.fullers ∧
    (modInvRun n f s).bal = s.bal ∧ (modInvRun n f s).therm = s.therm ∧ (modInvRun n f s).jobs = s.jobs ∧ (modInvRun n f s).sys = s.sys ∧
    (modInvRun n f s).pending = s.pending := by
  and_intros <;> rfl

@[simp] theorem modFar_fields (p : Nat) (f : FarPort → FarPort) (s : State) :
    (modFar p f s).now = s.now ∧ (modFar p f s).bell = s.bell ∧ (modFar p f s).ready = s.ready ∧ (modFar p f s).freeCtr = s.freeCtr ∧
    (modFar p f s).regs = s.regs ∧ (modFar p f s).mem = s.mem ∧ (modFar p f s).stks = s.stks ∧ (modFar p f s).host = s.host ∧
    (modFar p f s).tal = s.tal ∧ (modFar p f s).ras = s.ras ∧ (modFar p f s).stat = s.stat ∧ (modFar p f s).shops = s.shops ∧
    (modFar p f s).benches = s.benches ∧ (modFar p f s).sched = s.sched ∧ (modFar p f s).selectors = s.selectors ∧
    (modFar p f s).grammars = s.grammars ∧ (modFar p f s).fulStacks = s.fulStacks ∧ (modFar p f s).fullers = s.fullers ∧ (modFar p f s).bal = s.bal ∧
    (modFar p f s).therm = s.therm ∧ (modFar p f s).jobs = s.jobs ∧ (modFar p f s).sys = s.sys ∧ (modFar p f s).pending = s.pending := by
  and_intros <;> rfl

@[simp] theorem modJob_fields (id : Nat) (f : Job → Job) (s : State) :
    (modJob id f s).now = s.now ∧ (modJob id f s).bell = s.bell ∧ (modJob id f s).ready = s.ready ∧ (modJob id f s).freeCtr = s.freeCtr ∧
    (modJob id f s).regs = s.regs ∧ (modJob id f s).mem = s.mem ∧ (modJob id f s).stks = s.stks ∧ (modJob id f s).host = s.host ∧
    (modJob id f s).tal = s.tal ∧ (modJob id f s).ras = s.ras ∧ (modJob id f s).stat = s.stat ∧ (modJob id f s).shops = s.shops ∧
    (modJob id f s).benches = s.benches ∧ (modJob id f s).sched = s.sched ∧ (modJob id f s).book = s.book ∧ (modJob id f s).selectors = s.selectors ∧
    (modJob id f s).grammars = s.grammars ∧ (modJob id f s).fulStacks = s.fulStacks ∧ (modJob id f s).fullers = s.fullers ∧
    (modJob id f s).bal = s.bal ∧ (modJob id f s).therm = s.therm ∧ (modJob id f s).sys = s.sys ∧ (modJob id f s).pending = s.pending := by
  and_intros <;> rfl

@[simp] theorem setModel_fields (h : Nat) (m : Option ModelRec) (s : State) :
    (setModel h m s).now = s.now ∧ (setModel h m s).bell = s.bell ∧ (setModel h m s).ready = s.ready ∧ (setModel h m s).freeCtr = s.freeCtr ∧
    (setModel h m s).regs = s.regs ∧ (setModel h m s).mem = s.mem ∧ (setModel h m s).stks = s.stks ∧ (setModel h m s).host = s.host ∧
    (setModel h m s).tal = s.tal ∧ (setModel h m s).ras = s.ras ∧ (setModel h m s).stat = s.stat ∧ (setModel h m s).shops = s.shops ∧
    (setModel h m s).benches = s.benches ∧ (setModel h m s).sched = s.sched ∧ (setModel h m s).selectors = s.selectors ∧
    (setModel h m s).grammars = s.grammars ∧ (setModel h m s).fulStacks = s.fulStacks ∧ (setModel h m s).fullers = s.fullers ∧
    (setModel h m s).bal = s.bal ∧ (setModel h m s).therm = s.therm ∧ (setModel h m s).jobs = s.jobs ∧ (setModel h m s).sys = s.sys ∧
    (setModel h m s).pending = s.pending := by
  and_intros <;> rfl

@[simp] theorem modOrder_fields (o : Nat) (f : OrderRec → OrderRec) (s : State) :
    (modOrder o f s).now = s.now ∧ (modOrder o f s).bell = s.bell ∧ (modOrder o f s).ready = s.ready ∧ (modOrder o f s).freeCtr = s.freeCtr ∧
    (modOrder o f s).regs = s.regs ∧ (modOrder o f s).mem = s.mem ∧ (modOrder o f s).stks = s.stks ∧ (modOrder o f s).host = s.host ∧
    (modOrder o f s).tal = s.tal ∧ (modOrder o f s).ras = s.ras ∧ (modOrder o f s).stat = s.stat ∧ (modOrder o f s).shops = s.shops ∧
    (modOrder o f s).benches = s.benches ∧ (modOrder o f s).sched = s.sched ∧ (modOrder o f s).selectors = s.selectors ∧
    (modOrder o f s).grammars = s.grammars ∧ (modOrder o f s).fulStacks = s.fulStacks ∧ (modOrder o f s).fullers = s.fullers ∧
    (modOrder o f s).bal = s.bal ∧ (modOrder o f s).therm = s.therm ∧ (modOrder o f s).jobs = s.jobs ∧ (modOrder o f s).sys = s.sys ∧
    (modOrder o f s).pending = s.pending := by
  and_intros <;> rfl

@[simp] theorem modCtx_fields (c : Nat) (f : CtxRec → CtxRec) (s : State) :
    (modCtx c f s).now = s.now ∧ (modCtx c f s).bell = s.bell ∧ (modCtx c f s).ready = s.ready ∧ (modCtx c f s).freeCtr = s.freeCtr ∧
    (modCtx c f s).regs = s.regs ∧ (modCtx c f s).mem = s.mem ∧ (modCtx c f s).stks = s.stks ∧ (modCtx c f s).host = s.host ∧
    (modCtx c f s).tal = s.tal ∧ (modCtx c f s).ras = s.ras ∧ (modCtx c f s).stat = s.stat ∧ (modCtx c f s).shops = s.shops ∧
    (modCtx c f s).benches = s.benches ∧ (modCtx c f s).book = s.book ∧ (modCtx c f s).selectors = s.selectors ∧
    (modCtx c f s).grammars = s.grammars ∧ (modCtx c f s).fulStacks = s.fulStacks ∧ (modCtx c f s).fullers = s.fullers ∧ (modCtx c f s).bal = s.bal ∧
    (modCtx c f s).therm = s.therm ∧ (modCtx c f s).jobs = s.jobs ∧ (modCtx c f s).sys = s.sys ∧ (modCtx c f s).pending = s.pending := by
  and_intros <;> rfl

@[simp] theorem modShop_fields (n : Nat) (f : ShopSt → ShopSt) (s : State) :
    (modShop n f s).now = s.now ∧ (modShop n f s).bell = s.bell ∧ (modShop n f s).ready = s.ready ∧ (modShop n f s).freeCtr = s.freeCtr ∧
    (modShop n f s).regs = s.regs ∧ (modShop n f s).mem = s.mem ∧ (modShop n f s).stks = s.stks ∧ (modShop n f s).host = s.host ∧
    (modShop n f s).tal = s.tal ∧ (modShop n f s).ras = s.ras ∧ (modShop n f s).stat = s.stat ∧ (modShop n f s).benches = s.benches ∧
    (modShop n f s).sched = s.sched ∧ (modShop n f s).book = s.book ∧ (modShop n f s).selectors = s.selectors ∧
    (modShop n f s).grammars = s.grammars ∧ (modShop n f s).fulStacks = s.fulStacks ∧ (modShop n f s).fullers = s.fullers ∧
    (modShop n f s).bal = s.bal ∧ (modShop n f s).therm = s.therm ∧ (modShop n f s).jobs = s.jobs ∧ (modShop n f s).sys = s.sys ∧
    (modShop n f s).pending = s.pending := by
  and_intros <;> rfl

@[simp] theorem modLaunch_fields (n i : Nat) (f : Launch → Launch) (s : State) :
    (modLaunch n i f s).now = s.now ∧ (modLaunch n i f s).bell = s.bell ∧ (modLaunch n i f s).ready = s.ready ∧
    (modLaunch n i f s).freeCtr = s.freeCtr ∧ (modLaunch n i f s).regs = s.regs ∧ (modLaunch n i f s).mem = s.mem ∧
    (modLaunch n i f s).stks = s.stks ∧ (modLaunch n i f s).host = s.host ∧ (modLaunch n i f s).tal = s.tal ∧ (modLaunch n i f s).ras = s.ras ∧
    (modLaunch n i f s).stat = s.stat ∧ (modLaunch n i f s).benches = s.benches ∧ (modLaunch n i f s).sched = s.sched ∧
    (modLaunch n i f s).book = s.book ∧ (modLaunch n i f s).selectors = s.selectors ∧ (modLaunch n i f s).grammars = s.grammars ∧
    (modLaunch n i f s).fulStacks = s.fulStacks ∧ (modLaunch n i f s).fullers = s.fullers ∧ (modLaunch n i f s).bal = s.bal ∧
    (modLaunch n i f s).therm = s.therm ∧ (modLaunch n i f s).jobs = s.jobs ∧ (modLaunch n i f s).sys = s.sys ∧
    (modLaunch n i f s).pending = s.pending := by
  and_intros <;> rfl

@[simp] theorem modPlc_fields (f : PlcSt → PlcSt) (s : State) :
    (modPlc f s).now = s.now ∧ (modPlc f s).bell = s.bell ∧ (modPlc f s).ready = s.ready ∧ (modPlc f s).freeCtr = s.freeCtr ∧
    (modPlc f s).regs = s.regs ∧ (modPlc f s).mem = s.mem ∧ (modPlc f s).stks = s.stks ∧ (modPlc f s).host = s.host ∧ (modPlc f s).tal = s.tal ∧
    (modPlc f s).ras = s.ras ∧ (modPlc f s).stat = s.stat ∧ (modPlc f s).shops = s.shops ∧ (modPlc f s).benches = s.benches ∧
    (modPlc f s).book = s.book ∧ (modPlc f s).selectors = s.selectors ∧ (modPlc f s).grammars = s.grammars ∧ (modPlc f s).fulStacks = s.fulStacks ∧
    (modPlc f s).fullers = s.fullers ∧ (modPlc f s).bal = s.bal ∧ (modPlc f s).therm = s.therm ∧ (modPlc f s).jobs = s.jobs ∧
    (modPlc f s).sys = s.sys ∧ (modPlc f s).pending = s.pending := by
  and_intros <;> rfl

@[simp] theorem setMap_fields (g : Nat) (e : MapEnt) (s : State) :
    (setMap g e s).now = s.now ∧ (setMap g e s).bell = s.bell ∧ (setMap g e s).ready = s.ready ∧ (setMap g e s).freeCtr = s.freeCtr ∧
    (setMap g e s).regs = s.regs ∧ (setMap g e s).stks = s.stks ∧ (setMap g e s).host = s.host ∧ (setMap g e s).tal = s.tal ∧
    (setMap g e s).ras = s.ras ∧ (setMap g e s).stat = s.stat ∧ (setMap g e s).shops = s.shops ∧ (setMap g e s).benches = s.benches ∧
    (setMap g e s).sched = s.sched ∧ (setMap g e s).book = s.book ∧ (setMap g e s).selectors = s.selectors ∧ (setMap g e s).grammars = s.grammars ∧
    (setMap g e s).fulStacks = s.fulStacks ∧ (setMap g e s).fullers = s.fullers ∧ (setMap g e s).bal = s.bal ∧ (setMap g e s).therm = s.therm ∧
    (setMap g e s).jobs = s.jobs ∧ (setMap g e s).sys = s.sys ∧ (setMap g e s).pending = s.pending := by
  and_intros <;> rfl

@[simp] theorem modRemap_fields (b : Nat) (f : Remap → Remap) (s : State) :
    (modRemap b f s).now = s.now ∧ (modRemap b f s).bell = s.bell ∧ (modRemap b f s).ready = s.ready ∧ (modRemap b f s).freeCtr = s.freeCtr ∧
    (modRemap b f s).regs = s.regs ∧ (modRemap b f s).mem = s.mem ∧ (modRemap b f s).stks = s.stks ∧ (modRemap b f s).host = s.host ∧
    (modRemap b f s).tal = s.tal ∧ (modRemap b f s).stat = s.stat ∧ (modRemap b f s).shops = s.shops ∧ (modRemap b f s).benches = s.benches ∧
    (modRemap b f s).sched = s.sched ∧ (modRemap b f s).book = s.book ∧ (modRemap b f s).selectors = s.selectors ∧
    (modRemap b f s).grammars = s.grammars ∧ (modRemap b f s).fulStacks = s.fulStacks ∧ (modRemap b f s).fullers = s.fullers ∧
    (modRemap b f s).bal = s.bal ∧ (modRemap b f s).therm = s.therm ∧ (modRemap b f s).jobs = s.jobs ∧ (modRemap b f s).sys = s.sys ∧
    (modRemap b f s).pending = s.pending := by
  and_intros <;> rfl

@[simp] theorem modScrub_fields (f : ScrubSt → ScrubSt) (s : State) :
    (modScrub f s).now = s.now ∧ (modScrub f s).bell = s.bell ∧ (modScrub f s).ready = s.ready ∧ (modScrub f s).freeCtr = s.freeCtr ∧
    (modScrub f s).regs = s.regs ∧ (modScrub f s).mem = s.mem ∧ (modScrub f s).stks = s.stks ∧ (modScrub f s).host = s.host ∧
    (modScrub f s).tal = s.tal ∧ (modScrub f s).stat = s.stat ∧ (modScrub f s).shops = s.shops ∧ (modScrub f s).benches = s.benches ∧
    (modScrub f s).sched = s.sched ∧ (modScrub f s).book = s.book ∧ (modScrub f s).selectors = s.selectors ∧ (modScrub f s).grammars = s.grammars ∧
    (modScrub f s).fulStacks = s.fulStacks ∧ (modScrub f s).fullers = s.fullers ∧ (modScrub f s).bal = s.bal ∧ (modScrub f s).therm = s.therm ∧
    (modScrub f s).jobs = s.jobs ∧ (modScrub f s).sys = s.sys ∧ (modScrub f s).pending = s.pending := by
  and_intros <;> rfl

@[simp] theorem modSteward_fields (h : Nat) (f : Steward → Steward) (s : State) :
    (modSteward h f s).now = s.now ∧ (modSteward h f s).bell = s.bell ∧ (modSteward h f s).ready = s.ready ∧ (modSteward h f s).freeCtr = s.freeCtr ∧
    (modSteward h f s).regs = s.regs ∧ (modSteward h f s).mem = s.mem ∧ (modSteward h f s).stks = s.stks ∧ (modSteward h f s).host = s.host ∧
    (modSteward h f s).tal = s.tal ∧ (modSteward h f s).ras = s.ras ∧ (modSteward h f s).stat = s.stat ∧ (modSteward h f s).shops = s.shops ∧
    (modSteward h f s).benches = s.benches ∧ (modSteward h f s).sched = s.sched ∧ (modSteward h f s).book = s.book ∧
    (modSteward h f s).selectors = s.selectors ∧ (modSteward h f s).grammars = s.grammars ∧ (modSteward h f s).fulStacks = s.fulStacks ∧
    (modSteward h f s).fullers = s.fullers ∧ (modSteward h f s).bal = s.bal ∧ (modSteward h f s).therm = s.therm ∧ (modSteward h f s).jobs = s.jobs ∧
    (modSteward h f s).pending = s.pending := by
  and_intros <;> rfl

@[simp] theorem modRole_fields (f : RoleSt → RoleSt) (s : State) :
    (modRole f s).now = s.now ∧ (modRole f s).bell = s.bell ∧ (modRole f s).ready = s.ready ∧ (modRole f s).freeCtr = s.freeCtr ∧
    (modRole f s).regs = s.regs ∧ (modRole f s).mem = s.mem ∧ (modRole f s).stks = s.stks ∧ (modRole f s).host = s.host ∧ (modRole f s).tal = s.tal ∧
    (modRole f s).ras = s.ras ∧ (modRole f s).stat = s.stat ∧ (modRole f s).shops = s.shops ∧ (modRole f s).benches = s.benches ∧
    (modRole f s).sched = s.sched ∧ (modRole f s).book = s.book ∧ (modRole f s).selectors = s.selectors ∧ (modRole f s).grammars = s.grammars ∧
    (modRole f s).fulStacks = s.fulStacks ∧ (modRole f s).fullers = s.fullers ∧ (modRole f s).bal = s.bal ∧ (modRole f s).therm = s.therm ∧
    (modRole f s).jobs = s.jobs ∧ (modRole f s).pending = s.pending := by
  and_intros <;> rfl

@[simp] theorem setFlash_fields (k : Nat) (x : FlashImg) (s : State) :
    (setFlash k x s).now = s.now ∧ (setFlash k x s).bell = s.bell ∧ (setFlash k x s).ready = s.ready ∧ (setFlash k x s).freeCtr = s.freeCtr ∧
    (setFlash k x s).regs = s.regs ∧ (setFlash k x s).mem = s.mem ∧ (setFlash k x s).stks = s.stks ∧ (setFlash k x s).host = s.host ∧
    (setFlash k x s).tal = s.tal ∧ (setFlash k x s).ras = s.ras ∧ (setFlash k x s).stat = s.stat ∧ (setFlash k x s).shops = s.shops ∧
    (setFlash k x s).benches = s.benches ∧ (setFlash k x s).sched = s.sched ∧ (setFlash k x s).book = s.book ∧
    (setFlash k x s).selectors = s.selectors ∧ (setFlash k x s).grammars = s.grammars ∧ (setFlash k x s).fulStacks = s.fulStacks ∧
    (setFlash k x s).fullers = s.fullers ∧ (setFlash k x s).bal = s.bal ∧ (setFlash k x s).therm = s.therm ∧ (setFlash k x s).jobs = s.jobs ∧
    (setFlash k x s).pending = s.pending := by
  and_intros <;> rfl

@[simp] theorem setDeficit_fields (p v : Nat) (s : State) :
    (setDeficit p v s).now = s.now ∧ (setDeficit p v s).bell = s.bell ∧ (setDeficit p v s).ready = s.ready ∧ (setDeficit p v s).freeCtr = s.freeCtr ∧
    (setDeficit p v s).regs = s.regs ∧ (setDeficit p v s).mem = s.mem ∧ (setDeficit p v s).stks = s.stks ∧ (setDeficit p v s).host = s.host ∧
    (setDeficit p v s).tal = s.tal ∧ (setDeficit p v s).ras = s.ras ∧ (setDeficit p v s).stat = s.stat ∧ (setDeficit p v s).shops = s.shops ∧
    (setDeficit p v s).benches = s.benches ∧ (setDeficit p v s).book = s.book ∧ (setDeficit p v s).selectors = s.selectors ∧
    (setDeficit p v s).grammars = s.grammars ∧ (setDeficit p v s).fulStacks = s.fulStacks ∧ (setDeficit p v s).fullers = s.fullers ∧
    (setDeficit p v s).bal = s.bal ∧ (setDeficit p v s).therm = s.therm ∧ (setDeficit p v s).jobs = s.jobs ∧ (setDeficit p v s).sys = s.sys ∧
    (setDeficit p v s).pending = s.pending := by
  and_intros <;> rfl

@[simp] theorem modSel_fields (q : Nat) (f : SelSt → SelSt) (s : State) :
    (modSel q f s).now = s.now ∧ (modSel q f s).bell = s.bell ∧ (modSel q f s).ready = s.ready ∧ (modSel q f s).freeCtr = s.freeCtr ∧
    (modSel q f s).regs = s.regs ∧ (modSel q f s).mem = s.mem ∧ (modSel q f s).stks = s.stks ∧ (modSel q f s).host = s.host ∧
    (modSel q f s).tal = s.tal ∧ (modSel q f s).ras = s.ras ∧ (modSel q f s).stat = s.stat ∧ (modSel q f s).shops = s.shops ∧
    (modSel q f s).benches = s.benches ∧ (modSel q f s).sched = s.sched ∧ (modSel q f s).book = s.book ∧ (modSel q f s).grammars = s.grammars ∧
    (modSel q f s).fulStacks = s.fulStacks ∧ (modSel q f s).fullers = s.fullers ∧ (modSel q f s).bal = s.bal ∧ (modSel q f s).therm = s.therm ∧
    (modSel q f s).jobs = s.jobs ∧ (modSel q f s).sys = s.sys ∧ (modSel q f s).pending = s.pending := by
  and_intros <;> rfl

@[simp] theorem modCand_fields (id : Nat) (f : Cand → Cand) (s : State) :
    (modCand id f s).now = s.now ∧ (modCand id f s).bell = s.bell ∧ (modCand id f s).ready = s.ready ∧ (modCand id f s).freeCtr = s.freeCtr ∧
    (modCand id f s).regs = s.regs ∧ (modCand id f s).mem = s.mem ∧ (modCand id f s).stks = s.stks ∧ (modCand id f s).host = s.host ∧
    (modCand id f s).tal = s.tal ∧ (modCand id f s).ras = s.ras ∧ (modCand id f s).stat = s.stat ∧ (modCand id f s).shops = s.shops ∧
    (modCand id f s).benches = s.benches ∧ (modCand id f s).book = s.book ∧ (modCand id f s).selectors = s.selectors ∧
    (modCand id f s).grammars = s.grammars ∧ (modCand id f s).fulStacks = s.fulStacks ∧ (modCand id f s).fullers = s.fullers ∧
    (modCand id f s).bal = s.bal ∧ (modCand id f s).therm = s.therm ∧ (modCand id f s).jobs = s.jobs ∧ (modCand id f s).sys = s.sys ∧
    (modCand id f s).pending = s.pending := by
  and_intros <;> rfl

@[simp] theorem modBench_fields (b : Nat) (f : BenchSt → BenchSt) (s : State) :
    (modBench b f s).now = s.now ∧ (modBench b f s).bell = s.bell ∧ (modBench b f s).ready = s.ready ∧ (modBench b f s).freeCtr = s.freeCtr ∧
    (modBench b f s).regs = s.regs ∧ (modBench b f s).mem = s.mem ∧ (modBench b f s).stks = s.stks ∧ (modBench b f s).host = s.host ∧
    (modBench b f s).tal = s.tal ∧ (modBench b f s).ras = s.ras ∧ (modBench b f s).stat = s.stat ∧ (modBench b f s).shops = s.shops ∧
    (modBench b f s).sched = s.sched ∧ (modBench b f s).book = s.book ∧ (modBench b f s).selectors = s.selectors ∧
    (modBench b f s).grammars = s.grammars ∧ (modBench b f s).fulStacks = s.fulStacks ∧ (modBench b f s).fullers = s.fullers ∧
    (modBench b f s).bal = s.bal ∧ (modBench b f s).therm = s.therm ∧ (modBench b f s).jobs = s.jobs ∧ (modBench b f s).sys = s.sys ∧
    (modBench b f s).pending = s.pending := by
  and_intros <;> rfl

@[simp] theorem modEng_fields (n e : Nat) (f : EngSt → EngSt) (s : State) :
    (modEng n e f s).now = s.now ∧ (modEng n e f s).bell = s.bell ∧ (modEng n e f s).ready = s.ready ∧ (modEng n e f s).freeCtr = s.freeCtr ∧
    (modEng n e f s).regs = s.regs ∧ (modEng n e f s).mem = s.mem ∧ (modEng n e f s).stks = s.stks ∧ (modEng n e f s).host = s.host ∧
    (modEng n e f s).tal = s.tal ∧ (modEng n e f s).ras = s.ras ∧ (modEng n e f s).stat = s.stat ∧ (modEng n e f s).benches = s.benches ∧
    (modEng n e f s).sched = s.sched ∧ (modEng n e f s).book = s.book ∧ (modEng n e f s).selectors = s.selectors ∧
    (modEng n e f s).grammars = s.grammars ∧ (modEng n e f s).fulStacks = s.fulStacks ∧ (modEng n e f s).fullers = s.fullers ∧
    (modEng n e f s).bal = s.bal ∧ (modEng n e f s).therm = s.therm ∧ (modEng n e f s).jobs = s.jobs ∧ (modEng n e f s).sys = s.sys ∧
    (modEng n e f s).pending = s.pending := by
  and_intros <;> rfl

@[simp] theorem modBank_fields (n b : Nat) (f : SheetBank → SheetBank) (s : State) :
    (modBank n b f s).now = s.now ∧ (modBank n b f s).bell = s.bell ∧ (modBank n b f s).ready = s.ready ∧ (modBank n b f s).freeCtr = s.freeCtr ∧
    (modBank n b f s).regs = s.regs ∧ (modBank n b f s).mem = s.mem ∧ (modBank n b f s).stks = s.stks ∧ (modBank n b f s).host = s.host ∧
    (modBank n b f s).tal = s.tal ∧ (modBank n b f s).ras = s.ras ∧ (modBank n b f s).stat = s.stat ∧ (modBank n b f s).benches = s.benches ∧
    (modBank n b f s).sched = s.sched ∧ (modBank n b f s).book = s.book ∧ (modBank n b f s).selectors = s.selectors ∧
    (modBank n b f s).grammars = s.grammars ∧ (modBank n b f s).fulStacks = s.fulStacks ∧ (modBank n b f s).fullers = s.fullers ∧
    (modBank n b f s).bal = s.bal ∧ (modBank n b f s).therm = s.therm ∧ (modBank n b f s).jobs = s.jobs ∧ (modBank n b f s).sys = s.sys ∧
    (modBank n b f s).pending = s.pending := by
  and_intros <;> rfl

@[simp] theorem modList_fields (n id : Nat) (f : TicketList → TicketList) (s : State) :
    (modList n id f s).now = s.now ∧ (modList n id f s).bell = s.bell ∧ (modList n id f s).ready = s.ready ∧ (modList n id f s).freeCtr = s.freeCtr ∧
    (modList n id f s).regs = s.regs ∧ (modList n id f s).mem = s.mem ∧ (modList n id f s).stks = s.stks ∧ (modList n id f s).host = s.host ∧
    (modList n id f s).tal = s.tal ∧ (modList n id f s).ras = s.ras ∧ (modList n id f s).stat = s.stat ∧ (modList n id f s).benches = s.benches ∧
    (modList n id f s).sched = s.sched ∧ (modList n id f s).book = s.book ∧ (modList n id f s).selectors = s.selectors ∧
    (modList n id f s).grammars = s.grammars ∧ (modList n id f s).fulStacks = s.fulStacks ∧ (modList n id f s).fullers = s.fullers ∧
    (modList n id f s).bal = s.bal ∧ (modList n id f s).therm = s.therm ∧ (modList n id f s).jobs = s.jobs ∧ (modList n id f s).sys = s.sys ∧
    (modList n id f s).pending = s.pending := by
  and_intros <;> rfl

@[simp] theorem modArray_fields (n : Nat) (f : ArraySt → ArraySt) (s : State) :
    (modArray n f s).now = s.now ∧ (modArray n f s).bell = s.bell ∧ (modArray n f s).ready = s.ready ∧ (modArray n f s).freeCtr = s.freeCtr ∧
    (modArray n f s).regs = s.regs ∧ (modArray n f s).mem = s.mem ∧ (modArray n f s).stks = s.stks ∧ (modArray n f s).host = s.host ∧
    (modArray n f s).tal = s.tal ∧ (modArray n f s).ras = s.ras ∧ (modArray n f s).stat = s.stat ∧ (modArray n f s).benches = s.benches ∧
    (modArray n f s).sched = s.sched ∧ (modArray n f s).book = s.book ∧ (modArray n f s).selectors = s.selectors ∧
    (modArray n f s).grammars = s.grammars ∧ (modArray n f s).fulStacks = s.fulStacks ∧ (modArray n f s).fullers = s.fullers ∧
    (modArray n f s).bal = s.bal ∧ (modArray n f s).therm = s.therm ∧ (modArray n f s).jobs = s.jobs ∧ (modArray n f s).sys = s.sys ∧
    (modArray n f s).pending = s.pending := by
  and_intros <;> rfl

@[simp] theorem modRun_fields (n e op : Nat) (f : Run → Run) (s : State) :
    (modRun n e op f s).now = s.now ∧ (modRun n e op f s).bell = s.bell ∧ (modRun n e op f s).ready = s.ready ∧
    (modRun n e op f s).freeCtr = s.freeCtr ∧ (modRun n e op f s).regs = s.regs ∧ (modRun n e op f s).mem = s.mem ∧
    (modRun n e op f s).stks = s.stks ∧ (modRun n e op f s).host = s.host ∧ (modRun n e op f s).tal = s.tal ∧ (modRun n e op f s).ras = s.ras ∧
    (modRun n e op f s).stat = s.stat ∧ (modRun n e op f s).benches = s.benches ∧ (modRun n e op f s).sched = s.sched ∧
    (modRun n e op f s).book = s.book ∧ (modRun n e op f s).selectors = s.selectors ∧ (modRun n e op f s).grammars = s.grammars ∧
    (modRun n e op f s).fulStacks = s.fulStacks ∧ (modRun n e op f s).fullers = s.fullers ∧ (modRun n e op f s).bal = s.bal ∧
    (modRun n e op f s).therm = s.therm ∧ (modRun n e op f s).jobs = s.jobs ∧ (modRun n e op f s).sys = s.sys ∧
    (modRun n e op f s).pending = s.pending := by
  and_intros <;> rfl

@[simp] theorem setQueue_fields (n ch : Nat) (q : List StkReq) (s : State) :
    (setQueue n ch q s).now = s.now ∧ (setQueue n ch q s).bell = s.bell ∧ (setQueue n ch q s).ready = s.ready ∧
    (setQueue n ch q s).freeCtr = s.freeCtr ∧ (setQueue n ch q s).regs = s.regs ∧ (setQueue n ch q s).mem = s.mem ∧
    (setQueue n ch q s).host = s.host ∧ (setQueue n ch q s).tal = s.tal ∧ (setQueue n ch q s).ras = s.ras ∧ (setQueue n ch q s).stat = s.stat ∧
    (setQueue n ch q s).shops = s.shops ∧ (setQueue n ch q s).benches = s.benches ∧ (setQueue n ch q s).sched = s.sched ∧
    (setQueue n ch q s).book = s.book ∧ (setQueue n ch q s).selectors = s.selectors ∧ (setQueue n ch q s).grammars = s.grammars ∧
    (setQueue n ch q s).fulStacks = s.fulStacks ∧ (setQueue n ch q s).fullers = s.fullers ∧ (setQueue n ch q s).bal = s.bal ∧
    (setQueue n ch q s).therm = s.therm ∧ (setQueue n ch q s).jobs = s.jobs ∧ (setQueue n ch q s).sys = s.sys ∧
    (setQueue n ch q s).pending = s.pending := by
  and_intros <;> rfl

@[simp] theorem setIr_fields (n : Nat) (s : State) :
    (setIr n s).now = s.now ∧ (setIr n s).bell = s.bell ∧ (setIr n s).ready = s.ready ∧ (setIr n s).freeCtr = s.freeCtr ∧ (setIr n s).regs = s.regs ∧
    (setIr n s).mem = s.mem ∧ (setIr n s).stks = s.stks ∧ (setIr n s).host = s.host ∧ (setIr n s).tal = s.tal ∧ (setIr n s).ras = s.ras ∧
    (setIr n s).stat = s.stat ∧ (setIr n s).shops = s.shops ∧ (setIr n s).benches = s.benches ∧ (setIr n s).sched = s.sched ∧
    (setIr n s).book = s.book ∧ (setIr n s).selectors = s.selectors ∧ (setIr n s).grammars = s.grammars ∧ (setIr n s).fulStacks = s.fulStacks ∧
    (setIr n s).fullers = s.fullers ∧ (setIr n s).bal = s.bal ∧ (setIr n s).therm = s.therm ∧ (setIr n s).jobs = s.jobs ∧
    (setIr n s).pending = s.pending := by
  and_intros <;> rfl

@[simp] theorem modChan_fields (c : Nat) (f : Chan → Chan) (s : State) :
    (modChan c f s).now = s.now ∧ (modChan c f s).bell = s.bell ∧ (modChan c f s).ready = s.ready ∧ (modChan c f s).freeCtr = s.freeCtr ∧
    (modChan c f s).regs = s.regs ∧ (modChan c f s).mem = s.mem ∧ (modChan c f s).stks = s.stks ∧ (modChan c f s).host = s.host ∧
    (modChan c f s).tal = s.tal ∧ (modChan c f s).ras = s.ras ∧ (modChan c f s).stat = s.stat ∧ (modChan c f s).shops = s.shops ∧
    (modChan c f s).benches = s.benches ∧ (modChan c f s).sched = s.sched ∧ (modChan c f s).book = s.book ∧ (modChan c f s).selectors = s.selectors ∧
    (modChan c f s).grammars = s.grammars ∧ (modChan c f s).fulStacks = s.fulStacks ∧ (modChan c f s).fullers = s.fullers ∧
    (modChan c f s).bal = s.bal ∧ (modChan c f s).jobs = s.jobs ∧ (modChan c f s).sys = s.sys ∧ (modChan c f s).pending = s.pending := by
  and_intros <;> rfl

@[simp] theorem modUnit_fields (u : Nat) (f : TUnit → TUnit) (s : State) :
    (modUnit u f s).now = s.now ∧ (modUnit u f s).bell = s.bell ∧ (modUnit u f s).ready = s.ready ∧ (modUnit u f s).freeCtr = s.freeCtr ∧
    (modUnit u f s).regs = s.regs ∧ (modUnit u f s).mem = s.mem ∧ (modUnit u f s).stks = s.stks ∧ (modUnit u f s).host = s.host ∧
    (modUnit u f s).tal = s.tal ∧ (modUnit u f s).ras = s.ras ∧ (modUnit u f s).stat = s.stat ∧ (modUnit u f s).shops = s.shops ∧
    (modUnit u f s).benches = s.benches ∧ (modUnit u f s).sched = s.sched ∧ (modUnit u f s).book = s.book ∧ (modUnit u f s).selectors = s.selectors ∧
    (modUnit u f s).grammars = s.grammars ∧ (modUnit u f s).fulStacks = s.fulStacks ∧ (modUnit u f s).fullers = s.fullers ∧
    (modUnit u f s).bal = s.bal ∧ (modUnit u f s).jobs = s.jobs ∧ (modUnit u f s).sys = s.sys ∧ (modUnit u f s).pending = s.pending := by
  and_intros <;> rfl

@[simp] theorem summarise_fields (fk : Nat) (s : State) :
    (summarise fk s).now = s.now ∧ (summarise fk s).bell = s.bell ∧ (summarise fk s).ready = s.ready ∧ (summarise fk s).freeCtr = s.freeCtr ∧
    (summarise fk s).regs = s.regs ∧ (summarise fk s).stks = s.stks ∧ (summarise fk s).host = s.host ∧ (summarise fk s).tal = s.tal ∧
    (summarise fk s).ras = s.ras ∧ (summarise fk s).stat = s.stat ∧ (summarise fk s).shops = s.shops ∧ (summarise fk s).benches = s.benches ∧
    (summarise fk s).sched = s.sched ∧ (summarise fk s).book = s.book ∧ (summarise fk s).selectors = s.selectors ∧
    (summarise fk s).grammars = s.grammars ∧ (summarise fk s).fulStacks = s.fulStacks ∧ (summarise fk s).fullers = s.fullers ∧
    (summarise fk s).bal = s.bal ∧ (summarise fk s).therm = s.therm ∧ (summarise fk s).jobs = s.jobs ∧ (summarise fk s).sys = s.sys ∧
    (summarise fk s).pending = s.pending := by
  dsimp only [summarise]; split <;> (and_intros <;> rfl)

/-! ### Reading an entry after its update -/

@[simp] theorem stackOf_modStack_same (n : Nat) (f : StackSt → StackSt) (s : State) : stackOf (modStack n f s) n = f (stackOf s n) := by
  simp [stackOf, modStack, tmod]

theorem stackOf_modStack_other (n : Nat) (f : StackSt → StackSt) (s : State) (j : Nat) (hj : j ≠ n) : stackOf (modStack n f s) j = stackOf s j := by
  simp [stackOf, modStack, tmod, tget_tset_other _ _ _ hj]

@[simp] theorem ringOf_modRing_same (r : Nat) (f : RingSet → RingSet) (s : State) : ringOf (modRing r f s) r = f (ringOf s r) := by
  simp [ringOf, modRing, tmod]

theorem ringOf_modRing_other (r : Nat) (f : RingSet → RingSet) (s : State) (j : Nat) (hj : j ≠ r) : ringOf (modRing r f s) j = ringOf s j := by
  simp [ringOf, modRing, tmod, tget_tset_other _ _ _ hj]

@[simp] theorem shopOf_modShop_same (n : Nat) (f : ShopSt → ShopSt) (s : State) : shopOf (modShop n f s) n = f (shopOf s n) := by
  simp [shopOf, modShop, tmod]

theorem shopOf_modShop_other (n : Nat) (f : ShopSt → ShopSt) (s : State) (j : Nat) (hj : j ≠ n) : shopOf (modShop n f s) j = shopOf s j := by
  simp [shopOf, modShop, tmod, tget_tset_other _ _ _ hj]

@[simp] theorem benchOf_modBench_same (b : Nat) (f : BenchSt → BenchSt) (s : State) : benchOf (modBench b f s) b = f (benchOf s b) := by
  simp [benchOf, modBench, tmod]

theorem benchOf_modBench_other (b : Nat) (f : BenchSt → BenchSt) (s : State) (j : Nat) (hj : j ≠ b) : benchOf (modBench b f s) j = benchOf s j := by
  simp [benchOf, modBench, tmod, tget_tset_other _ _ _ hj]

@[simp] theorem fulOf_modFul_same (n : Nat) (f : FulStackSt → FulStackSt) (s : State) : fulOf (modFul n f s) n = f (fulOf s n) := by
  simp [fulOf, modFul, tmod]

theorem fulOf_modFul_other (n : Nat) (f : FulStackSt → FulStackSt) (s : State) (j : Nat) (hj : j ≠ n) : fulOf (modFul n f s) j = fulOf s j := by
  simp [fulOf, modFul, tmod, tget_tset_other _ _ _ hj]

@[simp] theorem orderOf_modOrder_same (o : Nat) (f : OrderRec → OrderRec) (s : State) : orderOf (modOrder o f s) o = f (orderOf s o) := by
  simp [orderOf, modOrder, tmod]

theorem orderOf_modOrder_other (o : Nat) (f : OrderRec → OrderRec) (s : State) (j : Nat) (hj : j ≠ o) : orderOf (modOrder o f s) j = orderOf s j := by
  simp [orderOf, modOrder, tmod, tget_tset_other _ _ _ hj]

@[simp] theorem portOf_modPort_same (n : Nat) (f : PortSt → PortSt) (s : State) : portOf (modPort n f s) n = f (portOf s n) := by
  simp [portOf, modPort, tmod]

theorem portOf_modPort_other (n : Nat) (f : PortSt → PortSt) (s : State) (j : Nat) (hj : j ≠ n) : portOf (modPort n f s) j = portOf s j := by
  simp [portOf, modPort, tmod, tget_tset_other _ _ _ hj]

@[simp] theorem selOf_modSel_same (q : Nat) (f : SelSt → SelSt) (s : State) : selOf (modSel q f s) q = f (selOf s q) := by
  simp [selOf, modSel, tmod]

theorem selOf_modSel_other (q : Nat) (f : SelSt → SelSt) (s : State) (j : Nat) (hj : j ≠ q) : selOf (modSel q f s) j = selOf s j := by
  simp [selOf, modSel, tmod, tget_tset_other _ _ _ hj]

@[simp] theorem stewardOf_modSteward_same (h : Nat) (f : Steward → Steward) (s : State) : stewardOf (modSteward h f s) h = f (stewardOf s h) := by
  simp [stewardOf, modSteward, tmod]

theorem stewardOf_modSteward_other (h : Nat) (f : Steward → Steward) (s : State) (j : Nat) (hj : j ≠ h) : stewardOf (modSteward h f s) j = stewardOf s j := by
  simp [stewardOf, modSteward, tmod, tget_tset_other _ _ _ hj]

@[simp] theorem chanOf_modChan_same (c : Nat) (f : Chan → Chan) (s : State) : chanOf (modChan c f s) c = f (chanOf s c) := by
  simp [chanOf, modChan, tmod]

theorem chanOf_modChan_other (c : Nat) (f : Chan → Chan) (s : State) (j : Nat) (hj : j ≠ c) : chanOf (modChan c f s) j = chanOf s j := by
  simp [chanOf, modChan, tmod, tget_tset_other _ _ _ hj]

@[simp] theorem remapOf_modRemap_same (b : Nat) (f : Remap → Remap) (s : State) : remapOf (modRemap b f s) b = f (remapOf s b) := by
  simp [remapOf, modRemap, tmod]

theorem remapOf_modRemap_other (b : Nat) (f : Remap → Remap) (s : State) (j : Nat) (hj : j ≠ b) : remapOf (modRemap b f s) j = remapOf s j := by
  simp [remapOf, modRemap, tmod, tget_tset_other _ _ _ hj]

@[simp] theorem farPort_modFar_same (p : Nat) (f : FarPort → FarPort) (s : State) : farPort (modFar p f s) p = f (farPort s p) := by
  simp [farPort, modFar, tmod]

theorem farPort_modFar_other (p : Nat) (f : FarPort → FarPort) (s : State) (j : Nat) (hj : j ≠ p) : farPort (modFar p f s) j = farPort s j := by
  simp [farPort, modFar, tmod, tget_tset_other _ _ _ hj]

end Sys2Proof.Machine
end

