-- ==== Sys2Proof/Laws/Bench.lean ====
section
/-! SUPPORT. Bench registers: what a write of a register gives to a later read of it, and the little-endian byte lists. -/

namespace Sys2Proof.Machine

/-- Scalar register 0 reads as zero. -/
@[simp] theorem getS_zero (b : BenchSt) : getS b 0 = 0 := rfl

/-- Reading scalar register `q` after a write of `r`: a write of register 0 is discarded. -/
theorem getS_putS (b : BenchSt) (r q v : Nat) : getS (putS r v b) q = if q = r ∧ r ≠ 0 then v % 2 ^ 64 else getS b q := by
  by_cases hr : r = 0
  · simp [putS, hr]
  · by_cases hq : q = r
    · subst hq; simp [getS, putS, hr]
    · simp [getS, putS, hr, hq, tget_tset_other _ _ _ hq]

/-- Reading vector register `q` after a write of `r`. -/
theorem getV_putV (b : BenchSt) (r q v : Nat) : getV (putV r v b) q = if q = r then v % 2 ^ 256 else getV b q := by
  by_cases hq : q = r
  · subst hq; simp [getV, putV]
  · simp [getV, putV, hq, tget_tset_other _ _ _ hq]

/-- Mask register 0 reads as all ones. -/
@[simp] theorem getM_zero (b : BenchSt) : getM b 0 = 0xFFFFFFFF := rfl

/-- Reading mask register `q` after a write of `r`: a write of register 0 is discarded. -/
theorem getM_putM (b : BenchSt) (r q v : Nat) : getM (putM r v b) q = if q = r ∧ r ≠ 0 then v % 2 ^ 32 else getM b q := by
  by_cases hr : r = 0
  · simp [putM, hr]
  · by_cases hq : q = r
    · subst hq; simp [getM, putM, hr]
    · simp [getM, putM, hr, hq, tget_tset_other _ _ _ hq]

/-- A scalar write changes no vector or mask register, and a vector write no scalar or mask register. -/
@[simp] theorem getV_putS (b : BenchSt) (r q v : Nat) : getV (putS r v b) q = getV b q := by
  unfold putS; split <;> rfl

@[simp] theorem getM_putS (b : BenchSt) (r q v : Nat) : getM (putS r v b) q = getM b q := by
  unfold putS; split <;> rfl

@[simp] theorem getS_putV (b : BenchSt) (r q v : Nat) : getS (putV r v b) q = getS b q := rfl

@[simp] theorem getM_putV (b : BenchSt) (r q v : Nat) : getM (putV r v b) q = getM b q := rfl

@[simp] theorem getS_putM (b : BenchSt) (r q v : Nat) : getS (putM r v b) q = getS b q := by
  unfold putM; split <;> rfl

@[simp] theorem getV_putM (b : BenchSt) (r q v : Nat) : getV (putM r v b) q = getV b q := by
  unfold putM; split <;> rfl

/-! ### Little-endian bytes -/

@[simp] theorem leBytes_length (n x : Nat) : (leBytes n x).length = n := by
  induction n generalizing x with
  | zero => rfl
  | succ n ih => simp [leBytes, ih]

/-- The bytes of a number spell it again, as far as they reach. -/
theorem ofLeBytes_leBytes (n x : Nat) : ofLeBytes (leBytes n x) = x % 256 ^ n := by
  induction n generalizing x with
  | zero => simp [leBytes, ofLeBytes, Nat.mod_one]
  | succ n ih =>
    rw [leBytes, ofLeBytes, ih, pow_succ, mul_comm (256 ^ n), Nat.mod_mul, BitVec.toNat_ofNat]

end Sys2Proof.Machine
end

