-- ==== Sys2Proof/Laws/Memory.lean ====
section
/-! SUPPORT. Reading and writing memory: the canonical form that every memory operation keeps, and what a store leaves alone. -/

namespace Sys2Proof.Machine

/-! ### The canonical form -/

section
variable {α β : Type} [DecidableEq α]

theorem twf_filter (d : α) (t : Tbl α) (p : Nat × α → Bool) (h : twf d t = true) : twf d (t.filter p) = true := by
  simp only [twf, Bool.and_eq_true, List.all_eq_true, decide_eq_true_eq] at h ⊢
  exact ⟨tsorted_filter t p h.1, fun q hq => h.2 q (List.mem_filter.1 hq).1⟩

/-- Setting one entry after another keeps the canonical form. -/
theorem twf_foldl_tset (d : α) (key : β → Nat) (val : β → α) (l : List β) (t : Tbl α) (h : twf d t = true) :
    twf d (l.foldl (fun m x => tset d m (key x) (val x)) t) = true := by
  induction l generalizing t with
  | nil => exact h
  | cons x l ih => exact ih _ (twf_tset d t _ _ h)

end

theorem memOk_iff (s : State) : s.memOk = true ↔ twf (0 : BitVec 8) s.mem.bytes = true ∧ twf (0 : BitVec 8) s.host.mem = true := by
  simp [State.memOk, memoryWf]

/-- What changes no byte of device memory or host memory keeps both in canonical form. -/
theorem memOk_of_same {s t : State} (hb : t.mem.bytes = s.mem.bytes) (hh : t.host.mem = s.host.mem) (h : s.memOk = true) : t.memOk = true := by
  rw [memOk_iff] at h ⊢; rw [hb, hh]; exact h

/-- Operations that keep the form, one after another over a list. -/
theorem memOk_foldl {β : Type} (f : State → β → State) (hf : ∀ s b, s.memOk = true → (f s b).memOk = true) (l : List β) (s : State)
    (h : s.memOk = true) : (l.foldl f s).memOk = true := by
  induction l generalizing s with
  | nil => exact h
  | cons b l ih => exact ih _ (hf s b h)

theorem memOk_ite {p : Prop} [Decidable p] {a b : State} (ha : a.memOk = true) (hb : b.memOk = true) : (if p then a else b).memOk = true := by
  split
  · exact ha
  · exact hb

theorem memOk_reset : State.reset.memOk = true := rfl

/-! ### Operations that move no byte -/

theorem memOk_bump (off n : Nat) (s : State) (h : s.memOk = true) : (bump off n s).memOk = true := memOk_of_same (by simp) (by simp) h

theorem memOk_modRing (r : Nat) (f : RingSet → RingSet) (s : State) (h : s.memOk = true) : (modRing r f s).memOk = true :=
  memOk_of_same (by simp) rfl h

theorem memOk_modFrame (k : Nat) (f : Frame → Frame) (s : State) (h : s.memOk = true) : (modFrame k f s).memOk = true :=
  memOk_of_same rfl (by simp) h

theorem memOk_modStack (n : Nat) (f : StackSt → StackSt) (s : State) (h : s.memOk = true) : (modStack n f s).memOk = true :=
  memOk_of_same rfl rfl h

theorem memOk_setLine (ln : Nat) (bad : Bool) (s : State) (h : s.memOk = true) : (setLine ln bad s).memOk = true := memOk_of_same rfl rfl h

theorem memOk_countHeat (fk : Nat) (s : State) (h : s.memOk = true) : (countHeat fk s).memOk = true := memOk_of_same rfl rfl h

theorem memOk_summarise (fk : Nat) (s : State) (h : s.memOk = true) : (summarise fk s).memOk = true := by
  unfold summarise; split
  · exact memOk_modFrame _ _ _ h
  · exact h

theorem memOk_touchMixed (fk was : Nat) (s : State) (h : s.memOk = true) : (touchMixed fk was s).memOk = true := by
  have hx : (if was = 3 ∧ (stackOf s (fk / 2 ^ 20)).mixed.contains fk = false then bump (stkC (fk / 2 ^ 20) 0x138) 1 s else s).memOk = true := by
    split
    · exact memOk_bump _ _ _ h
    · exact h
  unfold touchMixed
  dsimp only
  split
  · exact memOk_modStack _ _ _ hx
  · exact hx

/-! ### Host memory and records -/

theorem memOk_hostWrite (a : Nat) (l : List Byte) (s : State) (h : s.memOk = true) : (hostWrite a l s).memOk = true := by
  rw [memOk_iff] at h ⊢; exact ⟨h.1, twf_foldl_tset _ _ _ _ _ h.2⟩

theorem memOk_writeSlot (ring : Nat) (e : EvRec) (s : State) (h : s.memOk = true) : (writeSlot ring e s).memOk = true :=
  memOk_bump _ _ _ (memOk_modRing _ _ _ (memOk_hostWrite _ _ _ h))

theorem memOk_sendMsix (ring : Nat) (s : State) (h : s.memOk = true) : (sendMsix ring s).memOk = true := by
  unfold sendMsix
  dsimp only
  refine memOk_modRing _ _ _ ?_
  split
  · exact memOk_modRing _ _ _ h
  · exact memOk_bump _ _ _ (memOk_hostWrite _ _ _ h)

theorem memOk_msixCheck (ring : Nat) (s : State) (h : s.memOk = true) : (msixCheck ring s).memOk = true := by
  unfold msixCheck
  dsimp only
  split
  · exact memOk_sendMsix _ _ h
  · exact h

theorem memOk_dropRecord (ring n : Nat) (s : State) (h : s.memOk = true) : (dropRecord ring n s).memOk = true :=
  memOk_bump _ _ _ (memOk_modRing _ _ _ h)

theorem memOk_storeRecord (ring : Nat) (e : EvRec) (s : State) (h : s.memOk = true) : (storeRecord ring e s).memOk = true := by
  unfold storeRecord
  dsimp only
  split
  · exact memOk_bump _ _ _ (memOk_modRing _ _ _ h)
  split
  · exact memOk_bump _ _ _ (memOk_modRing _ _ _ h)
  split
  · exact memOk_dropRecord _ _ _ h
  split
  · exact memOk_bump _ _ _ (memOk_modRing _ _ _ (memOk_dropRecord _ _ _ h))
  · exact memOk_dropRecord _ _ _ h

theorem memOk_writeLost (ring : Nat) (s : State) (h : s.memOk = true) : (writeLost ring s).memOk = true := by
  unfold writeLost
  dsimp only
  split
  · exact memOk_modRing _ _ _ (memOk_writeSlot _ _ _ h)
  · exact h

theorem memOk_emit (ring : Nat) (e : EvRec) (s : State) (h : s.memOk = true) : (emit ring e s).memOk = true := by
  unfold emit
  dsimp only
  split
  · exact h
  split
  · exact memOk_storeRecord _ _ _ h
  split
  · exact memOk_storeRecord _ _ _ (memOk_writeLost _ _ h)
  · exact memOk_msixCheck _ _ (memOk_writeSlot _ _ _ (memOk_writeLost _ _ h))

theorem memOk_emitOp (family kind code : Nat) (payload : List Nat) (s : State) (h : s.memOk = true) : (emitOp family kind code payload s).memOk = true :=
  memOk_emit _ _ _ h

theorem memOk_completion (ring op status tag result detail index : Nat) (s : State) (h : s.memOk = true) :
    (completion ring op status tag result detail index s).memOk = true := memOk_emit _ _ _ h

theorem memOk_emitPair (ring : Nat) (e f : EvRec) (s : State) (h : s.memOk = true) : (emitPair ring e f s).memOk = true := by
  have hx : (if (ringOf s ring).fresh || !(ringOf s ring).store.isEmpty then s else writeLost ring s).memOk = true := memOk_ite h (memOk_writeLost _ _ h)
  rw [emitPair]
  generalize (if (ringOf s ring).fresh || !(ringOf s ring).store.isEmpty then s else writeLost ring s) = x at hx
  exact memOk_ite h (memOk_ite (memOk_msixCheck _ _ (memOk_writeSlot _ _ _ (memOk_writeSlot _ _ _ hx)))
    (memOk_ite (memOk_storeRecord _ _ _ (memOk_storeRecord _ _ _ hx)) (memOk_dropRecord _ _ _ hx)))

theorem memOk_drainStore (k ring : Nat) (s : State) (h : s.memOk = true) : (drainStore k ring s).memOk = true := by
  induction k generalizing s with
  | zero => exact h
  | succ k ih =>
    have hw := memOk_writeLost ring s h
    rw [drainStore]
    generalize writeLost ring s = x at hw
    split
    · exact h
    · exact memOk_ite h (memOk_ite hw (ih _ (memOk_writeSlot _ _ _ (memOk_modRing _ _ _ hw))))

theorem memOk_seeHost (cells : List (Nat × BitVec 8)) (fails : List (Nat × Nat)) (s : State) (h : s.memOk = true) : (seeHost cells fails s).memOk = true := by
  rw [memOk_iff] at h ⊢; exact ⟨h.1, twf_foldl_tset _ _ _ _ _ h.2⟩

theorem memOk_setMask (t : Nat) (mask : Bool) (s : State) (h : s.memOk = true) : (setMask t mask s).memOk = true := by
  unfold setMask
  dsimp only
  split
  · exact memOk_bump _ _ _ (memOk_hostWrite _ _ _ (memOk_modRing _ _ _ (memOk_modRing _ _ _ h)))
  · exact memOk_modRing _ _ _ h

/-! ### Device memory -/

theorem memOk_storeKeys (l : List (Nat × Byte)) (s : State) (h : s.memOk = true) : (storeKeys l s).memOk = true := by
  rw [memOk_iff] at h ⊢; exact ⟨twf_foldl_tset _ _ _ _ _ h.1, h.2⟩

theorem memOk_lineWritten (ln count : Nat) (s : State) (h : s.memOk = true) : (lineWritten ln count s).memOk = true := by
  unfold lineWritten; split
  · exact memOk_setLine _ _ _ h
  · exact h

theorem memOk_sectorWritten (sk count : Nat) (s : State) (h : s.memOk = true) : (sectorWritten sk count s).memOk = true := by
  have h0 : (bump (stkC (sk / 2 ^ 30) 0x108) 1 (countHeat (sk / 1024) s)).memOk = true := memOk_bump _ _ _ (memOk_countHeat _ _ h)
  have h1 : ∀ (x : State) (v : Tbl Nat), x.memOk = true → ({ x with mem := { x.mem with sector := v } } : State).memOk = true :=
    fun x v hx => memOk_of_same rfl rfl hx
  unfold sectorWritten
  dsimp only
  split
  · exact memOk_bump _ _ _ h
  split
  · exact memOk_touchMixed _ _ _ (memOk_summarise _ _ (h1 _ _ h0))
  split
  · split
    · exact memOk_touchMixed _ _ _ (memOk_summarise _ _ (h1 _ _ h0))
    · exact memOk_bump _ _ _ (memOk_bump _ _ _ h0)
  · exact memOk_bump _ _ _ h0

theorem memOk_writeKeys (l : List (Nat × Byte)) (s : State) (h : s.memOk = true) : (writeKeys l s).memOk = true := by
  unfold writeKeys
  refine memOk_foldl _ ?_ _ _ (memOk_storeKeys _ _ h)
  intro x u hx
  dsimp only
  split
  · exact memOk_sectorWritten _ _ _ hx
  · exact memOk_lineWritten _ _ _ hx

theorem memOk_reduceWrite (kind addr : Nat) (data : List Byte) (s : State) (h : s.memOk = true) : (reduceWrite kind addr data s).memOk = true := by
  unfold reduceWrite
  exact memOk_bump _ _ _ (memOk_foldl _ (fun x p hx => memOk_storeKeys _ _ hx) _ _ h)

theorem memOk_writeDev (ten : Option Nat) (A : Nat) (data : List Byte) (s : State) (h : s.memOk = true) : (writeDev ten A data s).1.memOk = true := by
  unfold writeDev
  dsimp only
  split
  · split
    · exact memOk_reduceWrite _ _ _ _ h
    · exact h
  · split
    · exact memOk_foldl _ (fun x p hx => memOk_hostWrite _ _ _ hx) _ _ (memOk_writeKeys _ _ h)
    · exact h

theorem memOk_poisonRange (ten : Option Nat) (A n : Nat) (s : State) (h : s.memOk = true) : (poisonRange ten A n s).memOk = true := by
  unfold poisonRange
  refine memOk_foldl _ ?_ _ _ h
  intro x u hx
  dsimp only
  split
  · exact memOk_summarise _ _ (memOk_of_same rfl rfl hx)
  · exact memOk_setLine _ _ _ hx

theorem memOk_wipeFrame (k : Nat) (s : State) (h : s.memOk = true) : (wipeFrame k s).memOk = true := by
  rw [memOk_iff] at h ⊢; exact ⟨twf_filter _ _ _ h.1, h.2⟩

theorem memOk_freeFrame (k : Nat) (s : State) (h : s.memOk = true) : (freeFrame k s).memOk = true := by
  unfold freeFrame
  dsimp only
  refine memOk_modFrame _ _ _ (memOk_wipeFrame _ _ ?_)
  split
  · split
    · split
      · exact memOk_of_same rfl rfl h
      · exact h
    · exact h
  · exact h

theorem memOk_takeFrame (k : Nat) (stateCls : Bool) (use : FrameUse) (s : State) (h : s.memOk = true) : (takeFrame k stateCls use s).memOk = true :=
  memOk_modFrame _ _ _ (memOk_wipeFrame _ _ h)

theorem memOk_bindGranule (g k : Nat) (stateCls pinned : Bool) (tenant model order : Option Nat) (s : State) (h : s.memOk = true) :
    (bindGranule g k stateCls pinned tenant model order s).memOk = true := memOk_of_same rfl rfl h

theorem memOk_clearPage (p : Nat) (s : State) (h : s.memOk = true) : (clearPage p s).memOk = true := by
  have h1 : ({ s with mem := { s.mem with
      bytes := s.mem.bytes.filter (fun b => !(decide (whAddr p ≤ b.1 ∧ b.1 < whAddr p + 65536)))
      line := s.mem.line.filter (fun l => !(decide (whAddr p ≤ l.1 * 64 ∧ l.1 * 64 < whAddr p + 65536))) } } : State).memOk = true := by
    rw [memOk_iff] at h ⊢; exact ⟨twf_filter _ _ _ h.1, h.2⟩
  unfold clearPage
  dsimp only
  split
  · exact memOk_foldl _ (fun x i hx => memOk_setLine _ _ _ hx) _ _ h1
  · exact h1

theorem memOk_takePages (ps : List Nat) (owner : Nat) (s : State) (h : s.memOk = true) : (takePages ps owner s).memOk = true := by
  unfold takePages
  refine memOk_foldl _ ?_ _ _ h
  intro x p hx
  exact memOk_of_same (s := clearPage p x) rfl rfl (memOk_clearPage p x hx)

theorem memOk_writeWhole (k : Nat) (bytes : List (Nat × Byte)) (poison : List Nat) (s : State) (h : s.memOk = true) :
    (writeWhole k bytes poison s).memOk = true := by
  unfold writeWhole
  refine memOk_summarise _ _ ?_
  have h1 := memOk_wipeFrame k s h
  rw [memOk_iff] at h1 ⊢; exact ⟨twf_foldl_tset _ _ _ _ _ h1.1, h1.2⟩

theorem memOk_copyFrame (src dst : Nat) (s : State) (h : s.memOk = true) : (copyFrame src dst s).memOk = true := by
  unfold copyFrame
  refine memOk_summarise _ _ ?_
  have h1 := memOk_wipeFrame dst s h
  rw [memOk_iff] at h1 ⊢; exact ⟨twf_foldl_tset _ _ _ _ _ h1.1, h1.2⟩

theorem memOk_shopCleared (n : Nat) (s : State) (h : s.memOk = true) : (shopCleared n s).memOk = true := by
  rw [memOk_iff] at h ⊢; exact ⟨twf_filter _ _ _ h.1, h.2⟩

theorem memOk_poisonWarehouse (q : Nat) (s : State) (h : s.memOk = true) : (poisonWarehouse q s).memOk = true := by
  rw [memOk_iff] at h ⊢; exact ⟨twf_filter _ _ _ h.1, h.2⟩

theorem memOk_computeCleared (s : State) (h : s.memOk = true) : (computeCleared s).memOk = true := by
  rw [memOk_iff] at h ⊢; exact ⟨rfl, h.2⟩

/-! ### What a store changes -/

/-- A byte that no cell of a list names keeps its value. -/
theorem tget_foldl_tset_other (l : List (Nat × Byte)) (t : Tbl Byte) (k : Nat) (h : ∀ p ∈ l, p.1 ≠ k) :
    tget 0 (l.foldl (fun m p => tset (0 : Byte) m p.1 p.2) t) k = tget 0 t k := by
  induction l generalizing t with
  | nil => rfl
  | cons p l ih =>
    rw [List.foldl_cons, ih _ (fun q hq => h q (by simp [hq])), tget_tset_other _ _ _ (h p (by simp)).symm]

/-- A store leaves every other byte of device memory alone. -/
theorem keyByte_storeKeys_other (l : List (Nat × Byte)) (s : State) (k : Nat) (h : ∀ p ∈ l, p.1 ≠ k) : keyByte (storeKeys l s) k = keyByte s k :=
  tget_foldl_tset_other l _ k h

/-- A byte just stored reads as stored. -/
@[simp] theorem keyByte_storeKeys_one (k : Nat) (v : Byte) (s : State) : keyByte (storeKeys [(k, v)] s) k = v := by
  simp [keyByte, storeKeys]

/-- Bytes stored from a key on. -/
theorem keyByte_storeKeys_block (a : Nat) (data : List Byte) (s : State) (k : Nat) :
    keyByte (storeKeys (data.zipIdx.map (fun p => (a + p.2, p.1))) s) k = if a ≤ k ∧ k < a + data.length then data.getD (k - a) 0 else keyByte s k := by
  have key : ∀ (data : List Byte) (i : Nat) (t : Tbl Byte),
      tget 0 (((data.zipIdx i).map (fun p => (a + p.2, p.1))).foldl (fun m p => tset (0 : Byte) m p.1 p.2) t) k =
        if a + i ≤ k ∧ k < a + i + data.length then data.getD (k - (a + i)) 0 else tget 0 t k := by
    intro data
    induction data with
    | nil => intro i t; simp
    | cons b l ih =>
      intro i t
      rw [List.zipIdx_cons, List.map_cons, List.foldl_cons, ih]
      by_cases h0 : k = a + i
      · subst h0; simp
      · rw [tget_tset_other _ _ _ h0]
        by_cases h1 : a + i ≤ k ∧ k < a + i + (b :: l).length
        · have hk : k - (a + i) = (k - (a + (i + 1))) + 1 := by omega
          rw [if_pos h1, if_pos (by simp only [List.length_cons] at h1; omega), hk]
          rfl
        · rw [if_neg h1, if_neg (by simp only [List.length_cons] at h1; omega)]
  simpa [keyByte, storeKeys] using key data 0 s.mem.bytes

/-- Wiping a frame leaves the bytes of every other key alone. -/
theorem keyByte_wipeFrame_other (k f : Nat) (s : State) (h : k / 65536 ≠ f ∨ 0xC000000000 ≤ k) : keyByte (wipeFrame f s) k = keyByte s k := by
  have key : ∀ (p : Nat × Byte → Bool) (_ : ∀ v, p (k, v) = true) (t : Tbl Byte), tget 0 (t.filter p) k = tget 0 t k := by
    intro p hp t
    induction t with
    | nil => rfl
    | cons q t ih =>
      by_cases hq : q.1 = k
      · rw [List.filter_cons_of_pos (by rw [← hq] at hp; exact hp q.2)]; simp [tget, hq]
      · by_cases hf : p q = true
        · rw [List.filter_cons_of_pos hf]; simpa [tget, hq] using ih
        · rw [List.filter_cons_of_neg hf, ih]; simp [tget, hq]
  exact key _ (fun v => by simpa using h) s.mem.bytes

/-- What changes no byte of device memory leaves every byte as it reads. -/
theorem sameBytes_of_same {s t : State} (h : t.mem.bytes = s.mem.bytes) : sameBytes s t := fun k => by simp [keyByte, h]

end Sys2Proof.Machine
end

