-- ==== Sys2Proof/Laws/Events.lean ====
section
/-! SUPPORT. What an event record and an error-log record may change: counters, the rings and host memory, the log and the flash writes that wait. -/

namespace Sys2Proof.Machine

/-- Only counters, the ring sets with host memory, and when `log` holds the error log and the held flash writes differ. -/
def recordsOnly (log : Prop) (s t : State) : Prop :=
  countersOnly s t ∧ t = { s with regs := t.regs, host := t.host, ras := t.ras, therm := t.therm } ∧ (¬log → t.ras = s.ras ∧ t.therm = s.therm)

theorem recordsOnly_refl (log : Prop) (s : State) : recordsOnly log s s := ⟨rfl, rfl, fun _ => ⟨rfl, rfl⟩⟩

theorem recordsOnly_trans {log : Prop} {s t u : State} (h : recordsOnly log s t) (k : recordsOnly log t u) : recordsOnly log s u := by
  obtain ⟨h1, h2, h3⟩ := h
  obtain ⟨k1, k2, k3⟩ := k
  refine ⟨?_, ?_, fun hl => ?_⟩
  · unfold countersOnly at *; rw [k1, h1]
  · rw [k2, h2]
  · have a := h3 hl; have b := k3 hl; exact ⟨b.1.trans a.1, b.2.trans a.2⟩

theorem recordsOnly_ite {log p : Prop} [Decidable p] {s a b : State} (ha : recordsOnly log s a) (hb : recordsOnly log s b) :
    recordsOnly log s (if p then a else b) := by
  split
  · exact ha
  · exact hb

theorem recordsOnly_weaken {s t : State} (h : recordsOnly False s t) : recordsOnly True s t := ⟨h.1, h.2.1, fun hl => absurd trivial hl⟩

theorem recordsOnly_bump (log : Prop) (off n : Nat) (s : State) : recordsOnly log s (bump off n s) := by
  dsimp only [bump]
  exact recordsOnly_ite ⟨rfl, rfl, fun _ => ⟨rfl, rfl⟩⟩ ⟨rfl, rfl, fun _ => ⟨rfl, rfl⟩⟩

theorem recordsOnly_bumped {log : Prop} {s t : State} (h : recordsOnly log s t) (off n : Nat) : recordsOnly log s (bump off n t) :=
  recordsOnly_trans h (recordsOnly_bump _ _ _ _)

theorem recordsOnly_ringed {log : Prop} {s t : State} (h : recordsOnly log s t) (r : Nat) (f : RingSet → RingSet) : recordsOnly log s (modRing r f t) :=
  recordsOnly_trans h ⟨rfl, rfl, fun _ => ⟨rfl, rfl⟩⟩

theorem recordsOnly_hosted {log : Prop} {s t : State} (h : recordsOnly log s t) (a : Nat) (l : List Byte) : recordsOnly log s (hostWrite a l t) :=
  recordsOnly_trans h ⟨rfl, rfl, fun _ => ⟨rfl, rfl⟩⟩

theorem recordsOnly_writeSlot {log : Prop} {s t : State} (h : recordsOnly log s t) (ring : Nat) (e : EvRec) : recordsOnly log s (writeSlot ring e t) :=
  recordsOnly_bumped (recordsOnly_ringed (recordsOnly_hosted h _ _) _ _) _ _

theorem recordsOnly_msixCheck {log : Prop} {s t : State} (h : recordsOnly log s t) (ring : Nat) : recordsOnly log s (msixCheck ring t) := by
  unfold msixCheck sendMsix
  exact recordsOnly_ite (recordsOnly_ringed (recordsOnly_ite (recordsOnly_ringed h _ _) (recordsOnly_bumped (recordsOnly_hosted h _ _) _ _)) _ _) h

theorem recordsOnly_dropRecord {log : Prop} {s t : State} (h : recordsOnly log s t) (ring n : Nat) : recordsOnly log s (dropRecord ring n t) :=
  recordsOnly_bumped (recordsOnly_ringed h _ _) _ _

theorem recordsOnly_storeRecord {log : Prop} {s t : State} (h : recordsOnly log s t) (ring : Nat) (e : EvRec) : recordsOnly log s (storeRecord ring e t) := by
  unfold storeRecord
  refine recordsOnly_ite (recordsOnly_bumped (recordsOnly_ringed h _ _) _ _) (recordsOnly_ite (recordsOnly_bumped (recordsOnly_ringed h _ _) _ _)
    (recordsOnly_ite (recordsOnly_dropRecord h _ _) ?_))
  split
  · exact recordsOnly_bumped (recordsOnly_ringed (recordsOnly_dropRecord h _ _) _ _) _ _
  · exact recordsOnly_dropRecord h _ _

theorem recordsOnly_writeLost {log : Prop} {s t : State} (h : recordsOnly log s t) (ring : Nat) : recordsOnly log s (writeLost ring t) := by
  unfold writeLost
  exact recordsOnly_ite (recordsOnly_ringed (recordsOnly_writeSlot h _ _) _ _) h

/-- An event record changes counters, its ring set and host memory, and nothing else. -/
theorem emit_recordsOnly (ring : Nat) (e : EvRec) (s : State) : recordsOnly False s (emit ring e s) := by
  have h := recordsOnly_refl False s
  unfold emit
  exact recordsOnly_ite h (recordsOnly_ite (recordsOnly_storeRecord h _ _) (recordsOnly_ite (recordsOnly_storeRecord (recordsOnly_writeLost h _) _ _)
    (recordsOnly_msixCheck (recordsOnly_writeSlot (recordsOnly_writeLost h _) _ _) _)))

theorem completion_recordsOnly (ring op status tag result detail index : Nat) (s : State) :
    recordsOnly False s (completion ring op status tag result detail index s) := emit_recordsOnly _ _ _

/-- A ring set that is not started takes no record. -/
theorem emit_not_started (ring : Nat) (e : EvRec) (s : State) (h : (ringOf s ring).started = false) : emit ring e s = s := by
  simp [emit, h]

/-- A record of the error log written to flash, or held while the window is closed. -/
theorem flashWrite_recordsOnly (h : HeldRec) (hk : h.kind ≤ 2) (s : State) : recordsOnly True s (flashWrite h s) := by
  have hs := recordsOnly_refl True s
  have hb := recordsOnly_bump True 0x400120 1 s
  have keep : ∀ {t : State} (x : List HeldRec), recordsOnly True s t → recordsOnly True s { t with therm := { t.therm with held := x } } :=
    fun x ht => recordsOnly_trans ht ⟨rfl, rfl, fun hl => absurd trivial hl⟩
  unfold flashWrite
  refine recordsOnly_ite ?_ (recordsOnly_ite (keep _ hb) (recordsOnly_ite (keep _ hb) (recordsOnly_bumped hb _ _)))
  unfold flashCommit
  split
  · exact ⟨rfl, rfl, fun hl => absurd trivial hl⟩
  · have h1 : recordsOnly True s { s with therm := { s.therm with audit := (h.words :: s.therm.audit).take 16384 } } :=
      ⟨rfl, rfl, fun hl => absurd trivial hl⟩
    exact recordsOnly_ite (recordsOnly_bumped h1 _ _) h1
  · exact hs
  · rename_i h0 h1 h2
    exact absurd (show h.kind = 0 ∨ h.kind = 1 ∨ h.kind = 2 by omega) (fun hx => by rcases hx with hx | hx | hx <;> simp_all)

/-- An error-log record changes counters, the log, the flash writes that wait, the operator's ring set and host memory, and nothing else. -/
theorem rasLog_recordsOnly (typ sev unit addr pos owner detail : Nat) (s : State) : recordsOnly True s (rasLog typ sev unit addr pos owner detail s) := by
  have log : ∀ {t : State} (x : RasSt), recordsOnly True s t → recordsOnly True s { t with ras := x } :=
    fun x ht => recordsOnly_trans ht ⟨rfl, rfl, fun hl => absurd trivial hl⟩
  have hs := recordsOnly_refl True s
  unfold rasLog rasLogN
  refine recordsOnly_ite (log _ hs) (recordsOnly_trans ?_ (recordsOnly_weaken (emit_recordsOnly _ _ _)))
  have h1 := log { (if s.ras.log.length ≥ 4096 then bump 0x1400160 1 s else s).ras with
      log := (⟨typ, sev, rasNv typ, 1, s.bell % 2 ^ 32, unit, addr, pos, owner, detail, nowMs s, (s.ras.seq + 1) % 2 ^ 32⟩ ::
        (if s.ras.log.length ≥ 4096 then bump 0x1400160 1 s else s).ras.log).take 4096
      seq := (s.ras.seq + 1) % 2 ^ 32 } (recordsOnly_ite (p := s.ras.log.length ≥ 4096) (recordsOnly_bump True 0x1400160 1 s) hs)
  exact recordsOnly_ite (recordsOnly_trans h1 (flashWrite_recordsOnly ⟨0, _, []⟩ (by simp) _)) h1

end Sys2Proof.Machine
end

