-- ==== Sys2Proof/Tests/Slice0.lean ====
section
/-! SUPPORT. Tests of one step each, and witnesses of the statements' hypotheses. -/

namespace Sys2Proof.Tests

open Machine

-- One theorem at a time: the checks of this file need little memory then.
set_option Elab.async false

/-! ### Small states -/

/-- A command of an engine under context 1, with its body words. -/
def cmd (engine opcode : Nat) (body : List Nat) : Cmd := ⟨engine, opcode, 1, false, none, 0, 0, body, 0, 0, .ticket 0 0, false, []⟩

def running (c : Cmd) : Run := ⟨c, false, 0, false, [], [], none⟩

/-- Shop 0 is present, and as given. -/
def withShop (sh : ShopSt) : State := { State.reset with shops := [(0, { sh with state := 0 })] }

/-- A launch of shop 0 with 2 instances, one of them undispatched. -/
def launch0 : Launch := ⟨cmd 2 0x21 [0, 0, 0], 0, 0, 0, 1, 2, 1, 0, 0, 0, false, false, 0, none⟩

/-- Bench 0 of shop 0 runs an instance of that launch. -/
def withBench (b : BenchSt) : State :=
  { withShop { ShopSt.reset with launches := [launch0] } with benches := [(0, { b with launch := some 0 })] }

def warehouse0 : Nat := 0x010000000000

/-! ### Benches -/

theorem witness_BenchResults : benchIssues (withBench BenchSt.reset) 0 0 [31, 31, 31, 31] [31, 31] = true ∧
    benchIssues (withBench BenchSt.reset) 0 0 [] ([0, 31] ++ pairRegs 3 [30, 30]) = true ∧ isFp8 3 = true ∧ isFp8 1 = false ∧ lanes 3 = 32 ∧
    csrRead (withBench BenchSt.reset) 0 0 BenchSt.reset 8 = some 0 :=
  ⟨by decide +kernel, by decide +kernel, by decide +kernel, by decide +kernel, by decide +kernel, by decide +kernel⟩

theorem witness_BenchSpecialCompareConvert : codeFmt 0 = some .fp32 ∧ codeFmt 10 ≠ none ∧ cvtPartOk .fp32 .bf16 1 = true ∧ cvtPartOk .bf16 .bf16 0 = true :=
  ⟨by decide +kernel, by decide +kernel, by decide +kernel, by decide +kernel⟩

/-- Both sides of the local memory's end: 0x1000 − 8 with 8 bytes lies inside, with 32 it does not. -/
theorem witness_BenchLocalMemory :
    let s := withBench { BenchSt.reset with s := [(1, 0xFF8)] }
    benchIssues s 0 0 [31, 1] [31] = true ∧ getS (benchOf s 0) 1 % 8 = 0 ∧ getS (benchOf s 0) 1 + 8 ≤ 4096 ∧ ¬(getS (benchOf s 0) 1 % 32 = 0) ∧
    benchIssues (withBench { BenchSt.reset with loop := none }) 0 0 [31, 31, 31] [] = true :=
  ⟨by decide +kernel, by decide +kernel, by decide +kernel, by decide +kernel, by decide +kernel⟩

def onWarehouse : State := withBench { BenchSt.reset with s := [(1, 0x010000000000)] }

theorem witness_BenchDeviceMemory :
    (BitVec.ofNat 64 (getS (benchOf onWarehouse 0) 1) + (BitVec.ofNat 16 0).signExtend 64).toNat = warehouse0 ∧
    accessIssues onWarehouse 0 0 [1] [31] warehouse0 32 = true ∧ (peekCtx onWarehouse 0 none warehouse0 32).ok = true ∧
    (∀ i, i < 32 → homeKey (resolve onWarehouse none (warehouse0 + i)) = some (warehouse0 + i)) ∧ warehouse0 % 32 = 0 ∧ writeOk onWarehouse 0 none warehouse0 32 = true ∧
    accessIssues onWarehouse 0 0 [31, 1, 2] [] warehouse0 8 = true ∧ resolve onWarehouse none warehouse0 = .warehouse warehouse0 ∧
    keyPoison onWarehouse warehouse0 = 0 ∧ keyPoison { onWarehouse with mem := { onWarehouse.mem with line := [(warehouse0 / 64, true)] } } warehouse0 ≠ 0 :=
  ⟨by decide +kernel, by decide +kernel, by decide +kernel, by decide +kernel, by decide +kernel, by decide +kernel, by decide +kernel, by decide +kernel, by decide +kernel, by decide +kernel⟩

def accesses : List OutAcc := [⟨0, 0, 31, [1], false, true⟩, ⟨1, 1, 0, [], false, true⟩, ⟨2, 2, 0, [2], false, true⟩]

theorem witness_BenchAccessReturns : ∀ i, i < 3 → ((benchOf (withBench { BenchSt.reset with out := accesses }) 0).out.find? (fun a => decide (a.id = i))).map
    (fun a => (a.kind, a.poison, a.arrived)) = some (i, false, true) := by decide +kernel

theorem witness_BenchOrderingAndTallies :
    let s := withBench { BenchSt.reset with s := [(1, 65471), (2, 1), (3, 65472)] }
    benchIssues s 0 0 [1, 2] [] = true ∧ tallyAllowed s none (getS (benchOf s 0) 1) = true ∧ (benchOf s 0).fence = [] ∧
    getS (benchOf s 0) 0 % 2 ^ 32 ≤ (tallyOf s 65471).value.toNat ∧ (tallyOf s 65471).value.toNat < getS (benchOf s 0) 2 % 2 ^ 32 ∧
    tget none s.tal.relays 65471 = none ∧ tallyAllowed s none (getS (benchOf s 0) 3) = false ∧ launchOf s 0 = some launch0 ∧ (shopOf s 0).benchFault = none :=
  ⟨by decide +kernel, by decide +kernel, by decide +kernel, by decide +kernel, by decide +kernel, by decide +kernel, by decide +kernel, by decide +kernel, by decide +kernel⟩

theorem witness_BenchHalts : benchIssues (withBench BenchSt.reset) 0 0 [] [] = true ∧ (benchOf (withBench BenchSt.reset) (benchKey 0 0)).launch = some 0 ∧
    (shopOf (withBench BenchSt.reset) 0).launches[0]? = some launch0 ∧ launchFor (withBench BenchSt.reset) 0 0 = some 0 ∧
    launchFor { withShop { ShopSt.reset with launches := [{ launch0 with next := 2 }] } with benches := [(0, { BenchSt.reset with launch := some 0 })] } 0 0 = none :=
  ⟨by decide +kernel, by decide +kernel, by decide +kernel, by decide +kernel, by decide +kernel⟩

/-- A kernel image of one zero instruction at the warehouse's start, with kernel ID 7; its CRC-32 is that of four zero bytes. -/
def kernelImage : List (Nat × Byte) :=
  [(0, 0x42), (1, 0x4E), (2, 0x43), (3, 0x48), (4, 2), (5, 0xA1), (6, 7), (8, 1), (12, 0x1C), (13, 0xDF), (14, 0x44), (15, 0x21)].map (fun p => (warehouse0 + p.1, p.2))

def kloadS : State :=
  let s := withShop { ShopSt.reset with engines := ShopSt.reset.engines.set 2 ⟨[], [running (cmd 2 0x20 [warehouse0, 2 ^ 16 + 2 ^ 2 + 3])]⟩ }
  { s with mem := { s.mem with bytes := kernelImage } }

def launchS : State := withShop { ShopSt.reset with
  engines := ShopSt.reset.engines.set 2 ⟨[], [running (cmd 2 0x21 [0, 0, 7 + 2 ^ 28])]⟩, slots := [(0, some ⟨7, 1, none, 0⟩)] }

theorem witness_BenchGroupEngine :
    (∃ r, activeRun kloadS 0 2 0x20 = some r ∧ bf r.cmd.body 1 1 0 + bf r.cmd.body 1 4 2 ≤ 4 ∧ 1 ≤ bf r.cmd.body 1 4 2) ∧
    (peekCtx kloadS 1 none warehouse0 32).ok = true ∧ (peekCtx kloadS 1 none warehouse0 32).poison = 0 ∧
    benchHdrOk 2 768 (peekCtx kloadS 1 none warehouse0 32).data = true ∧ (peekCtx kloadS 1 none (warehouse0 + 32) 4).ok = true ∧
    (crc32 (peekCtx kloadS 1 none (warehouse0 + 32) 4).data).toNat = leAt (peekCtx kloadS 1 none warehouse0 32).data 12 4 ∧
    (newLaunch launchS 0).isSome = true ∧ (tget none (shopOf launchS 0).slots 0) = some ⟨7, 1, none, 0⟩ ∧ (shopOf launchS 0).launches = [] ∧
    (shopOf (withShop { ShopSt.reset with launches := [{ launch0 with halted := 2 }] }) 0).launches.findIdx?
      (launchOver (withShop { ShopSt.reset with launches := [{ launch0 with halted := 2 }] }) 0) = some 0 :=
  ⟨⟨_, rfl, by decide +kernel, by decide +kernel⟩, by decide +kernel, by decide +kernel, by decide +kernel, by decide +kernel, by decide +kernel, by decide +kernel, by decide +kernel, by decide +kernel, by decide +kernel⟩

theorem witness_BenchErrorsResetsFirmware :
    let s := withShop { ShopSt.reset with fwPending := some (1, 2, [3]) }
    let b := withBench BenchSt.reset
    shopPresent s 0 = true ∧ (benchOf s 255).absent = false ∧ (benchOf s 255).launch = none ∧ (shopOf s 0).spareFree > 0 ∧ launchOf b 0 = some launch0 ∧
    launch0.idem = false ∧ (benchOf b 0).launch.isSome = true ∧ launchFor s 0 255 = none ∧ (shopOf s 0).launches = [] ∧ (shopOf s 0).fwPending = some (1, 2, [3]) :=
  ⟨by decide +kernel, by decide +kernel, by decide +kernel, by decide +kernel, by decide +kernel, by decide +kernel, by decide +kernel, by decide +kernel, by decide +kernel, by decide +kernel⟩

/-! ### Engines and the matrix array -/

/-- Shop 0 with every stockroom granule in a window of context 1 and one engine running a command. -/
def withRun (engine : Nat) (c : Cmd) : State := withShop { ShopSt.reset with
  engines := ShopSt.reset.engines.set engine ⟨[], [running c]⟩, windows := [⟨1, none, 0, 384, false, 0⟩] }

def atHand (c : Nat) (s : State) (a : Nat) : Bool := (ctxByte s c none a).map (fun x => x.2) == some 0

def loadCmd : Cmd := cmd 0 1 [warehouse0, 0x17FFFF + 2 ^ 21]
def storeCmd : Cmd := cmd 3 0x30 [warehouse0, 2 ^ 21]

theorem witness_LoadAndStore :
    let s := withRun 0 loadCmd
    let u := withRun 3 storeCmd
    activeRun s 0 0 1 = some (running loadCmd) ∧ (running loadCmd).refused = none ∧ remoteOf s none warehouse0 = none ∧
    homeInReset s (resolve s none warehouse0) = false ∧ bf loadCmd.body 1 20 0 + bf loadCmd.body 1 41 21 = 0x180000 ∧ atHand 1 s warehouse0 = true ∧
    loadTargets s 0 loadCmd.body = [0] ∧ winOk s 1 0 0x17FFFF 1 = true ∧
    activeRun u 0 3 0x30 = some (running storeCmd) ∧ roomPoison u 0 0 4 = false ∧ bf storeCmd.body 1 47 21 = 1 ∧
    (∀ i, i < 4 → homeKey (resolve u none (warehouse0 + i)) = some (warehouse0 + i)) :=
  ⟨by decide +kernel, by decide +kernel, by decide +kernel, by decide +kernel, by decide +kernel, by decide +kernel, by decide +kernel, by decide +kernel, by decide +kernel, by decide +kernel, by decide +kernel, by decide +kernel⟩

/-- A cache of one layer, one head and 256 positions of 128 FP8 values; order 5 holds its first page in granule 8, frame 3 of stack 0. -/
def one (extent : Nat) : DimSplit := ⟨extent, 0, 0, 1, 1, 0, 1, 1⟩
def kv0 : KvDesc := ⟨2, 0, 128, one 1, one 1, one 256⟩
def model0 : ModelRec := ⟨0, 256, some kv0, [none], [], [], [], [], [], [], [], [], [], [], false, false⟩
def step0 : StepRec := ⟨0, 1, true, false, true, 1, 0, false, [], false, false, [5]⟩
def order5 : OrderRec := { OrderRec.reset with state := 3, n := 1, pages := [(0, 9)], step := some step0 }
def map8 : Tbl (Option MapEnt) := [(8, some ⟨3, 0, false, false, 0, 0, false, false, 0, some 0, some 0, some 5⟩)]
def ctx1 : CtxRec := ⟨some 0, false, some (5, 0), 0, 0, 0, none, false, [5]⟩

/-- A state with order 5 of model 0 in a step under context 1. -/
def withOrder (s : State) : State :=
  { s with
    book := { s.book with orders := [(5, order5)], models := [(0, some model0)] }
    mem := { s.mem with map := map8 }
    sched := { s.sched with ctxs := [(1, some ctx1)] } }

def kvCmd : Cmd := { cmd 3 0x31 [0, 2 ^ 21 + 128 * 2 ^ 34 + 2 * 2 ^ 48, 5] with tenant := some 0 }

theorem witness_StoreKvWritesRows :
    let s := withOrder (withRun 3 kvCmd)
    activeRun s 0 3 0x31 = some (running kvCmd) ∧ storeKvOrder s kvCmd = .inr 5 ∧ orderKv s 5 = some kv0 ∧ bf kvCmd.body 1 33 21 = 1 ∧
    kvCheck s 5 0 0 0 1 128 0 2 = 0 ∧ roomPoison s 0 0 512 = false ∧ (devHolds kv0.layers 0 0 && devHolds kv0.heads 0 0 && devHolds kv0.pos 0 0) = true ∧
    kvRowKey s 5 0 0 0 0 = some (3 * 65536) ∧ (frameOf s 3).lost = false ∧ kvParts s kv0 = (0, 0, 0) :=
  ⟨by decide +kernel, by decide +kernel, by decide +kernel, by decide +kernel, by decide +kernel, by decide +kernel, by decide +kernel, by decide +kernel, by decide +kernel, by decide +kernel⟩

/-- A LOAD_PLANE of one segment without blocks. -/
def planeCmd : Cmd := cmd 0 2 [warehouse0, 1024 * 2 ^ 21]

theorem witness_PlaneLoads :
    activeRun (withRun 0 planeCmd) 0 0 2 = some (running planeCmd) ∧ (∀ i, i < 1024 → atHand 1 (withRun 0 planeCmd) (warehouse0 + i) = true) ∧
    (segmentsOf (List.replicate 1024 0) 2 0).2 = true ∧ ((segmentsOf (List.replicate 1024 0) 2 0).1.map (fun g => g.headers)) = [[]] ∧
    (segmentsOf (List.replicate 1023 0) 1 0).2 = false ∧ ((segmentsOf (63 :: List.replicate 1279 0) 2 0).1.map (fun g => g.headers)) = [[63]] ∧
    planeHeaderOk 63 = true :=
  ⟨by decide +kernel, by decide +kernel, by decide +kernel, by decide +kernel, by decide +kernel, by decide +kernel, by decide +kernel⟩

/-- One element moved from 0 to 0x2000 of the stockroom; the layout at 0x1000, the index at 0x3000. -/
def moveCmd (op : Nat) : Cmd := cmd 4 op [0x2000 * 2 ^ 21 + 0x3000 * 2 ^ 42, 0x1000, 1]
def moveS (op sext : Nat) : State :=
  let s := withRun 4 (moveCmd op)
  { s with mem := { s.mem with bytes := [(roomAddr 0 0x1008, 1)] ++ (if sext = 0 then [] else [(roomAddr 0 0x1030, 1)]) } }

theorem witness_Transforms : ∀ p, p ∈ [(0x40, 0), (0x41, 1), (0x42, 1)] →
    let s := moveS p.1 p.2
    let r := running (moveCmd p.1)
    activeRun s 0 4 p.1 = some r ∧ transformCode s 0 p.1 r = 0 ∧ transformMoves s 0 p.1 r = [(some 0, 0)] ∧ elemPoison s 0 (transformFmt r) 0 0 = false := by
  decide +kernel

def passCmd : Cmd := cmd 1 0x10 [0, 0, 1 + 2 ^ 13 + 2 ^ 22 + 2 ^ 32]
def passS : State := withRun 1 passCmd
def pass0 : PassSt := ⟨passCmd, 0, true, 0, [[[0]]], 0, none, none⟩

theorem witness_ArrayPasses : nextPass passS 0 = some (running passCmd) ∧ pCont passCmd.body = false ∧ tileRows passCmd.body = 1 ∧ rowPoison passS 0 passCmd.body 0 = false ∧
    (shopOf passS 0).array.passes.length < 2 ∧ (shopOf passS 0).array.count < 2 :=
  ⟨by decide +kernel, by decide +kernel, by decide +kernel, by decide +kernel, by decide +kernel, by decide +kernel⟩

theorem witness_ArrayDrainAndReplay :
    let s := withShop { ShopSt.reset with array := { ArraySt.reset with passes := [pass0] } }
    let f := { pass0 with flag := some (127, 127, false, false) }
    let u := withShop { ShopSt.reset with array := { ArraySt.reset with passes := [f], rowsOff := [(128, false)], colsOff := [] } }
    (shopOf s 0).array.passes = [pass0] ∧ pass0.flag = none ∧ pass0.poisonAt ≠ some 0 ∧ (drainCell s 0 ArraySt.reset pass0 0 0 0).2.2.2 = false ∧
    (shopOf u 0).array.passes = [f] ∧ (∀ x, x ∈ (shopOf u 0).array.colsOff ++ (shopOf u 0).array.rowsOff → x.2 = false) ∧
    ArraySt.reset.colsOff.find? (fun x => x.2) = some (128, true) :=
  ⟨by decide +kernel, by decide +kernel, by decide +kernel, by decide +kernel, by decide +kernel, by decide +kernel, by decide +kernel⟩

/-! ### Sheets, tickets and engine queues -/

/-- Registers of a sheet of two tiles whose one template, number 0, makes a NOP on engine 0; its resume record lies at the warehouse's start. -/
def sheetRegs : List Nat :=
  [0x54454853 + 0xA1 * 2 ^ 32 + 2 ^ 40, 1 + 2 ^ 8, warehouse0, 1000 + 100 * 2 ^ 32, 2, 0, 0, 0, 2] ++ List.replicate 87 0 ++ [8] ++ List.replicate 159 0

def cursor0 : Cursor := ⟨List.replicate 7 0, 0, 0, 0⟩

/-- Bank 0 of shop 0 as given, under context 1, with the placement of a sheet image at 0x40. -/
def withBank (b : SheetBank) : State :=
  { withShop { ShopSt.reset with banks := [{ b with ctx := 1, addr := 0x40 }, SheetBank.reset] } with sched := { SchedSt.reset with ctxs := [(1, some ctx1)] } }

def waitingBank : SheetBank := { SheetBank.reset with st := 2, regs := sheetRegs }
def runningBank : SheetBank := { waitingBank with st := 3, go := true, cur := some cursor0, tokens := List.replicate 20 0 }

def busyBanks : State := withShop { ShopSt.reset with banks := [{ SheetBank.reset with st := 3 }, { SheetBank.reset with st := 3, lc := true }], loads := [⟨1, 0, true, none⟩] }

theorem witness_SheetLoadsAndStarts :
    let s := withBank waitingBank
    let g := withBank { waitingBank with go := true }
    shopPresent s 0 = true ∧ ctxOf s 1 = some ctx1 ∧ (shopOf s 0).loads = [] ∧ (shopOf s 0).banks.findIdx? (fun k => decide (k.st = 0)) = some 1 ∧
    (∀ k, k ∈ (shopOf busyBanks 0).banks → k.st ≠ 0) ∧ (bankOf (withBank { SheetBank.reset with st := 1 }) 0 0).st = 1 ∧
    bankFor s 0 1 0x40 = some 0 ∧ (bankOf s 0 0).go = false ∧ (bankOf s 0 0).bad = none ∧ tallyWordsOk s none (sheetWaits sheetRegs ++ sheetSignals sheetRegs) = true ∧
    (shopOf s 0).fault = none ∧ (bankOf (withBank { waitingBank with bad := some 0 }) 0 0).bad = some 0 ∧
    waitsHold (sheetWaits sheetRegs) 0 = true ∧ grantable g 0 none (sheetWindows sheetRegs) = true ∧
    nextEmission sheetRegs (nestFuel sheetRegs) cursor0 = some cursor0 :=
  ⟨by decide +kernel, by decide +kernel, by decide +kernel, by decide +kernel, by decide +kernel, by decide +kernel, by decide +kernel, by decide +kernel, by decide +kernel, by decide +kernel, by decide +kernel, by decide +kernel, by decide +kernel, by decide +kernel,
    by decide +kernel⟩

def nopCmd : Cmd := makeCmd { runningBank with ctx := 1, addr := 0x40 } 0 cursor0

def cand (kind : WorkKind) (idx : Nat) : Cand :=
  ⟨7, kind, some 1, none, false, false, none, 0, 0, 0x40, idx, [0], 0, none, some 0, 2, 0, 1, 0, 0, 0, none, none, 0⟩

/-- The sheet's first tile has an emitted command, and is admitted. -/
def emitted (c : Cmd) : State :=
  let s := withBank { runningBank with tiles := [⟨0, none, 2⟩], lastTile := some 0 }
  { s with
    shops := s.shops.map (fun p => (p.1, { p.2 with engines := ShopSt.reset.engines.set 0 ⟨[c], [⟨nopCmd, true, 0, false, [], [], none⟩]⟩ }))
    sched := { s.sched with cands := [cand .sheet 0] } }

def queued (c : Cmd) : State :=
  { emitted c with shops := (emitted c).shops.map (fun p => (p.1, { p.2 with engines := ShopSt.reset.engines.set 0 ⟨[c], []⟩ })) }

def started_ (c : Cmd) : List Cmd := (queueHeads (engOf (queued c) 0 0).queue).filter (headReady (queued c) 0)

theorem witness_CommandsFlow :
    let s := withBank { runningBank with lastTile := some 0 }
    let p := withBank { runningBank with preempt := true }
    let bad := { nopCmd with overflow := true }
    (bankOf s 0 0).cur = some cursor0 ∧ (bankOf s 0 0).stopped = false ∧ tileNum sheetRegs cursor0 = 0 ∧ nopCmd.engine < (shopOf s 0).engines.length ∧
    sheetEntries (engOf s 0 0) < 384 ∧ (bankOf p 0 0).preempt = true ∧ (bankOf p 0 0).lastTile ≠ some 0 ∧
    (started_ nopCmd).head? = some nopCmd ∧ nopCmd.lc = false ∧ checkCmd (queued nopCmd) 0 nopCmd = 0 ∧ (started_ bad).head? = some bad ∧
    checkCmd (queued bad) 0 bad = 3 ∧ (shopOf (queued bad) 0).fault = none ∧
    (List.range (engOf (emitted nopCmd) 0 0).runs.length).find? (mayComplete (emitted nopCmd) 0 (engOf (emitted nopCmd) 0 0).runs) = some 0 ∧
    nopCmd.src = .templ 0 0 0 ∧ (∀ x, x ∈ (bankOf (emitted nopCmd) 0 0).tiles → x.num = 0 → 2 ≤ x.left) ∧
    (engOf (withRun 4 (cmd 4 0 [])) 0 4).runs.findIdx? (fun r => !r.done && r.cmd.opcode == 0) = some 0 :=
  ⟨by decide +kernel, by decide +kernel, by decide +kernel, by decide +kernel, by decide +kernel, by decide +kernel, by decide +kernel, by decide +kernel, by decide +kernel, by decide +kernel, by decide +kernel, by decide +kernel, by decide +kernel, by decide +kernel,
    by decide +kernel, by decide +kernel, by decide +kernel⟩

/-- The header of a list of one ticket at the warehouse's start. -/
def listHeader : List (Nat × Byte) := [(0, 0x54), (1, 0x4C), (2, 0x53), (3, 0x54), (4, 0xA1), (5, 1)].map (fun p => (warehouse0 + p.1, p.2))

def ticket0 : TicketSt := ⟨0, [4], false, none, 0⟩
def list0 (id : Nat) : TicketList := ⟨id, 1, false, none, 0x40, 1, true, true, [0, 0, 0, 0], 1, [ticket0], 0⟩

def listS : State :=
  { withShop { ShopSt.reset with lists := [list0 0, list0 1], nextList := 2 } with
    mem := { State.reset.mem with bytes := listHeader }
    sched := { SchedSt.reset with ctxs := [(1, some { ctx1 with tenant := none })], cands := [{ cand .ticket 0 with admitted := 1 }] } }

theorem witness_TicketsIssue :
    let hdr := peekCtx listS 1 none warehouse0 128
    hdr.ok = true ∧ hdr.poison = 0 ∧ bitsOf (leAt hdr.data 0 8) 39 0 = 0xA1 * 2 ^ 32 + 0x54534C54 ∧ bitsOf (leAt hdr.data 0 8) 55 40 = 1 ∧
    bitsOf (leAt hdr.data 0 8) 63 56 = 0 ∧ (∀ j, j < 15 → leAt hdr.data (8 * j + 8) 8 = 0) ∧ ((shopOf listS 0).lists.filter (fun l => l.resident)).length ≥ 2 ∧
    (∀ x, x ∈ (shopOf listS 0).lists → x.resident = true) ∧ lowestTicket (readyTickets listS 0) = some (list0 0, ticket0) ∧
    (shopOf listS 0).lists.find? (fun x => decide (x.id = 0)) = some (list0 0) ∧ (list0 0).count ≤ (list0 0).next ∧
    (ticketCmd (list0 0) ticket0).engine < (shopOf listS 0).engines.length :=
  ⟨by decide +kernel, by decide +kernel, by decide +kernel, by decide +kernel, by decide +kernel, by decide +kernel, by decide +kernel, by decide +kernel, by decide +kernel, by decide +kernel, by decide +kernel, by decide +kernel⟩

/-- A resume record of zeros, with the CRC-32 of its last 56 bytes, at the warehouse's start. -/
def resumeRecord : List (Nat × Byte) := [(4, 0x49), (5, 0xA5), (6, 0xC8), (7, 0xD3)].map (fun p => (warehouse0 + p.1, p.2))

theorem witness_ContextsEndAndResume :
    let stopped := withBank { runningBank with stopped := true }
    let s := withBank waitingBank
    let r := { s with
      mem := { s.mem with bytes := resumeRecord }
      shops := s.shops.map (fun p => (p.1, { p.2 with preempted := [⟨1, 0x40, false, none, 0⟩] })) }
    let w := { withBank { runningBank with tiles := [⟨0, some 0, 1⟩] } with bell := 3 }
    (shopOf busyBanks 0).banks = [{ SheetBank.reset with st := 3 }, { SheetBank.reset with st := 3, lc := true }] ∧
    (∃ l, l ∈ (shopOf busyBanks 0).loads ∧ l.lc = true) ∧
    (bankOf stopped 0 0).tiles = [] ∧ (shopOf stopped 0).loads = [] ∧ writeOk stopped 1 none warehouse0 64 = true ∧
    (∀ i, i < 64 → homeKey (resolve stopped none (warehouse0 + i)) = some (warehouse0 + i)) ∧
    bankFor r 0 1 0x40 = some 0 ∧ (bankOf r 0 0).go = false ∧ (∃ p, p ∈ (shopOf r 0).preempted ∧ p.ctx = 1 ∧ p.addr = 0x40) ∧
    (peekCtx r 1 none warehouse0 64).ok = true ∧ (peekCtx r 1 none warehouse0 64).poison = 0 ∧
    (crc32 ((peekCtx r 1 none warehouse0 64).data.drop 8)).toNat = leAt (peekCtx r 1 none warehouse0 64).data 4 4 ∧
    overdueCtxs w 0 w.bell = [1] ∧ (shopOf w 0).fault = none ∧ overdueCtxs s 0 s.bell = [] :=
  ⟨by decide +kernel, ⟨⟨1, 0, true, none⟩, by decide +kernel, rfl⟩, by decide +kernel, by decide +kernel, by decide +kernel, by decide +kernel, by decide +kernel, by decide +kernel,
    ⟨⟨1, 0x40, false, none, 0⟩, by decide +kernel, rfl, rfl⟩, by decide +kernel, by decide +kernel, by decide +kernel, by decide +kernel, by decide +kernel, by decide +kernel⟩

/-! ### Stacks and fullers -/

/-- Stack 0 is present, with frame 3 of state class, all valid. -/
def stack0 : State := { State.reset with
  stks := [(0, { StackSt.reset with state := 0 })]
  mem := { State.reset.mem with frames := [(3, { Frame.reset with summary := 2 })] } }

def req (w : Bool) (sector : Nat) : StkReq := ⟨w, 3, sector, 3, [0xAB, 0xCD], false, 0, false⟩

theorem witness_StackControllers :
    let s := stack0
    let q := { stack0 with stks := [(0, { StackSt.reset with state := 0, queues := [(0, [req true 0, req false 1, req false 0])] })] }
    let m := { stack0 with
      stks := [(0, { StackSt.reset with state := 0, vmapMiss := [3] })]
      mem := { stack0.mem with frames := [(3, { Frame.reset with summary := 3, filling := true })] } }
    (stackOf s 0).state ≠ 2 ∧ (stackOf s 0).state ≠ 1 ∧ queueOf s 0 0 = [] ∧ (stackOf s 0).heldReqs = [] ∧ bankOfSector 3 0 = 6 ∧
    (frameOf s 3).filling = false ∧ (frameOf s 3).lost = false ∧ needsVmap s 0 (req true 0) = false ∧
    pickReq q 0 0 0 [6] = some 1 ∧ (queueOf q 0 0)[1]? = some (req false 1) ∧ (stackOf m 0).vmapMiss.contains 3 = true ∧ (frameOf m 3).summary = 3 ∧
    (frameOf m 3).filling = true := by decide +kernel

/-- The record of an invocation of program routine 0x40 under context 1 on stack 0, whose order is that of number 5. -/
def inv0 : InvRec := ⟨9, 7, [0x40 + 2 ^ 16 + 2 ^ 32 + 5 * 2 ^ 48] ++ List.replicate 15 0, none, 0, false⟩
def invAt (slot : Nat) : InvRec := { inv0 with words := [slot + 2 ^ 16 + 2 ^ 32 + 5 * 2 ^ 48] ++ List.replicate 15 0 }
def run0 : InvRun := ⟨inv0, 0, [0], false, none, [], []⟩
/-- The fullers absent where the first `here` are present. -/
@[irreducible] def rest (here : Nat) : List Nat := List.range' here (512 - here)

def ful0 (here : Nat) (code : List Nat) (r : InvRun) : FulStackSt :=
  { FulStackSt.reset with absent := rest here, run := some r, slots := [(0x40, some (none, code)), (4, some (none, code))] }

/-- That invocation runs on stack 0, whose first fullers are present; fuller 0, as given, stands at the micro-instruction `w`. Order 5 is in a step. -/
def atMicro (here w : Nat) (r : InvRun) (f : FullerSt) : State :=
  withOrder { stack0 with fulStacks := [(0, ful0 here [w] r)], fullers := [(0, f)] }

/-- Fuller 0 alone, from its cleared state. -/
def alone (w : Nat) : State := atMicro 1 w run0 FullerSt.reset

def mi (op fn n imm : Nat) : Nat := op + 2 ^ 6 + fn * 2 ^ 20 + n * 2 ^ 24 + imm * 2 ^ 32

theorem runs_of (s : State) (n i : Nat) (r : InvRun) (h : runOf s n = some r) (hp : (fulOf s n).absent.contains i = false)
    (hh : r.halted.contains i = false) (hi : i < 512) : fullerRuns s n i = true := by
  simp [fullerRuns, fullerPresent, h, hh, hi, -List.contains_eq_mem]
  simpa using hp

theorem rest_contains (here j : Nat) (h : (rest here).contains j = false) (hj : j < 512) : j < here := by
  simp [rest] at h
  omega

theorem rest_not (here j : Nat) (h : j < here) : (rest here).contains j = false := by
  simp [rest]
  omega

theorem rest_not_zero : (rest 1).contains 0 = false := rest_not 1 0 (by decide)

theorem alone_runs (w : Nat) (f : FullerSt) : fullerRuns (atMicro 1 w run0 f) 0 0 = true :=
  runs_of _ 0 0 run0 rfl rest_not_zero rfl (by decide)

theorem alone_micro (w : Nat) : microAt (alone w) 0 0 (miOp w) run0 w := ⟨rfl, alone_runs w _, rfl, rfl, rfl⟩

theorem witness_FullerArithmetic :
    microAt (alone (mi 0 0 0 0)) 0 0 0 run0 (mi 0 0 0 0) ∧ microAt (alone (mi 1 2 0 5)) 0 0 1 run0 (mi 1 2 0 5) ∧
    microAt (alone (mi 5 8 0 8191)) 0 0 5 run0 (mi 5 8 0 8191) ∧ microAt (alone (mi 6 1 0 8192)) 0 0 6 run0 (mi 6 1 0 8192) ∧
    microAt (alone (mi 12 1 0 0)) 0 0 0xC run0 (mi 12 1 0 0) ∧ pGet (fullerOf (alone (mi 5 8 0 8191)) 0 0) 0 + miImm (mi 5 8 0 8191) ≤ 8192 ∧
    pGet (fullerOf (alone (mi 6 1 0 8192)) 0 0) 0 + miImm (mi 6 1 0 8192) ≤ 8192 :=
  ⟨alone_micro _, alone_micro _, alone_micro _, alone_micro _, alone_micro _, by decide +kernel, by decide +kernel⟩

/-- A tensor descriptor of one dimension of length 1, at the warehouse's start, in plane form; its base is device address 0x80000, in frame 3. -/
def descBytes : List (Nat × Byte) :=
  [(0, 0x54), (1, 0x44), (2, 0x53), (3, 0x43), (4, 0xA1), (5, 8), (10, 8), (64, 1)].map (fun p => (warehouse0 + p.1, p.2))

def f0 : FullerSt := { FullerSt.reset with p := [(1, BitVec.ofNat 64 warehouse0)], act := [List.replicate 128 0], actFmt := 1 }

def loading (w : Nat) : State :=
  let s := atMicro 1 w run0 f0
  { s with mem := { s.mem with bytes := descBytes } }

def mp (op px py pz fn n imm : Nat) : Nat := mi op fn n imm + px * 2 ^ 8 + py * 2 ^ 12 + pz * 2 ^ 16

theorem loading_micro (w : Nat) : microAt (loading w) 0 0 (miOp w) run0 w := ⟨rfl, alone_runs w f0, rfl, rfl, rfl⟩

theorem witness_FullerLoads :
    let a := mp 2 0 1 0 1 7 1
    let b := mp 2 0 1 0 9 7 1
    let c := mp 3 1 0 0 0 0 1
    let d := mp 4 0 0 0 0 0 0
    microAt (loading a) 0 0 2 run0 a ∧ microAt (loading b) 0 0 2 run0 b ∧ microAt (loading c) 0 0 3 run0 c ∧ microAt (loading d) 0 0 4 run0 d ∧
    actFits 1 8 1 = true ∧ remoteOf (loading a) none warehouse0 = none ∧ homeInReset (loading a) (resolve (loading a) none warehouse0) = false ∧
    ((fulBytes (loading a) run0 warehouse0 2).map anyPoison) = some false ∧ ((streamMine (loading c) 0 0 run0 c).1 = 0 ∧
    ((streamRows (loading c) 0 0 run0 c).map (fun x => (x.1, x.2.2.ok, x.2.2.poison))) = [(0, true, false)]) ∧
    recOrder (loading d) inv0 = some 5 ∧ orderKv (loading d) 5 = some kv0 ∧ kvreadOk (loading d) 0 0 d 5 kv0 = true ∧
    ((kvreadWork (loading d) 0 0 d 5 kv0).map (fun u => (u.1, u.2.2.2))) = [(0, false)] :=
  ⟨loading_micro _, loading_micro _, loading_micro _, loading_micro _, by decide +kernel, by decide +kernel, by decide +kernel, by decide +kernel, by decide +kernel,
    by decide +kernel, by decide +kernel, by decide +kernel, by decide +kernel⟩

def runX (slot : Nat) (waiting : List Nat) : InvRun := { run0 with inv := { invAt slot with words := (invAt slot).words.set 8 5 }, waiting := waiting }

def arrivedAt (s : State) (r : InvRun) : Prop := ∀ j, j < 512 → (fulOf s 0).absent.contains j = false → j ≠ 0 → r.halted.contains j = true ∨ r.waiting.contains j = true

theorem both_present : (rest 2).contains 0 = false ∧ (rest 2).contains 1 = false := ⟨rest_not 2 0 (by decide), rest_not 2 1 (by decide)⟩

theorem arrived_alone (w : Nat) (f : FullerSt) (waiting : List Nat) : arrivedAt (atMicro 1 w (runX 4 waiting) f) (runX 4 waiting) :=
  fun j h hp hj => absurd (rest_contains 1 j hp h) (by omega)

theorem arrived_both (w : Nat) (f : FullerSt) : arrivedAt (atMicro 2 w (runX 4 [1]) f) (runX 4 [1]) :=
  fun j h hp hj => by
    have e : j = 1 := by have := rest_contains 2 j hp h; omega
    exact .inr (by subst e; rfl)

theorem not_arrived (w : Nat) (f : FullerSt) : ¬arrivedAt (atMicro 2 w (runX 4 []) f) (runX 4 []) :=
  fun h => absurd (h 1 (by decide) both_present.2 (by decide)) (by decide)

theorem both_micro (w : Nat) : microAt (atMicro 2 w (runX 4 []) FullerSt.reset) 0 0 (miOp w) (runX 4 []) w :=
  ⟨rfl, runs_of _ 0 0 (runX 4 []) rfl both_present.1 rfl (by decide), rfl, rfl, rfl⟩

theorem last_micro (w : Nat) : microAt (atMicro 2 w (runX 4 [1]) FullerSt.reset) 0 0 (miOp w) (runX 4 [1]) w :=
  ⟨rfl, runs_of _ 0 0 (runX 4 [1]) rfl both_present.1 rfl (by decide), rfl, rfl, rfl⟩

theorem halt_micro (w : Nat) : microAt (atMicro 1 w (runX 4 []) FullerSt.reset) 0 0 (miOp w) (runX 4 []) w :=
  ⟨rfl, runs_of _ 0 0 (runX 4 []) rfl rest_not_zero rfl (by decide), rfl, rfl, rfl⟩

theorem witness_FullerBarriers :
    let c := mi 7 2 255 0
    let y := mi 0xB 0 0 0
    let h := mi 0xD 0 0 0
    let s := atMicro 1 h (runX 4 []) FullerSt.reset
    let e := modInvRun 0 (fun q => { q with halted := [0] }) s
    bitOf (miFn c) 0 = false ∧ microAt (atMicro 2 c (runX 4 [1]) FullerSt.reset) 0 0 7 (runX 4 [1]) c ∧ microAt (atMicro 2 c (runX 4 []) FullerSt.reset) 0 0 7 (runX 4 []) c ∧
    microAt (atMicro 2 y (runX 4 [1]) FullerSt.reset) 0 0 0xB (runX 4 [1]) y ∧ microAt s 0 0 0xD (runX 4 []) h ∧ [1].Nodup ∧
    arrivedAt (atMicro 2 c (runX 4 [1]) FullerSt.reset) (runX 4 [1]) ∧ ¬arrivedAt (atMicro 2 c (runX 4 []) FullerSt.reset) (runX 4 []) ∧
    arrivedAt s (runX 4 []) ∧ recSlot (runX 4 []).inv = 4 ∧ attendDeliver 0 (runX 4 []) e = (e, 0) :=
  ⟨by decide, last_micro _, both_micro _, last_micro _, halt_micro _, by decide, arrived_both _ _, not_arrived _ _, arrived_alone _ _ _, by decide +kernel, by decide +kernel⟩

def fRes : FullerSt := { f0 with results := [(0, [0x3F800000])] }

theorem results_micro (w : Nat) : microAt (atMicro 1 w run0 fRes) 0 0 (miOp w) run0 w := ⟨rfl, alone_runs w fRes, rfl, rfl, rfl⟩

def merge0 : MergeOut := ⟨0, warehouse0, 0, 0, 1, 0, [(0, [0x3F800000])]⟩

theorem witness_FullerResults :
    let a := mp 8 1 0 0 0 0 1
    let b := mp 8 1 0 0 0 31 1
    let c := mp 9 1 0 0 0 0 1
    let d := mp 10 0 0 0 0 0 128
    let s := atMicro 1 a run0 fRes
    let m := { s with fulStacks := s.fulStacks.map (fun p => (p.1, { p.2 with merger := [merge0] })) }
    microAt s 0 0 8 run0 a ∧ microAt (atMicro 1 b run0 fRes) 0 0 8 run0 b ∧ microAt (atMicro 1 c run0 fRes) 0 0 9 run0 c ∧ microAt (atMicro 1 d run0 fRes) 0 0 0xA run0 d ∧
    writeOk s 1 none warehouse0 4 = true ∧
    (∀ b, b < 4 → homeKey (resolve s none (warehouse0 + b)) = some (warehouse0 + b) ∧ (warehouse0 + b < 0xC000000000 → (frameOf s ((warehouse0 + b) / 65536)).lost = false)) ∧
    mergeParts merge0 = [0x3F800000] ∧ (fulOf m 0).merger.find? (fun m => decide (m.got.length ≥ m.parts)) = some merge0 ∧
    (let s := atMicro 1 d run0 fRes
     recOrder s inv0 = some 5 ∧ orderKv s 5 = some kv0 ∧ kvCheck s 5 0 0 0 1 128 0 2 = 0 ∧ (devHolds kv0.layers 0 0 && devHolds kv0.heads 0 0 && devHolds kv0.pos 0 0) = true ∧
     kvRowKey s 5 0 0 0 0 = some (3 * 65536) ∧ (kvRowKey s 5 0 0 0 1).isSome = true ∧ (frameOf s 3).lost = false) :=
  ⟨results_micro _, results_micro _, results_micro _, results_micro _, by decide +kernel, by decide +kernel, by decide +kernel, by decide +kernel, by decide +kernel⟩

def rerunInv : InvRec := { inv0 with words := inv0.words.set 0 (0x40 + 2 ^ 10 + 2 ^ 16 + 2 ^ 32) }

def withFul (x : FulStackSt) : State := { stack0 with
  fulStacks := [(0, { x with absent := rest 1 })]
  sched := { SchedSt.reset with cands := [cand .invocation 0] } }

theorem alone_done (r : InvRun) (hr : r.halted = [0]) (hg : r.gang = [0]) :
    invDone (withFul { FulStackSt.reset with run := some r }) r = true := by
  have h : ∀ i, i ∈ presentFullers (withFul { FulStackSt.reset with run := some r }) 0 → i = 0 := by
    intro i hi
    have hm := List.mem_filter.1 hi
    have hr2 : (!(rest 1).contains i) = true := hm.2
    have := rest_contains 1 i (by simpa using hr2) (List.mem_range.1 hm.1)
    omega
  simp only [invDone, hg, List.all_cons, List.all_nil, Bool.and_true, Bool.and_eq_true, List.all_eq_true]
  refine ⟨fun i hi => ?_, rfl⟩
  rw [h i hi]
  have hrun : runOf (withFul { FulStackSt.reset with run := some r }) 0 = some r := rfl
  simp [fullerRuns, hrun, hr]

theorem witness_Invocations :
    let s := withFul { FulStackSt.reset with records := [inv0] }
    let done := withFul { FulStackSt.reset with run := some { run0 with halted := [0] } }
    let stop := withFul { FulStackSt.reset with run := some { run0 with halted := [0], stopping := true } }
    let again := withFul { FulStackSt.reset with run := some { run0 with inv := rerunInv } }
    let lib := withFul { FulStackSt.reset with libPending := some (3, 4, [⟨0, 1, 0xA1, 0x3F, 1, 0, false, [0]⟩]) }
    s.unitsOk = true ∧ (s.fulStacks.flatMap (fun p => p.2.records)).find? (fun x => decide (x.id = 9)) = some inv0 ∧
    (∀ n, n ∈ recGang inv0 → runOf s n = none ∧ committed s n = some 9) ∧ s.sched.cands.find? (fun x => decide (x.id = 7)) = some (cand .invocation 0) ∧
    fullerPresent s 0 0 = true ∧ (fulOf s 0).sparesUsed.contains 0 = false ∧
    (fulOf (withFul { FulStackSt.reset with sparesUsed := [0] }) 0).sparesUsed.contains 0 = true ∧ bitOf (recWord rerunInv 0) 10 = true ∧
    fullerPresent again 0 0 = true ∧ runOf lib 0 = none ∧ storeUsed lib 0 false = 0 ∧ (kvByte (alone 0) 1 0).isSome = true ∧
    invDone done { run0 with halted := [0] } = true ∧ invDone stop { run0 with halted := [0], stopping := true } = true :=
  ⟨by decide +kernel, by decide +kernel, by decide +kernel, by decide +kernel, by decide +kernel, by decide +kernel, by decide +kernel, by decide +kernel,
    by decide +kernel, by decide +kernel, by decide +kernel, by decide +kernel, alone_done _ rfl rfl, alone_done _ rfl rfl⟩

/-! ### The order book -/

def quotas : Tbl (Option (BitVec 64)) := [(0x600000, some (BitVec.ofNat 64 (2 ^ 32 + 3600))), (0x600060, some 5), (0x600068, some 1000), (0x600070, some 50), (0x600078, some 9), (0x1200040, some (BitVec.ofNat 64 (4 + 100 * 2 ^ 30)))]

/-- The 64 bytes of a parameter block at the warehouse's start: TOP_P 1, REP_PEN 1, BATCH 1. -/
def paramBytes : List (Nat × Byte) := [(6, 0x80), (7, 0x3F), (14, 0x80), (15, 0x3F), (19, 4)].map (fun p => (warehouse0 + p.1, p.2))

/-- Tenant 0 is enabled, reads the first 64 KiB of the warehouse, and owns model 0, whose order 5 is as given. -/
def withBook (r : OrderRec) : State :=
  let s := withOrder stack0
  { s with
    book := { s.book with orders := [(5, r)], enabled := [0], far := [(0, ⟨3, 4, 4, 100, true⟩)], nodes := [(7, some ⟨0, 0, 0, List.replicate 256 0, 0, [], 0, false⟩)] }
    mem := { s.mem with bytes := paramBytes, xlat := [(0, [⟨warehouse0, 65536, warehouse0, 65536, none⟩])] }
    regs := { s.regs with vals := quotas } }

def at4 : OrderRec := { order5 with state := 4, step := none }
def open0 : OpenArgs := ⟨0, false, false, false, 0, 0, 0, 0, 0, warehouse0⟩

theorem witness_OrdersOpenAndFeed :
    let s := withBook at4
    let fresh := withBook { at4 with n := 0, pages := [] }
    let toks := List.replicate 257 0
    openCause 0 open0 s = none ∧ freeEntry s = some 0 ∧ openCause 0 { open0 with model := 1 } s = some 6 ∧ orderStale s 0 5 0 = false ∧
    (peekDev s (some 0) warehouse0 4).ok = true ∧ (peekDev s (some 0) warehouse0 4).poison = 0 ∧ storing at4 = false ∧ at4.n + 1 ≤ orderLimit s 5 ∧
    bitOf (rget fresh 0x600000) 32 = true ∧ matchNodes fresh 0 0 ((257 - 1) / 256) 0 toks = [7] ∧ (peekDev fresh (some 0) warehouse0 1028).ok = true ∧
    (peekDev fresh (some 0) warehouse0 1028).poison = 0 ∧ orderStale (withBook { at4 with state := 6 }) 0 5 0 = false ∧ orderStale (withBook { at4 with state := 5 }) 0 5 0 = false ∧
    orderKv s 5 = some kv0 ∧ 1 ≤ (orderOf (withBook { at4 with n := 256 }) 5).n / 256 :=
  ⟨by decide +kernel, by decide +kernel, by decide +kernel, by decide +kernel, by decide +kernel, by decide +kernel, by decide +kernel, by decide +kernel,
    by decide +kernel, by decide +kernel, by decide +kernel, by decide +kernel, by decide +kernel, by decide +kernel, by decide +kernel, by decide +kernel⟩

theorem witness_OrderCommands :
    let s := withBook at4
    orderStale s 0 5 0 = false ∧ orderStale s 0 5 1 = true ∧ orderStale s 0 6 0 = true ∧ storing (orderOf s 5) = false ∧ (orderOf s 5).state = 4 ∧
    (orderOf (withBook order5) 5).state = 3 ∧ poolUsable s = true ∧ cellarUsed s 0 + imageUnits s 5 ≤ quotaOf s 0 2 ∧
    (allocUnits s (imageUnits s 5) 0 []).isSome = true ∧ s.unitsOk = true ∧ (orderOf s 0).state = 0 ∧ (∃ x, nodeOf s 7 = some x ∧ x.tenant = 0 ∧ x.model = 0 ∧ x.busy = 0) :=
  ⟨by decide +kernel, by decide +kernel, by decide +kernel, by decide +kernel, by decide +kernel, by decide +kernel, by decide +kernel, by decide +kernel,
    by decide +kernel, by decide +kernel, by decide +kernel, ⟨_, rfl, rfl, rfl, rfl⟩⟩

def copyOf (kind : Nat) : OrderCopy := ⟨kind, 1, false, 0, [(0, 1)], [7], [], 3⟩
def image0 : CellarImg := ⟨[(0, 1)], 1, [(0, [(5, 0xAB)], [])], 0, 1, 0⟩

/-- Order 5 with a copy of a pattern-book node's page (granule 20, frame 6) beside its own. -/
def withCopy (r : OrderRec) : State :=
  let s := withBook r
  { s with
    book := { s.book with nodes := [(7, some ⟨0, 0, 0, List.replicate 256 0, 0, [20], 1, false⟩)] }
    mem := { s.mem with map := map8 ++ [(20, some ⟨6, 0, false, false, 0, 0, false, false, 0, some 0, some 0, none⟩)] } }

theorem witness_OrderCopies :
    let a := withBook { at4 with state := 5, copy := some (copyOf 0) }
    let b := withBook { at4 with state := 7, copy := some (copyOf 1), image := some image0 }
    let c := withBook { at4 with state := 6, recallAsked := true, recallTag := some 3 }
    let d := withBook { at4 with state := 6 }
    let e := withBook { at4 with cellarAfter := 1, idle := 1 }
    let f := { withBook { order5 with deadline := 1 } with bell := 2 }
    let g := withCopy { order5 with copy := some (copyOf 2) }
    let h := withCopy { order5 with copy := some (copyOf 3) }
    copyRuns a 5 0 = true ∧ copyRuns b 5 1 = true ∧ imageTarget b 5 0 = some 3 ∧ (3 : Nat) < 12 * 2 ^ 20 ∧ (orderOf c 5).recallWait = 0 ∧
    ((orderOf d 5).expire ≤ devNs d ∧ awaitsCommand d 5 = false) ∧ (orderOf e 5).cellarAfter ≤ (orderOf e 5).idle ∧
    ((orderOf f 5).step = some step0 ∧ step0.admitted = true ∧ 1 ≤ f.bell - step0.bell) ∧
    (g.memOk = true ∧ copyRuns g 5 2 = true ∧ nodePairs g 5 [7] 0 kv0 = [(6, 3)] ∧ framesApart [(6, 3)]) ∧
    (h.memOk = true ∧ copyRuns h 5 3 = true ∧ (nodePairs h 5 [7] 0 kv0).map (fun p => (p.2, p.1)) = [(3, 6)] ∧ framesApart [(3, 6)]) :=
  ⟨by decide +kernel, by decide +kernel, by decide +kernel, by decide, by decide +kernel, by decide +kernel, by decide +kernel, by decide +kernel,
    ⟨by decide +kernel, by decide +kernel, by decide +kernel, by simp [framesApart]⟩, ⟨by decide +kernel, by decide +kernel, by decide +kernel, by simp [framesApart]⟩⟩

/-! ### Token selectors -/

def row5 (vals : Tbl Nat) : LogitRow := ⟨5, vals, true, false, false⟩
def withSel (r : OrderRec) (x : SelSt) : State := { withBook r with selectors := [(0, x)] }
def listing (list : Nat) : OrderRec := { order5 with params := { SelParams.reset with listEn := true, list := list, listCount := 1 } }

theorem witness_Selections :
    let a := withSel order5 SelSt.reset
    let b := withSel order5 { SelSt.reset with rows := (List.range 16).map (fun k => { row5 [] with order := 100 + k }), held := [⟨5, [], false⟩] }
    let c := withSel order5 { SelSt.reset with rows := [row5 []], held := [⟨5, [(255, 1)], false⟩, ⟨6, [], false⟩], ready := [5], maskQueue := [5] }
    let d := withSel (listing warehouse0) { SelSt.reset with rows := [row5 []], ready := [5], masks := [(5, [])], maskQueue := [5] }
    let e := withSel (listing 0) { SelSt.reset with rows := [row5 [(3, 0xFF800001)]], ready := [5], maskQueue := [5] }
    ((255 : Nat) < orderVocab a 5 ∧ stepSelects (orderOf a 5) = true ∧ rowFits a 0 5 = true ∧ (selOf a 0).held.any (fun x => decide (x.order = 5)) = false) ∧
    (rowFits b 0 5 = false ∧ (selOf b 0).held.any (fun x => decide (x.order = 5)) = true ∧ (selOf b 0).rows.any (fun x => decide (x.order = 5)) = false) ∧
    (stepSelects (orderOf c 5) = true ∧ stepSelects (orderOf c 6) = false ∧ (selOf c 0).rows.any (fun x => decide (x.order = 5)) = true) ∧
    ((selOf c 0).rows.find? (fun r => decide (r.order = 5)) = some (row5 []) ∧ (selOf c 0).absent = false ∧ hasMask (orderOf c 5) = false ∧
      (orderOf c 5).params.temp % 2 ^ 31 = 0 ∧ (orderOf c 5).params.repWin = 0 ∧ readLogit 0 ≠ negInf ∧ (List.range (orderVocab c 5)).Nodup) ∧
    (hasMask (orderOf d 5) = true ∧ maskOfOrder d 0 5 = some [] ∧ (readList d 5).2.2 = false) ∧
    (maskOfOrder e 0 5 = none ∧ readLogit (0xFF800001 - 1) = negInf ∧ (readList e 5).2.2 = true) :=
  ⟨by decide +kernel, by decide +kernel, by decide +kernel, ⟨by decide +kernel, by decide +kernel, by decide +kernel, by decide +kernel, by decide +kernel, by decide +kernel, List.nodup_range⟩,
    by decide +kernel, by decide +kernel⟩

/-! ### Bells, temperatures and tallies -/

/-- The operator's ring has been started and may be scanned; a bell is running. -/
def belled : State :=
  { State.reset with
    ready := true
    now := 20000
    sys := { SysSt.reset with powered := true, stage := 9 }
    host := { HostSt.reset with scanHeld := true, lastScan := 10000, rings := [(4096, { RingSet.reset with started := true })] }
    regs := { RegSt.reset with vals := [(0x200000, some 1)] }
    book := { BookSt.reset with enabled := [0] }
    sched := { SchedSt.reset with allow := 10 ^ 9, remainder := 10 ^ 9, cands := [{ cand .copy 0 with ctx := none, device := true, admitted := 0, started := 1, total := 2 }] }
    therm := { ThermSt.reset with allow := [(2048, 10 ^ 9)] } }

/-- A migration of granule 8 from frame 3 to frame 6 of stack 0. -/
def migrating : State := { stack0 with mem := { stack0.mem with map := [(8, some ⟨3, 0, false, true, 0, 6, false, false, 0, some 0, some 0, some 5⟩)] } }

theorem witness_SchedulerAndGovernor :
    let c : Cand := { cand .copy 0 with ctx := none, device := true, admitted := 0, started := 1, total := 2 }
    belled.sched.cands = [c] ∧ c.total = c.started + 1 ∧ belled.sched.migUsed ≤ plcField belled 12 4 * 10 * bellNs belled ∧
    (∀ n, n ∈ c.gang → thermalRoom belled 4 n (chargeOf belled c 40) = true) ∧ chargeOf belled c 40 ≤ belled.sched.remainder ∧
    100 * (belled.now - belled.sched.opened) < bellNs belled * forceField belled 0x100020 22 16 ∧
    100 * (bellNs belled - belled.sched.opened) ≥ bellNs belled * forceField belled 0x100020 22 16 ∧
    belled.sys.powered = true ∧ belled.sched.clamped = false ∧ belled.sched.budget * 100000000 ≤ 10 ^ 13 ∧
    migrating.memOk = true ∧ (mapEnt migrating 8).map (fun e => (e.migrating, e.copied)) = some (true, false) ∧ framesApart [(3, 6)] :=
  ⟨by decide +kernel, by decide +kernel, by decide +kernel, by decide +kernel, by decide +kernel, by decide +kernel, by decide +kernel, by decide +kernel, by decide +kernel,
    by decide +kernel, by decide +kernel, by decide +kernel, by simp [framesApart]⟩

theorem witness_Bells :
    belled.sys.powered = true ∧ belled.sys.stage ≠ 8 ∧ belled.sys.resets = [] ∧ belled.ready = true ∧ State.reset.ready = false ∧
    belled.bell + 1 < belled.sched.ledgerAt + belled.sched.ledger ∧ (let l := { belled with bell := 4999 }; l.sched.ledgerAt + l.sched.ledger ≤ l.bell + 1) ∧
    belled.host.scanHeld = true ∧ belled.host.lastScan + 10000 ≤ belled.now ∧ belled.book.enabled.contains 0 = true ∧ belled.book.enabled.contains 1 = false ∧
    tsorted belled.host.rings = true ∧ rfield belled 0x200000 0 0 = 1 ∧ (ringOf belled opRing).started = true ∧ (ringOf belled opRing).fresh = false ∧
    (ringOf belled opRing).stopped = false ∧ (0 : Nat) ≤ 2 ^ (ringOf belled opRing).sqLog ∧ State.reset.stat.busy = false ∧
    { State.reset with stat := { StatSt.reset with busy := true } }.stat.busy = true := by decide +kernel

theorem witness_Temperatures :
    let hot (v : Nat) : State := { State.reset with
      now := 20000000, therm := { ThermSt.reset with chans := [(0, ⟨v, 0, 0, 0x8000, 0⟩)], units := [(12, { TUnit.reset with deadline := some 20, slow := true })] } }
    chanEnabled State.reset 0 = true ∧ chanEnabled State.reset 39 = true ∧ chanEnabled State.reset 40 = false ∧ (chanOf State.reset 0).state = 0 ∧
    (unitOf State.reset 12).slow = false ∧ (unitOf (hot 799) 12).deadline = some 20 ∧ 20 ≤ nowMs (hot 799) ∧ unitTemp (hot 799) 12 < slowAt (hot 799) 12 ∧
    slowAt (hot 800) 12 ≤ unitTemp (hot 800) 12 ∧ nowMs { hot 800 with now := 19999999 } < 20 ∧ unitTemp (hot 759) 12 < warnAt (hot 759) 12 ∧
    warnAt (hot 760) 12 ≤ unitTemp (hot 760) 12 ∧ State.reset.therm.flashOpen = false ∧ (16 ≤ signedOf 16 (664 % 65536) ∧ signedOf 16 (664 % 65536) ≤ 83 * 8) := by
  decide +kernel

/-- Tenant 0, of context 1, has tallies 8 and 9 and a satisfied and an unsatisfied wait on tally 8. -/
def tallied : State :=
  { withShop ShopSt.reset with
    tal := { TallySt.reset with range := [(0, (8, 2))], waits := [⟨8, 1, some 0, 1, .bench 0, false⟩, ⟨8, 0, some 0, 1, .sheet 1, true⟩] }
    sched := { SchedSt.reset with ctxs := [(1, some ctx1)] }
    mem := { MemSt.reset with xlat := [(0, [⟨warehouse0, 65536, warehouse0, 65536, none⟩])] } }

theorem witness_Tallies :
    let w : TallyWait := ⟨8, 0, some 0, 1, .sheet 1, true⟩
    tallied.tal.waits = [⟨8, 1, some 0, 1, .bench 0, false⟩] ++ w :: [] ∧ w.satisfied = true ∧ tallyAccess tallied 1 64 8 = true ∧ tallyAccess tallied 1 72 4 = true ∧
    tallyAccess tallied 1 80 8 = false ∧ tallyAccess tallied 1 68 4 = false ∧ (shopOf tallied 0).fault = none ∧
    resolve tallied (ctxTenant tallied 1) 0x010200000000 = .reduce 2 warehouse0 ∧
    (∀ i, i < 4 → resolve tallied (ctxTenant tallied 1) (0x010200000000 + i) = .reduce 2 (warehouse0 + i)) ∧
    resolve tallied (ctxTenant tallied 1) warehouse0 = .warehouse warehouse0 :=
  ⟨by decide +kernel, by decide +kernel, by decide +kernel, by decide +kernel, by decide +kernel, by decide +kernel, by decide +kernel, by decide +kernel,
    by decide +kernel, by decide +kernel⟩

/-! ### The Balis fabric -/

/-- Device 1 of a group of devices 1 and 2; port 0, enabled, leads to device 2. -/
def fabricRegs : Tbl (Option (BitVec 64)) :=
  [(0x1000000, some 1), (0x1008038, some 1), (0x1008028 + 2 ^ 32, some (BitVec.ofNat 64 (2 ^ 41 + 2))), (0x1008038 + 2 ^ 32, some 2), (0x1008018 + 2 * 2 ^ 32, some 1)]

def linked (x : PortSt) : State :=
  let s := withBook at4
  { s with
    ready := true
    sys := { s.sys with powered := true }
    bal := { s.bal with active := 1, ports := [(0, x)] }
    shops := [(0, { ShopSt.reset with state := 0 })]
    tal := { TallySt.reset with range := [(0, (8, 2))] }
    regs := { s.regs with vals := fabricRegs } }

def readyPort : PortSt := { PortSt.reset with state := 3, pass := 0x1FF, spare := 8 }
def nineLanes (bad : Nat) : List (Nat × Nat) := (List.replicate bad (20000001, 0)) ++ (List.replicate (9 - bad) (20000000, 1))

theorem witness_BalisPorts :
    let s := linked PortSt.reset
    let passes := fun (errs : List (Nat × Nat)) =>
      (List.range 9).filter (fun l => ((errs[l]?).map (fun e => decide (e.1 ≤ 20000000 ∧ e.2 ≤ 20000000))).getD false)
    portEn s 0 = true ∧ s.sys.powered = true ∧ (portOf s 0).state ≤ 1 ∧ (passes (nineLanes 2)).length < 8 ∧ 8 ≤ (passes (nineLanes 1)).length ∧
    (passes (nineLanes 0)).length = 9 ∧ ownDevice s = 1 ∧ (portOf (linked { readyPort with state := 2 }) 0).state = 2 ∧ portUp (linked readyPort) 0 = true ∧
    bitOf (portOf (linked readyPort) 0).pass 8 = true ∧ (portOf (linked { readyPort with state := 4, retrain := 5 }) 0).retrain ≤ 5 ∧
    (portOf (linked { readyPort with failed := [3] }) 0).failed.contains 3 = true ∧ (portOf (linked { readyPort with lostAt := some 4 }) 0).lostAt = some 4 := by
  decide +kernel

theorem witness_BalisReferenceAndMarks :
    let s := linked readyPort
    let m := { s with regs := { s.regs with vals := (0x1000000, some 1) :: (0x1000008, some 2) :: fabricRegs.drop 1 } }
    portUp s 0 = true ∧ portUp s 8 = false ∧ (portOf s 8).state ≠ 2 ∧ m.ready = true ∧ rfield m (blsD 8) 11 0 = 2 ∧ ownDevice m = 1 ∧ m.bal.mismatch = false ∧
    16 ≤ { m with bal := { m.bal with noMark := 16 } }.bal.noMark ∧ m.bal.sourceLost = false := by decide +kernel

def pkt (typ : Nat) : Packet := ⟨typ, 2, 1, 0, 0, 7, warehouse0, 0, 0, 0, 0, 1, List.replicate 32 5⟩

/-- A reduce-scatter of two elements on that group, its staging at the warehouse's start, its destination 100 bytes on. -/
def coll0 : CollSt := ⟨4, 9, [2 ^ 10, 2] ++ List.replicate 7 0 ++ [warehouse0 + 100, warehouse0] ++ List.replicate 5 0, 1, some 0, 0, false, 0, 0, [], [], [], false⟩

theorem route_to_2 : routePort (linked readyPort) { pkt 1 with dst := 2 } = some 0 := by
  have h : routePorts (linked readyPort) 2 = [0] := by decide +kernel
  simp [routePort, h, Nat.mod_one]

theorem witness_BalisRequests :
    let s := linked readyPort
    let b := { s with bal := { s.bal with colls := [{ coll0 with started := true }] } }
    portUp s 0 = true ∧ ownDevice s = 1 ∧ (∀ typ, typ ∈ [1, 3, 5, 7, 9, 10, 11] → busyHint s (pkt typ) = none) ∧
    busyHint { s with ready := false } (pkt 1) = some 1000 ∧ routePort s { pkt 1 with dst := 3 } = none ∧ routePort s { pkt 1 with dst := 2 } = some 0 ∧
    (∀ i, i < 32 → resolve s (some 0) (warehouse0 + i) = .warehouse (warehouse0 + i)) ∧ rangeOk (pkt 3) 32 = true ∧ remoteHomeOk s 0 warehouse0 32 true = true ∧
    remoteHomeOk s 0 0 32 false = false ∧ keyPoison s warehouse0 = 0 ∧ resolve s (some 0) 0 = .none ∧ tallyAllowed s (some 0) 8 = true ∧ tallyAllowed s (some 0) 7 = false ∧
    b.bal.colls.find? (fun c => c.started && decide (collKey c = 1)) = some { coll0 with started := true } ∧
    s.bal.colls.find? (fun c => c.started && decide (collKey c = 1)) = none ∧ s.bal.heldReady.length < 256 ∧
    (remoteKvRow { pkt 3 with arg := 6, op := 7 } s).2 = false ∧ (remoteLogits { pkt 3 with arg2 := 5, addr := 0x0C0000000000, op := 6 } s).2 = true ∧
    (groupMembers b (collGroup coll0)).contains 2 = true ∧ (groupMembers b 1)[0]? = some 1 ∧ (groupMembers s 0).contains 2 = false :=
  ⟨by decide +kernel, by decide +kernel, by decide +kernel, by decide +kernel, by decide +kernel, route_to_2, by decide +kernel, by decide +kernel, by decide +kernel,
    by decide +kernel, by decide +kernel, by decide +kernel, by decide +kernel, by decide +kernel, by decide +kernel, by decide +kernel, by decide +kernel,
    by decide +kernel, by decide +kernel, by decide +kernel, by decide +kernel, by decide +kernel⟩

def asked (typ : Nat) (i : Issuer) : BReq := ⟨2, { pkt typ with src := 1, dst := 2 }, some 0, 1, i, 0, 0, false, none, 0, none, false⟩

def asking (r : BReq) : State := let s := linked readyPort; { s with bal := { s.bal with reqs := [r], nextId := 3 } }

theorem witness_BalisAnswers :
    let s := asking (asked 1 (.engine 0 0))
    let w := asking { asked 1 (.engine 0 0) with due := some 3, busySince := some 1 }
    reqFor s { pkt 2 with tag := 8 } = none ∧ reqFor s (pkt 2) = some (asked 1 (.engine 0 0)) ∧ (asked 1 (.engine 0 0)).id < s.bal.nextId ∧
    s.bal.reqs.find? (fun q => decide (q.id = 2)) = some (asked 1 (.engine 0 0)) ∧ (asked 1 (.engine 0 0)).due = none ∧ (asked 1 (.engine 0 0)).held = false ∧
    (w.bal.reqs.find? (fun q => decide (q.id = 2))).map (fun r => (r.due, r.busySince)) = some (some 3, some 1) ∧ portUp w 0 = true ∧
    max 3 (rfield s (blsD 8) 39 32) * 1000000 ≤ 255000000 ∧ max 1 (rfield s (blsD 8) 31 16) * 1000000 ≤ 65535000000 ∧ toAlias (asked 3 .control).pkt = false ∧
    (portOf s 0).err = none := by decide +kernel

def gathered : CollSt := { coll0 with started := true, got := [(warehouse0, 4), (warehouse0 + 4, 4)] }
def withColl (c : CollSt) : State := let s := linked readyPort; { s with bal := { s.bal with colls := [c] } }

theorem witness_Collectives :
    let s := withColl coll0
    let f := withColl gathered
    let e := withColl { gathered with folded := true, sentTo := [0, 1] }
    collOf s 4 = some coll0 ∧ waitsHold ((coll0.words.drop 2).take 4) 0 = true ∧ unitInReset s 1 (collQuarter coll0) = false ∧ (collFolders f gathered).contains 0 = true ∧
    collMe f gathered = 0 ∧ slotsFull f gathered = true ∧ (collPart f gathered 0).2 = 1 ∧ (groupMembers f (collGroup gathered))[0]? = some (ownDevice f) ∧
    (∀ j, j < 2 → sectorMask f (some 0) (warehouse0 + j * 4) 4 = 0) ∧
    (∀ i, i < 4 → homeKey (resolve f (some 0) (warehouse0 + 8 + i)) = some (warehouse0 + 8 + i) ∧
      homeKey (resolve f (some 0) (warehouse0 + 100 + i)) = some (warehouse0 + 100 + i) ∧ keyPoison f (warehouse0 + 8 + i) = 0 ∧ keyPoison f (warehouse0 + 100 + i) = 0) ∧
    collOf e 4 = some { gathered with folded := true, sentTo := [0, 1] } ∧ (collFolders e gathered).all (fun j => [0, 1].contains j) = true ∧ e.bal.reqs = [] := by
  decide +kernel

/-! ### The host port -/

def at_ (l : List (Nat × Byte)) : List (Nat × Byte) := l.map (fun p => (warehouse0 + p.1, p.2))

/-- A grammar of two tokens, one class, one final state and one transition. -/
def grammarBytes : List (Nat × Byte) := at_ [(0, 0x47), (1, 0x47), (2, 0x52), (3, 0x4D), (4, 0xA1), (5, 0x01), (8, 0x02), (10, 0x10), (12, 0x20), (18, 0x01), (24, 0xCF), (25, 0x73), (26, 0xE7), (27, 0x39), (66, 0xFF), (67, 0xFF), (134, 0x01), (194, 0xFF), (195, 0xFF)]

/-- A bench firmware image of one instruction. -/
def benchImage : List (Nat × Byte) := at_ [(0, 0x42), (1, 0x4E), (2, 0x43), (3, 0x48), (4, 0x01), (5, 0xA1), (6, 0x03), (8, 0x01), (12, 0x1C), (13, 0xDF), (14, 0x44), (15, 0x21)]

def tensor0 : TensorDesc := ⟨0x43534454, 0xA1, false, 1, 0, 0, 0, 0, 0, 0, 0, false, [⟨256, 1, 0, 1, 0, 0, 1, 0⟩], none⟩
def tensor1 : TensorDesc := { tensor0 with home := 1, base := warehouse0 + 65536 }

/-- An image of a stack tensor, a warehouse tensor and a routine. -/
def img0 : ModelImg := ⟨none, 0xA1, [tensor0, tensor1], [0, 0], [], [], [], [], [], [], [], 256, [], [], [], [[]], []⟩

def withBytes (l : List (Nat × Byte)) : State :=
  let s := withBook at4
  { s with mem := { s.mem with bytes := l }, shops := [(0, { ShopSt.reset with state := 0 })], tal := { TallySt.reset with range := [(0, (8, 2))] } }

def withJob (j : Job) (s : State) : State := { s with jobs := { s.jobs with jobs := [{ j with id := 5 }] } }

/-- No order names model 0, which is usable and has one program without work. -/
def idle0 (s : State) : State := { s with book := { s.book with orders := [], models := [(0, some { model0 with entries := [[]] })] } }

def tail0 : List Byte := [0x0, 0x0, 0xFF, 0xFF] ++ List.replicate 44 0
def tail1 : List Byte := List.replicate 22 0 ++ [0x1] ++ List.replicate 25 0
def tail2 : List Byte := List.replicate 34 0 ++ [0xFF, 0xFF] ++ List.replicate 12 0
def tail3 : List Byte := List.replicate 48 0

def grammarImage : List Byte :=
  [0x47, 0x47, 0x52, 0x4D, 0xA1, 1, 0, 0, 2, 0, 0x10, 0, 0x20, 0, 0, 0, 0, 0, 1, 0, 0, 0, 0, 0, 0xCF, 0x73, 0xE7, 0x39] ++ List.replicate 36 0 ++ (tail0 ++ (tail1 ++ (tail2 ++ tail3)))

theorem tail0_crc : tail0.foldl crcByte 0xFFFFFFFF#32 = 0x88F8D0FA#32 := by decide +kernel
theorem tail1_crc : tail1.foldl crcByte 0x88F8D0FA#32 = 0x8E09FF9F#32 := by decide +kernel
theorem tail2_crc : tail2.foldl crcByte 0x8E09FF9F#32 = 0x7CE6CEF5#32 := by decide +kernel
theorem tail3_crc : tail3.foldl crcByte 0x7CE6CEF5#32 = 0xC6188C30#32 := by decide +kernel

theorem grammar_tail : grammarImage.drop 64 = tail0 ++ (tail1 ++ (tail2 ++ tail3)) := by decide +kernel

theorem grammar_crc : crc32 (grammarImage.drop 64) = 0x39E773CF#32 := by
  rw [grammar_tail, crc32, List.foldl_append, List.foldl_append, List.foldl_append, tail0_crc, tail1_crc, tail2_crc, tail3_crc]; decide

theorem grammar_parses : (parseGrammar 256 grammarImage).isSome = true := by
  unfold parseGrammar
  rw [grammar_crc]
  decide +kernel

theorem witness_HostModels :
    let s := withBytes []
    let j := withJob { mkJob 0x10 4096 3 0 0 s with img := some img0 } s
    (readImage none warehouse0 4 s).1 = 0 ∧ imageFail s img0 = none ∧ imageFail s { img0 with badAt := some 3 } = some (8, 3) ∧
    memAllows s 4096 (((stackParts s img0).map (fun p => p.2.2)).sum + (whParts s img0).length) = true ∧
    memAllows s 0 (((stackParts s img0).map (fun p => p.2.2)).sum + (whParts s img0).length) = false ∧ freeHandle s = some 1 ∧
    ((placeParts 1 none { img0 with tensors := [tensor0] } s).isSome = true ∧ placeParts 1 none { img0 with tensors := [tensor1] } s = some (s, [], [])) ∧
    (placePages 1 4096 { img0 with tensors := [tensor1] } s).isSome = true ∧
    (∀ t, placePages 1 4096 { img0 with tensors := [tensor0] } t = some (t, [])) ∧ (readImage none 0x0D0000000000 4 s).1 = 1 ∧
    (jobOf j 0x10 4096 3).map (fun x => (x.id, x.img)) = some (5, some img0) ∧ modelOf j 0 = some model0 ∧ jobCands j 5 = [] ∧ modelOf s 1 = none ∧
    modelBusy s 0 = true ∧ modelBusy (idle0 s) 0 = false ∧ readImage (some 0) warehouse0 256 (withBytes grammarBytes) = (0, grammarImage) ∧
    parseGrammar 256 (readImage (some 0) warehouse0 256 s).2 = none ∧ (grammarOf s 0).isNone = true ∧ (bulkFrames s 1).isSome = true ∧
    xlateMeets s 0 0 65536 = false ∧ xlateMeets s 0 (warehouse0 + 65535) 1 = true ∧ memAllows s 0 0 = true ∧ (whFree s 0)[0]? = some 0 ∧
    (parseGrammar 256 grammarImage).isSome = true := by
  refine ⟨?_, ?_, ?_, ?_, ?_, ?_, ⟨?_, rfl⟩, ?_, fun _ => rfl, ?_, ?_, ?_, ?_, ?_, ?_, ?_, ?_, ?_, ?_, ?_, ?_, ?_, ?_, ?_, grammar_parses⟩ <;> decide +kernel

theorem witness_HostWork :
    let s := idle0 (withBytes [])
    let c := withJob { mkJob 0x1A 0 3 warehouse0 (warehouse0 + 64) s with len := 64 } s
    let r := withJob { mkJob 0x20 0 3 0 0 s with ctx := some 1 } { s with sched := { s.sched with cands := [] } }
    let e := { s with
      book := { s.book with enabled := [] }
      host := { s.host with vfEnable := true, numVfs := 1, rings := [(0, { RingSet.reset with sqLog := 4, eqLog := 16 })] } }
    let b := withBytes benchImage
    copyRange s (some 0) warehouse0 64 = true ∧ copyRange s (some 0) (warehouse0 + 64) 64 = true ∧ copyRange s (some 0) 0 1 = false ∧ lcAllowed s 0 false = true ∧
    lcAllowed s 0 true = false ∧ tallyAllowed s (some 0) 8 = true ∧ tallyAllowed s (some 0) 0 = false ∧ jobOf s 0x1A 0 3 = none ∧
    (jobOf c 0x1A 0 3).map (fun j => (j.a, j.b, j.len, j.tally)) = some (warehouse0, warehouse0 + 64, 64, none) ∧ jobCands c 5 = [] ∧
    (∀ i, i < 64 → homeKey (resolve c (some 0) (warehouse0 + i)) = some (warehouse0 + i) ∧
      homeKey (resolve c (some 0) (warehouse0 + 64 + i)) = some (warehouse0 + 64 + i) ∧ keyPoison c (warehouse0 + i) = 0) ∧
    tget none s.tal.relays 8 = none ∧ (modelOf s 0).map (fun m => m.entries) = some [[]] ∧ (jobOf r 0x20 0 3).map (fun j => j.ctx) = some (some 1) ∧
    ctxBusy r 1 = false ∧ r.sched.ending = [] ∧ jobCands r 5 = [] ∧ (tenantOff e 0 = true ∧ setOk (ringOf e 0) = true ∧ e.host.numVfs > 0) ∧
    shopPresent b 0 = true ∧ (readImage none warehouse0 32 b).1 = 0 ∧ benchHdrOk 1 1024 (readImage none warehouse0 32 b).2 = true ∧
    (crc32 (readImage none (warehouse0 + 32) 4 b).2).toNat = leAt (readImage none warehouse0 32 b).2 12 4 ∧ shopPresent b 1 = false ∧
    stackPresent b 0 = true ∧ stackPresent b 1 = false ∧ resolve s (some 0) 0x100000000000 = .host 0 ∧
    hostRead { s with host := { s.host with fails := [(0, 1)] } } 0 1 = none := by
  refine ⟨?_, ?_, ?_, ?_, ?_, ?_, ?_, ?_, ?_, ?_, ?_, ?_, ?_, ?_, ?_, ?_, ?_, ?_, ?_, ?_, ?_, ?_, ?_, ?_, ?_, ?_, ?_⟩ <;> decide +kernel

def farRec (n : Nat) : FarPort := ⟨n, 4, 4, 100, true⟩

theorem witness_HostLink :
    let s := withBook at4
    let o := { s with regs := { s.regs with vals := [(0x200000, some 0x1001), (0x1200000, some 1)] }, host := { s.host with rings := [(4096, { RingSet.reset with sqLog := 4, eqLog := 4 })], perst := false } }
    let f := fun (n : Nat) => { o with book := { o.book with far := [(0, farRec n)] } }
    bitOf (rget o 0x200000) 0 = true ∧ bitOf (rget State.reset 0x200000) 0 = false ∧ setOk (ringOf o opRing) = true ∧ setOk (ringOf s opRing) = false ∧
    (0 : Nat) ∈ s.book.enabled ∧ (∀ y, y ∈ s.book.enabled → y < 4096) ∧ s.jobs.jobs = [] ∧ inForce o 0x1200000 % 2 = 1 ∧ ¬inForce s 0x1200000 % 2 = 1 ∧
    (farPort (f 2) 0).state = 2 ∧ (farPort (f 3) 0).state = 3 ∧ (farPort (f 1) 0).present = true ∧ (farPort State.reset 0).present = false ∧
    tsorted (f 3).book.orders = true ∧ State.reset.host.perst = true ∧ o.host.perst = false ∧
    { s.sys.role with state := 2 }.channel = 0 := by decide +kernel

/-- A scrub of granules 8 and 9 at work on stack 0. -/
def scrubbing (cursor : Tbl Nat) : State :=
  let s := withBook at4
  { s with ras := { RasSt.reset with scrub := { ScrubSt.reset with busy := true, start := 8, count := 2, cursor := cursor } } }

theorem witness_ErrorsAndRepair :
    let s := withBook at4
    let g := { s with regs := { s.regs with vals := [(0x1400008, some 8), (0x1400010, some 2)] } }
    let sh := { s with shops := [(0, { ShopSt.reset with state := 0, array := { ArraySt.reset with failed := true } })] }
    let noSpare := { sh with ras := { RasSt.reset with badSpares := [80, 81, 82, 83] } }
    let moving := { sh with ras := { RasSt.reset with moves := [(0, 160)] } }
    let read := { s with ras := { RasSt.reset with pendingRead := some 3 } }
    (rfield g 0x1400010 24 0 = 2 ∧ rfield g 0x1400008 23 0 + 2 ≤ 12582912) ∧ rfield s 0x1400010 24 0 = 0 ∧
    ((scrubNext (scrubbing [(0, 8 * 1024 + 1)]) 0).map (fun x => (x.1, x.2.1)) = some (8, 0)) ∧
    (sectorPoison s (3 * 1024) = 0 ∧ frameState (frameOf s 3) = true) ∧ (∀ n, n < 12 → scrubNext (scrubbing []) n = none) ∧
    tget 0 s.ras.rowsUsed (512 * 64) < 4 ∧ ((0 : Nat) < (farPort s 0).capacity ∧ (farPort s 0).capacity ≤ 100) ∧
    (shopPresent sh 0 = true ∧ (shopOf sh 0).array.failed = true ∧ freeSpare sh (shopQuarter 0) = some 80) ∧ freeSpare noSpare (shopQuarter 0) = none ∧
    moving.ras.moves.find? (fun m => decide (m.1 = 0)) = some (0, 160) ∧ ((stackOf s 0).state ≠ 1 ∧ (stackOf s 0).diesLost.contains 15 = false) ∧
    (stewardOf s 7).present = true ∧ stackPresent s 0 = true ∧ stackPresent s 1 = false ∧ read.ras.pendingRead = some 3 := by
  refine ⟨?_, ?_, ?_, ?_, ?_, ?_, ?_, ?_, ?_, ?_, ?_, ?_, ?_, ?_, ?_⟩ <;> decide +kernel

/-! ### Power, bring-up, resets, stewards and locks -/

def atStage (n : Nat) : State := { stack0 with
  shops := [(0, { ShopSt.reset with state := 0 })]
  sys := { SysSt.reset with stage := n, powered := true, sysRstN := true, origin := 2 } }

def resetting (phase : Nat) : State := { atStage 7 with
  ready := true
  sys := { (atStage 7).sys with resets := [⟨0, 0, false, phase, false, 0⟩] } }

theorem witness_BringUpAndResets :
    let s := State.reset
    let inst := { atStage 7 with ready := true, sys := { (atStage 7).sys with role := { RoleSt.reset with state := 2, channel := 0, rights := 1, role := 1 } } }
    (s.sys.aux = true ∧ s.sys.v12 = true ∧ s.sys.pwrOk = true ∧ s.therm.tripLatch = false ∧ s.sys.sysRstN = false) ∧
    ((List.range 56).all (fun c => !chanEnabled (atStage 2) c || decide (signedOf 16 (chanReading (atStage 2) c) < warnAt (atStage 2) (chanUnit c))) = true ∧
      (atStage 2).sys.stage = 2) ∧ shopPresent (atStage 4) 0 = true ∧ (atStage 5).sys.stage = 5 ∧
    (portsSettled (atStage 6) = true ∧ unitsReady (atStage 6) = true ∧ stackPresent (atStage 6) 0 = true ∧ (fulOf (atStage 6) 0).slots = []) ∧
    (unitsReady { atStage 6 with shops := [] } = false) ∧ portsSettled { s with regs := { s.regs with vals := [(0x1000000, some 1)] } } = false ∧
    (shutdownAt s 0 = some (110 * 8) ∧ shutdownAt s 40 = none ∧ signedOf 16 0x7FFF ≥ 110 * 8) ∧
    (scopeAbsent (atStage 7) 0 0 = false ∧ resetListed (atStage 7) 0 0 = false ∧ resetListed (atStage 7) 1 0 = false ∧ staged (atStage 7) 0 = false ∧
      hasRight (atStage 7) 0 0 = false ∧ hasRight inst 0 0 = true ∧ resetListed inst 3 0 = false) ∧
    resetIn (resetting 2) 0 0 2 = some ⟨0, 0, false, 2, false, 0⟩ ∧ resetIn (resetting 4) 0 0 4 = some ⟨0, 0, false, 4, false, 0⟩ ∧
    (shopOf (resetting 2) 0).state ≠ 1 ∧ runOf (resetting 2) 0 = none ∧
    homeInReset { s with sys := { s.sys with resets := [⟨1, 0, false, 2, false, 0⟩] } } (.warehouse warehouse0) = true ∧ homeInReset s (.warehouse warehouse0) = false := by
  refine ⟨?_, ?_, ?_, ?_, ?_, ?_, ?_, ?_, ?_, ?_, ?_, ?_, ?_, ?_, ?_⟩ <;> decide +kernel

theorem witness_SupplyWatch : (11199 < 11200 ∧ 13200 < 13201) ∧ State.reset.sys.powered = false ∧
    (∃ t, exec (.sysRstNRelease true true 5) State.reset = .next t ∧ t.sys.powered = true) := ⟨by decide, rfl, ⟨_, rfl, by decide +kernel⟩⟩

def stews (l : DevLock) : State := { atStage 7 with
  regs := { RegSt.reset with vals := [(0x1601800, some 2)] }
  sys := { (atStage 7).sys with locks := [(255, l)], bbdPend := [0], bbdActive := [(9, some 1)], bbdLevel := [1] } }

theorem witness_StewardsAndLocks :
    let s := stews DevLock.reset
    let held := stews { DevLock.reset with owner := 2, lease := some 5 }
    let one := stews { DevLock.reset with owner := 2, staged := [⟨true, 0x10, 1, ⟨false, false, false, false, 0, false, false, false, 0⟩⟩] }
    s.sys.powered = true ∧ State.reset.sys.powered = false ∧ levelSource 0 = true ∧ levelSource 432 = false ∧ pathOpen s .aperture 1 = false ∧
    (pathOpen { s with host := { s.host with perst := false } } .pf 1 = true ∧ pathOpen s (.steward 1) 1 = true ∧ pathOpen s (.steward 1) 2 = true) ∧
    (bbdPending s 0 = true ∧ tget none s.sys.bbdActive 0 = none ∧ bitOf (rget s 0x1601800) 1 = true) ∧ bbdPending s 2 = false ∧
    tget none s.sys.bbdActive 9 = some 1 ∧ s.sys.role.state ≠ 2 ∧ (tget DevLock.reset s.sys.locks 255).lease = none ∧
    (tget DevLock.reset held.sys.locks 255).lease = some 5 ∧ stewardActive s 1 = true ∧ stewardActive s 8 = false ∧
    (tget DevLock.reset s.sys.locks 255).owner = 0 ∧ (tget DevLock.reset one.sys.locks 255).owner = 2 ∧ (tget DevLock.reset one.sys.locks 255).staged.length = 1 ∧
    2 ≤ one.sys.stage ∧ (∀ i, i < 8 → homeKey (resolve s none (warehouse0 + i)) = some (warehouse0 + i)) ∧ (stewardOf s 7).present = true := by
  refine ⟨?_, ?_, ?_, ?_, ?_, ?_, ?_, ?_, ?_, ?_, ?_, ?_, ?_, ?_, ?_, ?_, ?_, ?_, ?_, ?_⟩ <;> decide +kernel

/-! ### Roles, JTAG, registers and the management port -/

def okIns : RoleIn := ⟨true, true, true, true, 0xA1, true, true, false, 7⟩
def badIns : RoleIn := ⟨false, false, false, false, 0, false, false, false, 0⟩

/-- The physical function is reachable, with this role state; every sensor channel reads 37.5 °C. -/
def roles (r : RoleSt) : State := { atStage 7 with
  host := { (atStage 7).host with perst := false }
  regs := { RegSt.reset with vals := [(0x1800400, some (0x54524543 + 2 ^ 32 + 2 ^ 40 + 4 * 2 ^ 48))] }
  therm := { (atStage 7).therm with
    flashOpen := true
    chans := (List.range 56).map (fun c => (c, { Chan.reset with reading := 300 })) }
  sys := { (atStage 7).sys with role := r } }

/-- An open session of a role on a channel, with every right. -/
def session (role chan level : Nat) : State := roles { RoleSt.reset with
  state := 2
  role := role
  channel := chan
  rights := 0x7F
  level := level }

def failedBoot : State := { roles RoleSt.reset with sys := { (roles RoleSt.reset).sys with stage := 8, cause := 1 } }

theorem witness_Roles :
    let asked := roles { RoleSt.reset with state := 1 }
    let out := roles { RoleSt.reset with state := 3, lockedTill := 60000000000 }
    pathOpen State.reset .pf 2 = false ∧ pathOpen asked .pf 2 = true ∧ pathOpen asked .smbus 2 = true ∧ pathOpen asked .jtag 2 = true ∧
    pathOpen State.reset .pf 0 = false ∧ pathOpen asked .pf 0 = true ∧ out.sys.role.state = 3 ∧ (session 1 0 0).sys.role.state = 2 ∧
    (max asked.now 60000000000 ≤ asked.sys.role.issued + 60000000000 ∧ certAccepted 0 (max asked.now 60000000000) okIns asked) ∧
    certAccepted 1 0 okIns (roles { RoleSt.reset with state := 1, channel := 1 }) ∧ certAccepted 2 0 okIns (roles { RoleSt.reset with state := 1, channel := 2 }) ∧
    asked.sys.role.state ≠ 3 ∧ ¬certAccepted 0 (max asked.now 60000000001) okIns asked ∧ ¬certAccepted 0 0 okIns (session 1 0 0) ∧
    ((session 1 0 0).sys.role.channel = 0 ∧ (session 1 1 0).sys.role.channel ≠ 0) ∧
    hasRight asked 0 2 = false ∧ hasRight (session 1 0 0) 0 2 = true ∧ hasRight asked 0 1 = false ∧ hasRight (session 1 0 0) 0 1 = true ∧
    imageCause asked okIns = 0 ∧ imageCause asked badIns = 12 ∧
    (max (session 1 0 0).now 299999999999 < (session 1 0 0).sys.role.lastWrite + 300000000000 ∧
      (session 1 0 0).sys.role.lastWrite + 300000000000 ≤ max (session 1 0 0).now 300000000000) ∧
    (max out.now 59999999999 < out.sys.role.lockedTill ∧ out.sys.role.lockedTill ≤ max out.now 60000000000) ∧
    (asked.sys.stage ≠ 8 ∧ failedBoot.sys.stage = 8 ∧ failedBoot.sys.cause = 1 ∧ pathOpen failedBoot .pf 0 = true) ∧
    ((session 2 0 0).sys.powered = true ∧ (session 2 0 0).sys.role.role = 2 ∧ (session 1 0 0).sys.role.role ≠ 2 ∧ hasRight (session 2 0 0) 0 4 = true ∧
      hasRight (session 2 0 0) 0 5 = true ∧ fuseOk (session 2 0 0) 0 = true ∧ fuseOk { session 2 0 0 with therm := State.reset.therm } 3 = false ∧
      (session 2 0 0).therm.flashOpen = true) := by
  refine ⟨?_, ?_, ?_, ?_, ?_, ?_, ?_, ?_, ?_, ?_, ?_, ?_, ?_, ?_, ?_, ?_, ?_, ?_, ?_, ?_, ?_, ?_, ?_, ?_, ?_⟩
  case refine_9 => exact ⟨by decide +kernel, by unfold certAccepted; refine ⟨?_, ?_, ?_, ?_, ?_, ?_, Or.inl ?_, ?_, ?_, ?_, ?_, ?_, ?_, ?_⟩ <;> decide +kernel⟩
  case refine_10 => unfold certAccepted; refine ⟨?_, ?_, ?_, ?_, ?_, ?_, Or.inl ?_, ?_, ?_, ?_, ?_, ?_, ?_, ?_⟩ <;> decide +kernel
  case refine_11 => unfold certAccepted; refine ⟨?_, ?_, ?_, ?_, ?_, ?_, Or.inl ?_, ?_, ?_, ?_, ?_, ?_, ?_, ?_⟩ <;> decide +kernel
  case refine_13 => intro h; exact absurd h.2.2.1 (by decide +kernel)
  case refine_14 => intro h; exact absurd h.1 (by decide +kernel)
  all_goals decide +kernel

theorem witness_JtagAndDebug :
    let lvl2 := session 1 2 2
    let lvl3 := session 2 2 3
    let low := { State.reset with regs := State.reset.regs }
    lvl2.sys.sysRstN = true ∧ low.sys.sysRstN = false ∧ low.sys.powered = false ∧ debugLevel low < 2 ∧ 2 ≤ debugLevel lvl2 ∧ lvl2.sys.powered = true ∧
    pathOpen lvl2 .aperture 2 = true ∧ pathOpen low .aperture 2 = false ∧ pathOpen lvl3 .aperture 3 = true ∧ pathOpen lvl2 .aperture 3 = false ∧
    pathOpen (roles RoleSt.reset) .aperture 1 = false ∧ pathOpen lvl2 .aperture 1 = true ∧ pathOpen low .jtag 0 = false ∧ pathOpen lvl2 .jtag 0 = true ∧
    (∀ i, i < 8 → homeKey (resolve lvl3 none (warehouse0 + i)) = some (warehouse0 + i)) ∧
    (lvl3.sys.role.channel = 2 ∧ lvl3.sys.role.state = 2 ∧ (roles RoleSt.reset).sys.role.state = 0) ∧
    ((roles { RoleSt.reset with state := 1, channel := 2 }).sys.role.channel = 2 ∧ (roles RoleSt.reset).sys.role.channel ≠ 2) ∧
    (failedBoot.sys.powered = true ∧ failedBoot.sys.stage = 8 ∧ failedBoot.sys.cause = 1 ∧ lvl2.sys.stage ≠ 8) ∧
    ((stewardOf lvl2 7).present = true ∧ (stewardOf lvl2 8).halted = none) := by
  refine ⟨?_, ?_, ?_, ?_, ?_, ?_, ?_, ?_, ?_, ?_, ?_, ?_, ?_, ?_, ?_, ?_, ?_, ?_, ?_⟩ <;> decide +kernel

theorem witness_RegisterAccess :
    let s := roles RoleSt.reset
    let inst := session 1 0 0
    let vf := { s with host := { s.host with vfEnable := true, numVfs := 4096 } }
    let owned := { s with sys := { s.sys with locks := [(255, { DevLock.reset with owner := 8 })] } }
    pathOpen State.reset .pf 2 = false ∧ pathOpen State.reset .pf 1 = false ∧ pathOpen s .pf 2 = true ∧ pathOpen s .pf 1 = true ∧ s.sys.role.state ≠ 2 ∧
    locate 0x900000 = none ∧
    (locate 0x18 = some (0, 0, 0x18) ∧ findReg 0 0 0x18 = none ∧ locate 0x7F8 = some (0, 0, 0x7F8) ∧ findReg 0 0 0x7F8 = none) ∧
    (bitsOf 55 5 0 ≤ 55 ∧ 55 < bitsOf 56 5 0) ∧
    (bitsOf (50 * 256 + 50) 13 8 ≤ 50 ∧ bitsOf (50 * 256 + 50) 13 8 ≤ bitsOf (50 * 256 + 50) 6 0 ∧ 50 < bitsOf (51 * 256 + 60) 13 8 ∧
      min 100 (bitsOf (20 * 256 + 19) 6 0) < bitsOf (20 * 256 + 19) 13 8) ∧
    (hasRight s 0 0 = false ∧ hasRight inst 0 0 = true ∧ inst.regs.wot.contains 0x1800060 = false ∧ rfield inst 0x1800060 31 0 ≠ 2 ^ 32 - 1 ∧
      bitOf inst.sys.lockBits 13 = false ∧ rfield inst 0x1800050 31 0 < 2 ^ 32 - 1 ∧
      5 < rfield { inst with regs := { inst.regs with vals := [(0x1800050, some 6)] } } 0x1800050 31 0 ∧
      ({ inst with regs := { inst.regs with wot := [0x1800060] } } : State).regs.wot.contains 0x1800060 = true ∧
      bitOf ({ inst with sys := { inst.sys with lockBits := 8192 } } : State).sys.lockBits 13 = true) ∧
    (319 < 320 ∧ (0x2000040 + 319 * 0x10000) % 8 = 0 ∧ 0x1604000 ≤ 0x2000040 + 319 * 0x10000) ∧
    ((0x4000F0 : Nat) % 0x1000 = 0xF0 ∧ 0x4000F0 < 0x800000 ∧ 0x4000F0 % 0x100000 < 0x1000) ∧
    (pathOpen vf (.vf 4096) 1 = true ∧ vf.ready = false ∧ ({ vf with ready := true } : State).ready = true) ∧
    (pathOpen s (.steward 7) 2 = true ∧ (tget DevLock.reset s.sys.locks 255).lease = none ∧ (tget DevLock.reset s.sys.locks 255).owner ≠ 8 ∧
      (tget DevLock.reset owned.sys.locks 255).owner = 8) ∧
    (pathOpen State.reset .pf 0 = false ∧ pathOpen s .pf 0 = true ∧ s.stat.busy = false) ∧
    (scopeAbsent s 1 3 = false ∧ scopeAbsent s 0 0 = false ∧ scopeAbsent s 2 0 = false) ∧ auditFind s 0 = none ∧
    auditFind { s with therm := { s.therm with audit := [[0, 0, 0, 0, 0, 0, 0, 9]] } } 9 = some [0, 0, 0, 0, 0, 0, 0, 9] := by
  refine ⟨?_, ?_, ?_, ?_, ?_, ?_, ?_, ?_, ?_, ?_, ?_, ?_, ?_, ?_, ?_, ?_, ?_, ?_⟩ <;> decide +kernel

theorem witness_ManagementPort :
    let s := roles RoleSt.reset
    let at_ := fun (off : Nat) => ({ s with sys := { s.sys with smbAddr := off } } : State)
    s.sys.aux = true ∧ ({ s with sys := { s.sys with aux := false } } : State).sys.aux = false ∧ pathOpen s .smbus 2 = true ∧
    pathOpen State.reset .smbus 2 = false ∧ pathOpen failedBoot .smbus 2 = false ∧
    ((at_ 0x1602000).sys.smbAddr % 8 = 0 ∧ (at_ 0x1600018).sys.smbAddr % 8 = 0 ∧ s.sys.smbAddr % 8 = 0) ∧
    (locate (at_ 0x410).sys.smbAddr = some (0, 0, 0x410) ∧ (findReg 0 0 0x410).isSome = true ∧ (at_ 0x410).sys.smbAddr < 0x1800000) ∧
    (chanEnabled s 0 = true ∧ (chanOf s 0).state = 0 ∧ chanEnabled s 55 = false) := by
  refine ⟨?_, ?_, ?_, ?_, ?_, ?_, ?_, ?_⟩ <;> decide +kernel

/-! ### Well-formed commands: one ill-formed term for each check -/

theorem test_wf_lt : (Instr.rcRead .pf 0 9 0).wellFormed = false := by decide
theorem test_wf_bits : (Instr.rcRead .pf (2 ^ 32) 8 0).wellFormed = false := by decide
theorem test_wf_optBits : (Instr.registerWrite .pf 0 8 0 (some 256) noRole 0).wellFormed = false := by decide
theorem test_wf_isShop : (Instr.kload 320).wellFormed = false := by decide
theorem test_wf_isShop_last : (Instr.kload 319).wellFormed = true := by decide
theorem test_wf_isBench : (Instr.sadd 0 256 0 0 0 0 0 0).wellFormed = false := by decide
theorem test_wf_isReg : (Instr.sadd 0 0 32 0 0 0 0 0).wellFormed = false := by decide
theorem test_wf_isStack : (Instr.append 12 0).wellFormed = false := by decide
theorem test_wf_isFuller : (Instr.append 0 512).wellFormed = false := by decide
theorem test_wf_isQuarter : (Instr.heldDeliveryAccept 4).wellFormed = false := by decide
theorem test_wf_isPort : (Instr.signalDetect 16 0).wellFormed = false := by decide
theorem test_wf_isRing : (Instr.stop 4097 0 false 0 0).wellFormed = false := by decide
theorem test_wf_isSteward : (Instr.lockAcquire 8 0 0 0).wellFormed = false := by decide
theorem test_wf_isChannel : (Instr.sensorFail 56 true 0).wellFormed = false := by decide
theorem test_wf_isPath_vf : (Instr.rcRead (.vf 4097) 0 8 0).wellFormed = false := by decide
theorem test_wf_isPath_steward : (Instr.rcRead (.steward 8) 0 8 0).wellFormed = false := by decide
theorem test_wf_isShopOrAll : (Instr.benchFw 0 0 0 0x1FE true).wellFormed = false ∧ (Instr.benchFw 0 0 0 0x1FF true).wellFormed = true := by decide
theorem test_wf_isStackOrAll : (Instr.fullerLib 0 0 0 12 true 0 0 []).wellFormed = false ∧ (Instr.fullerLib 0 0 0 15 true 0 0 []).wellFormed = true := by decide

end Sys2Proof.Tests
end

section
/-! SUPPORT. The bench's local memory (R94): what an instruction of local memory does when it issues, the bytes it reads and writes, and the settlement of
the statement about it. -/

namespace Sys2Proof.Machine

/-! ### Numbers and bytes -/

/-- Sign extension by `signedOf` and `codeOf` is that of bit vectors. -/
theorem codeOf_signedOf (w x : Nat) : codeOf 64 (signedOf w x) = ((BitVec.ofNat w x).signExtend 64).toNat := by
  have hs : signedOf w x = (BitVec.ofNat w x).toInt := by
    rw [BitVec.toInt_eq_msb_cond, BitVec.msb_eq_decide, BitVec.toNat_ofNat]
    simp only [signedOf, decide_eq_true_eq]
    split <;> split <;> omega
  rw [hs, BitVec.signExtend, BitVec.toNat_ofInt, codeOf]

/-- The local address A + IMM is the sum modulo 2^64 with the sign-extended immediate. -/
theorem effAddr_eq_signExtend (b : BenchSt) (a imm : Nat) :
    effAddr b a imm = (BitVec.ofNat 64 (getS b a) + (BitVec.ofNat 16 imm).signExtend 64).toNat := by
  rw [effAddr, sext16, codeOf_signedOf, BitVec.toNat_add, BitVec.toNat_ofNat, Nat.mod_add_mod]

theorem ofLeBytes_lt (l : List Byte) : ofLeBytes l < 2 ^ (8 * l.length) := by
  induction l with
  | nil => simp [ofLeBytes]
  | cons b l ih =>
    have hb := b.isLt
    rw [ofLeBytes, List.length_cons, mul_add, mul_one, pow_add]
    omega

/-- Byte `i` of a number's little-endian bytes. -/
theorem leBytes_getD (n x i : Nat) (h : i < n) : (leBytes n x).getD i 0 = BitVec.ofNat 8 (x / 2 ^ (8 * i)) := by
  induction n generalizing x i with
  | zero => omega
  | succ n ih =>
    cases i with
    | zero => simp [leBytes]
    | succ i =>
      rw [leBytes, List.getD_cons_succ, ih _ _ (by omega), Nat.div_div_eq_div_mul, mul_add, mul_one, pow_add, mul_comm (2 ^ (8 * i))]
      norm_num

theorem localRead_lt (b : BenchSt) (a n : Nat) : localRead b a n < 2 ^ (8 * n) := by
  simpa [localRead] using ofLeBytes_lt ((List.range n).map (fun i => tget 0 b.local_ (a + i)))

/-- A write of local memory places its bytes from its address on and keeps every other byte. -/
theorem localWrite_byte (a : Nat) (l : List Byte) (b : BenchSt) (j : Nat) :
    tget 0 (localWrite a l b).local_ j = if a ≤ j ∧ j < a + l.length then l.getD (j - a) 0 else tget 0 b.local_ j := by
  simpa [keyByte, storeKeys, localWrite, List.foldl_map] using
    keyByte_storeKeys_block a l { State.reset with mem := { State.reset.mem with bytes := b.local_ } } j

theorem localWrite_leBytes_byte (a n v : Nat) (b : BenchSt) (j : Nat) :
    tget 0 (localWrite a (leBytes n v) b).local_ j =
      if a ≤ j ∧ j < a + n then BitVec.ofNat 8 (v / 2 ^ (8 * (j - a))) else tget 0 b.local_ j := by
  rw [localWrite_byte, leBytes_length]
  split
  · exact leBytes_getD _ _ _ (by omega)
  · rfl

/-! ### The issue of an instruction -/

/-- The next PC, with the LOOP in progress, depends on nothing but the PC and the LOOP, and changes nothing else (R93). -/
theorem benchNext_eq (b c : BenchSt) (hpc : c.pc = b.pc) (hloop : c.loop = b.loop) :
    benchNext c = { c with pc := (benchNext b).pc, loop := (benchNext b).loop } := by
  simp only [benchNext, hpc, hloop]
  split
  · split
    · split <;> rfl
    · simp [← hloop]
  · simp [← hloop]

/-- The counts that the issue of an instruction makes (R89, Table 13.4, Table 21.2). -/
def countIssue (shop : Nat) (s : State) : State := bumpBell 2 shop 1 1 (shopActivity shop 216 (bump (shopC shop 0x138) 1 s))

@[simp] theorem countIssue_benches (shop : Nat) (s : State) : (countIssue shop s).benches = s.benches := by
  simp [countIssue, shopActivity]

/-- A counter's increment moves no other part of the state. -/
theorem bump_eq (off n : Nat) (s : State) :
    bump off n s = { s with regs := { s.regs with live := (bump off n s).regs.live, sat := (bump off n s).regs.sat } } := by
  dsimp only [bump]; split <;> rfl

@[simp] theorem countIssue_benchOf (shop k : Nat) (s : State) : benchOf (countIssue shop s) k = benchOf s k := by
  rw [benchOf, benchOf, countIssue_benches]

theorem countIssue_benchFrame (k shop : Nat) (s : State) : benchFrame k s (countIssue shop s) := by
  refine ⟨fun j _ => countIssue_benchOf shop j s, ?_⟩
  rw [countIssue, bump_eq]
  rfl

/-- A change of the bench itself keeps its frame. -/
theorem benchFrame_modBench {k : Nat} {s t : State} (f : BenchSt → BenchSt) (h : benchFrame k s t) : benchFrame k s (modBench k f t) := by
  obtain ⟨hother, hrest⟩ := h
  refine ⟨fun j hj => (benchOf_modBench_other k f t j hj).trans (hother j hj), ?_⟩
  rw [hrest]
  rfl

/-- Fewer registers wait for no more loads. -/
theorem regPending_false_of_subset (b : BenchSt) {ss ss' vs vs' : List Nat} (hs : ss ⊆ ss') (hv : vs ⊆ vs') (h : regPending b ss' vs' = false) :
    regPending b ss vs = false := by
  simp only [regPending, List.any_eq_false, Bool.or_eq_true, Bool.and_eq_true, List.contains_iff_mem, not_or, not_and] at h ⊢
  exact fun o ho => ⟨fun hk hm => (h o ho).1 hk (hv hm), fun hk hm => (h o ho).2 hk (hs hm)⟩

/-- A legal instruction of a bench that issues takes its effect on the state with the issue counted. -/
theorem issue_of_benchIssues {s : State} {shop bench : Nat} {ss ss' vs vs' : List Nat} (hi : benchIssues s shop bench ss' vs' = true)
    (hs : ss ⊆ ss') (hv : vs ⊆ vs') (eff : Nat → BenchSt → State → State) :
    issue shop bench true ss vs eff s = eff (benchKey shop bench) (benchOf s (benchKey shop bench)) (countIssue shop s) := by
  simp only [benchIssues, Bool.and_eq_true, Bool.not_eq_true'] at hi
  obtain ⟨⟨hruns, hpc⟩, hpend⟩ := hi
  simp [issue, hruns, hpc, regPending_false_of_subset _ hs hv hpend, countIssue]

/-! ### Local accesses -/

/-- A local access of a bench that issues: where it is aligned and inside, its effect is on its bench, then the next PC; elsewhere it is a LOCAL_ADDR
fault (R94). -/
theorem localOp_of_benchIssues {s : State} {shop bench d a imm : Nat} {ss vs : List Nat} (hd : d < 32) (ha : a < 32) (himm : imm < 65536)
    (hi : benchIssues s shop bench [d, a] [d] = true) (hs : ss ⊆ [d, a]) (hv : vs ⊆ [d]) (n : Nat) (f : Nat → BenchSt → BenchSt) :
    localOp n ss vs shop bench d a imm f s =
      if effAddr (benchOf s (benchKey shop bench)) a imm % n = 0 ∧ effAddr (benchOf s (benchKey shop bench)) a imm + n ≤ 4096 then
        modBench (benchKey shop bench) (fun b => benchNext (f (effAddr (benchOf s (benchKey shop bench)) a imm) b)) (countIssue shop s)
      else benchFault (benchKey shop bench) 3 (countIssue shop s) := by
  have hlegal : (regs32 [d, a] && decide (imm < 65536)) = true := by simp [regs32, hd, ha, himm]
  rw [localOp, hlegal, issue_of_benchIssues hi hs hv]
  simp only [localOk, decide_eq_true_eq]

/-- What an instruction that is a local access promises, when every state that keeps the bench's frame and has the access's effect on the bench meets
`P`. -/
theorem localOp_outcome {s : State} {shop bench d a imm : Nat} {ss vs : List Nat} (hd : d < 32) (ha : a < 32) (himm : imm < 65536)
    (hi : benchIssues s shop bench [d, a] [d] = true) (hs : ss ⊆ [d, a]) (hv : vs ⊆ [d]) (n : Nat) (f : Nat → BenchSt → BenchSt) {i : Instr}
    (hexec : exec i s = .next (localOp n ss vs shop bench d a imm f s)) {P : State → Prop}
    (hP : ∀ t, benchOf t (benchKey shop bench) =
      benchNext (f (effAddr (benchOf s (benchKey shop bench)) a imm) (benchOf s (benchKey shop bench))) → benchFrame (benchKey shop bench) s t → P t) :
    if effAddr (benchOf s (benchKey shop bench)) a imm % n = 0 ∧ effAddr (benchOf s (benchKey shop bench)) a imm + n ≤ 4096 then
      ∃ t, exec i s = .next t ∧ P t
    else exec i s = .next (benchFault (benchKey shop bench) 3 (countIssue shop s)) := by
  rw [localOp_of_benchIssues hd ha himm hi hs hv] at hexec
  split
  next hok =>
    rw [if_pos hok] at hexec
    refine ⟨_, hexec, hP _ ?_ (benchFrame_modBench _ (countIssue_benchFrame _ _ _))⟩
    rw [benchOf_modBench_same, countIssue_benchOf]
  next hbad => rwa [if_neg hbad] at hexec

/-- A write of a scalar register changes no other part of the bench. -/
theorem putS_eq (r v : Nat) (b : BenchSt) : putS r v b = { b with s := (putS r v b).s } := by
  unfold putS; split <;> rfl

/-- A bench that has written a scalar register and gone on shows the scalar result. -/
theorem scalarResult_of_putS {s t : State} {shop bench d v : Nat}
    (hb : benchOf t (benchKey shop bench) = benchNext (putS d v (benchOf s (benchKey shop bench)))) (hf : benchFrame (benchKey shop bench) s t) :
    scalarResult shop bench d v 0 s t := by
  rw [benchNext_eq (benchOf s (benchKey shop bench)) _ (by rw [putS_eq]) (by rw [putS_eq])] at hb
  refine ⟨fun r => ?_, ?_, hf⟩
  · rw [hb, ← getS_putS]
    rfl
  · rw [hb, Nat.or_zero, putS_eq]

/-- A bench that has written a vector register and gone on: that register, the PC and the LOOP have changed, and nothing else. -/
theorem vectorRegister_of_putV {s t : State} {k d v : Nat} (hv : v < 2 ^ 256) (hb : benchOf t k = benchNext (putV d v (benchOf s k)))
    (hf : benchFrame k s t) :
    (∀ r, getV (benchOf t k) r = if r = d then v else getV (benchOf s k) r) ∧
    benchOf t k = { benchOf s k with v := (benchOf t k).v, pc := (benchNext (benchOf s k)).pc, loop := (benchNext (benchOf s k)).loop } ∧
    benchFrame k s t := by
  rw [benchNext_eq (benchOf s k) (putV d v (benchOf s k)) rfl rfl] at hb
  refine ⟨fun r => ?_, ?_, hf⟩
  · have hr := getV_putV (benchOf s k) d r v
    rw [Nat.mod_eq_of_lt hv] at hr
    rw [hb, ← hr]
    rfl
  · rw [hb]
    rfl

/-- A bench that has stored to its local memory and gone on: the bytes stored, the PC and the LOOP have changed, and nothing else. -/
theorem localStored_of_localWrite {s t : State} {k addr n v : Nat} (hb : benchOf t k = benchNext (localWrite addr (leBytes n v) (benchOf s k)))
    (hf : benchFrame k s t) :
    (∀ j, tget 0 (benchOf t k).local_ j =
      if addr ≤ j ∧ j < addr + n then BitVec.ofNat 8 (v / 2 ^ (8 * (j - addr))) else tget 0 (benchOf s k).local_ j) ∧
    benchOf t k =
      { benchOf s k with local_ := (benchOf t k).local_, pc := (benchNext (benchOf s k)).pc, loop := (benchNext (benchOf s k)).loop } ∧
    benchFrame k s t := by
  rw [benchNext_eq (benchOf s k) (localWrite addr (leBytes n v) (benchOf s k)) rfl rfl] at hb
  refine ⟨fun j => ?_, ?_, hf⟩
  · rw [hb, ← localWrite_leBytes_byte]
  · rw [hb]
    rfl

/-! ### The instructions as local accesses (Table 4.6) -/

section

variable (s : State) (shop bench d a imm : Nat)

theorem exec_sldb : exec (.sldb shop bench d a imm) s =
    .next (localOp 1 [d, a] [] shop bench d a imm (fun x b => putS d (codeOf 64 (signedOf 8 (localRead b x 1))) b) s) := rfl

theorem exec_sldw : exec (.sldw shop bench d a imm) s =
    .next (localOp 4 [d, a] [] shop bench d a imm (fun x b => putS d (codeOf 64 (signedOf 32 (localRead b x 4))) b) s) := rfl

theorem exec_sldd : exec (.sldd shop bench d a imm) s =
    .next (localOp 8 [d, a] [] shop bench d a imm (fun x b => putS d (localRead b x 8) b) s) := rfl

theorem exec_sstb : exec (.sstb shop bench d a imm) s =
    .next (localOp 1 [d, a] [] shop bench d a imm (fun x b => localWrite x (leBytes 1 (getS b d)) b) s) := rfl

theorem exec_sstw : exec (.sstw shop bench d a imm) s =
    .next (localOp 4 [d, a] [] shop bench d a imm (fun x b => localWrite x (leBytes 4 (getS b d)) b) s) := rfl

theorem exec_sstd : exec (.sstd shop bench d a imm) s =
    .next (localOp 8 [d, a] [] shop bench d a imm (fun x b => localWrite x (leBytes 8 (getS b d)) b) s) := rfl

theorem exec_vld : exec (.vld shop bench d a imm) s =
    .next (localOp 32 [a] [d] shop bench d a imm (fun x b => putV d (localRead b x 32) b) s) := rfl

theorem exec_vst : exec (.vst shop bench d a imm) s =
    .next (localOp 32 [a] [d] shop bench d a imm (fun x b => localWrite x (leBytes 32 (getV b d)) b) s) := rfl

end

/-- Settles O14: each instruction is a local access (`localOp_outcome`), and its effect on the bench is a scalar result, a vector register or a store. -/
theorem benchLocalMemory : Obligations.BenchLocalMemory := by
  unfold Obligations.BenchLocalMemory
  intro s shop bench d a imm hd ha himm hi
  dsimp only
  rw [← effAddr_eq_signExtend]
  have both : [d, a] ⊆ [d, a] := List.Subset.refl _
  have noVector : [] ⊆ [d] := List.nil_subset _
  have base : [a] ⊆ [d, a] := List.subset_cons_self _ _
  have vector : [d] ⊆ [d] := List.Subset.refl _
  refine ⟨?sldb, ?sldw, ?sldd, ?sstb, ?sstw, ?sstd, ?vld, ?vst⟩
  case sldb =>
    refine localOp_outcome hd ha himm hi both noVector 1 _ (exec_sldb _ _ _ _ _ _) (fun t hb => scalarResult_of_putS ?_)
    rw [hb, codeOf_signedOf, localRead]
  case sldw =>
    refine localOp_outcome hd ha himm hi both noVector 4 _ (exec_sldw _ _ _ _ _ _) (fun t hb => scalarResult_of_putS ?_)
    rw [hb, codeOf_signedOf, localRead]
  case sldd => exact localOp_outcome hd ha himm hi both noVector 8 _ (exec_sldd _ _ _ _ _ _) (fun t => scalarResult_of_putS)
  case sstb => exact localOp_outcome hd ha himm hi both noVector 1 _ (exec_sstb _ _ _ _ _ _) (fun t => localStored_of_localWrite)
  case sstw => exact localOp_outcome hd ha himm hi both noVector 4 _ (exec_sstw _ _ _ _ _ _) (fun t => localStored_of_localWrite)
  case sstd => exact localOp_outcome hd ha himm hi both noVector 8 _ (exec_sstd _ _ _ _ _ _) (fun t => localStored_of_localWrite)
  case vld =>
    exact localOp_outcome hd ha himm hi base vector 32 _ (exec_vld _ _ _ _ _ _) (fun t => vectorRegister_of_putV (localRead_lt _ _ 32))
  case vst => exact localOp_outcome hd ha himm hi base vector 32 _ (exec_vst _ _ _ _ _ _) (fun t => localStored_of_localWrite)

end Sys2Proof.Machine
end

section
/-! SUPPORT. Power: what each operation and each command leaves of the state of the always-on domain, by which no command but a release of SYS_RST_N powers the
12 V domains, and the settlement of the statement about the 12 V watch (R571). -/

namespace Sys2Proof.Machine

/-! ### What stays, and folds that keep it -/

/-- The state of the always-on domain is as before. What a lemma asks of a function that an operation takes is stated through this name and the two below it:
`simp` and the kernel then compare the states as they are written, not the fields that they evaluate to. -/
def sysKept (s t : State) : Prop := t.sys = s.sys

/-- The domains are powered or not as before. -/
def powerKept (s t : State) : Prop := t.sys.powered = s.sys.powered

/-- `sysKept` of a state that a fold carries beside another value. -/
def fstKept {β : Type} (a b : State × β) : Prop := b.1.sys = a.1.sys

/-- A command that answers a state keeps power on or off. -/
def keepsPower (s : State) : Res → Prop
  | .next t => t.sys.powered = s.sys.powered
  | _ => True

@[simp] theorem sysKept_iff {s t : State} : sysKept s t ↔ t.sys = s.sys := Iff.rfl
@[simp] theorem powerKept_iff {s t : State} : powerKept s t ↔ t.sys.powered = s.sys.powered := Iff.rfl
@[simp] theorem fstKept_iff {β : Type} {a b : State × β} : fstKept a b ↔ b.1.sys = a.1.sys := Iff.rfl
@[simp] theorem keepsPower_next (s t : State) : keepsPower s (.next t) ↔ t.sys.powered = s.sys.powered := Iff.rfl

@[simp] theorem sys_ite (c : Prop) [Decidable c] (s t : State) : (if c then s else t).sys = if c then s.sys else t.sys := apply_ite State.sys c s t

@[simp] theorem powered_ite (c : Prop) [Decidable c] (y z : SysSt) : (if c then y else z).powered = if c then y.powered else z.powered :=
  apply_ite SysSt.powered c y z

/-- A fold keeps what each of its steps keeps. -/
theorem foldl_keeps {σ α β : Type} (g : σ → β) {f : σ → α → σ} (h : ∀ a x, g (f a x) = g a) (l : List α) (a : σ) : g (l.foldl f a) = g a :=
  List.foldlRecOn l f (motive := fun b => g b = g a) rfl (fun b ih x _ => (h b x).trans ih)

@[simp] theorem foldl_sys {α : Type} {f : State → α → State} (h : ∀ s a, sysKept s (f s a)) (l : List α) (s : State) : (l.foldl f s).sys = s.sys :=
  foldl_keeps State.sys h l s

@[simp] theorem foldl_powered {α : Type} {f : State → α → State} (h : ∀ s a, powerKept s (f s a)) (l : List α) (s : State) :
    (l.foldl f s).sys.powered = s.sys.powered :=
  foldl_keeps (fun s => s.sys.powered) h l s

@[simp] theorem foldl_fst_sys {α β : Type} {f : State × β → α → State × β} (h : ∀ a x, fstKept a (f a x)) (l : List α) (a : State × β) :
    (l.foldl f a).1.sys = a.1.sys :=
  foldl_keeps (fun a => a.1.sys) h l a

/-! ### Shared operations -/

@[simp] theorem rset_sys (key v s) : (rset key v s).sys = s.sys := rfl
@[simp] theorem accessFault_sys (base s) : (accessFault base s).sys = s.sys := rfl
@[simp] theorem writeFault_sys (base s) : (writeFault base s).sys = s.sys := rfl
@[simp] theorem takeFree_sys (s) : (takeFree s).2.sys = s.sys := by simp [takeFree]

@[simp] theorem takeFrees_sys (n s) : (takeFrees n s).2.sys = s.sys := by
  induction n generalizing s with
  | zero => rfl
  | succ n ih => exact ih _

@[simp] theorem writeSlot_sys (ring e s) : (writeSlot ring e s).sys = s.sys := by simp [writeSlot]
@[simp] theorem sendMsix_sys (ring s) : (sendMsix ring s).sys = s.sys := by simp [sendMsix]
@[simp] theorem msixCheck_sys (ring s) : (msixCheck ring s).sys = s.sys := by simp [msixCheck]
@[simp] theorem dropRecord_sys (ring n s) : (dropRecord ring n s).sys = s.sys := by simp [dropRecord]
@[simp] theorem storeRecord_sys (ring e s) : (storeRecord ring e s).sys = s.sys := by unfold storeRecord; dsimp only; (repeat' split) <;> simp
@[simp] theorem writeLost_sys (ring s) : (writeLost ring s).sys = s.sys := by simp [writeLost]
@[simp] theorem emit_sys (ring e s) : (emit ring e s).sys = s.sys := by simp [emit]
@[simp] theorem emitPair_sys (ring e f s) : (emitPair ring e f s).sys = s.sys := by simp [emitPair]

@[simp] theorem drainStore_sys (k ring s) : (drainStore k ring s).sys = s.sys := by
  induction k generalizing s with
  | zero => rfl
  | succ k ih => unfold drainStore; dsimp only; (repeat' split) <;> simp [ih]

@[simp] theorem emitOp_sys (family kind code payload s) : (emitOp family kind code payload s).sys = s.sys := by simp [emitOp]
@[simp] theorem orderCompletion_sys (ring op status tag order s) : (orderCompletion ring op status tag order s).sys = s.sys := by simp [orderCompletion]

@[simp] theorem completion_sys (ring op status tag result detail index s) : (completion ring op status tag result detail index s).sys = s.sys := by
  simp [completion]

@[simp] theorem fwTaken_sys (fuller unit status s) : (fwTaken fuller unit status s).sys = s.sys := by simp [fwTaken]
@[simp] theorem flashCommit_sys (h s) : (flashCommit h s).sys = s.sys := by unfold flashCommit; split <;> simp
@[simp] theorem flashWrite_sys (h s) : (flashWrite h s).sys = s.sys := by simp [flashWrite]
@[simp] theorem rasLogN_sys (count typ sev unit addr pos owner detail s) : (rasLogN count typ sev unit addr pos owner detail s).sys = s.sys := by simp [rasLogN]
@[simp] theorem rasLog_sys (typ sev unit addr pos owner detail s) : (rasLog typ sev unit addr pos owner detail s).sys = s.sys := by simp [rasLog]
@[simp] theorem unitAbsent_sys (unit cause s) : (unitAbsent unit cause s).sys = s.sys := by simp [unitAbsent]

@[simp] theorem auditEntry_powered (kind role chan count time object cert old new detail s) :
    (auditEntry kind role chan count time object cert old new detail s).sys.powered = s.sys.powered := by simp [auditEntry]

@[simp] theorem audit_powered (kind chan object old new detail s) : (audit kind chan object old new detail s).sys.powered = s.sys.powered := by simp [audit]
@[simp] theorem refusedWrite_powered (base off chan old new s) : (refusedWrite base off chan old new s).sys.powered = s.sys.powered := by simp [refusedWrite]
@[simp] theorem setLevel_powered (lvl s) : (setLevel lvl s).sys.powered = s.sys.powered := by simp [setLevel]
@[simp] theorem closeSession_powered (s) : (closeSession s).sys.powered = s.sys.powered := by simp [closeSession]
@[simp] theorem closeChannel_powered (chan s) : (closeChannel chan s).sys.powered = s.sys.powered := by simp [closeChannel]
@[simp] theorem touchMixed_sys (fk was s) : (touchMixed fk was s).sys = s.sys := by simp [touchMixed]
@[simp] theorem notePoison_sys (sk p s) : (notePoison sk p s).sys = s.sys := by simp [notePoison]
@[simp] theorem touchRead_sys (sk s) : (touchRead sk s).sys = s.sys := by simp [touchRead]
@[simp] theorem retried_sys (s) : (retried s).sys = s.sys := by simp [retried]
@[simp] theorem readFx_sys (ten A n s) : (readFx ten A n s).sys = s.sys := by simp [readFx]
@[simp] theorem readDev_sys (ten A n s) : (readDev ten A n s).2.sys = s.sys := by simp [readDev]
@[simp] theorem sectorWritten_sys (sk count s) : (sectorWritten sk count s).sys = s.sys := by unfold sectorWritten; dsimp only; (repeat' split) <;> simp
@[simp] theorem lineWritten_sys (ln count s) : (lineWritten ln count s).sys = s.sys := by simp [lineWritten]
@[simp] theorem writeKeys_sys (l s) : (writeKeys l s).sys = s.sys := by simp [writeKeys]
@[simp] theorem reduceWrite_sys (kind addr data s) : (reduceWrite kind addr data s).sys = s.sys := by simp [reduceWrite]
@[simp] theorem writeDev_sys (ten A data s) : (writeDev ten A data s).1.sys = s.sys := by unfold writeDev; dsimp only; (repeat' split) <;> simp
@[simp] theorem poisonRange_sys (ten A n s) : (poisonRange ten A n s).sys = s.sys := by simp [poisonRange]
@[simp] theorem freeFrame_sys (k s) : (freeFrame k s).sys = s.sys := by unfold freeFrame; dsimp only; (repeat' split) <;> simp
@[simp] theorem takeFrame_sys (k stateCls use s) : (takeFrame k stateCls use s).sys = s.sys := rfl
@[simp] theorem bindGranule_sys (g k stateCls pinned tenant model order s) : (bindGranule g k stateCls pinned tenant model order s).sys = s.sys := rfl
@[simp] theorem wakeWaits_sys (t s) : (wakeWaits t s).sys = s.sys := rfl
@[simp] theorem signalTally_sys (t i s) : (signalTally t i s).sys = s.sys := by simp [signalTally]
@[simp] theorem storeTally_sys (t v s) : (storeTally t v s).sys = s.sys := rfl
@[simp] theorem zeroTallies_sys (base count s) : (zeroTallies base count s).sys = s.sys := rfl

/-! ### Sharding and reads and writes by a context -/

@[simp] theorem readCtx_sys (c ten A n s) : (readCtx c ten A n s).2.sys = s.sys := by simp [readCtx]
@[simp] theorem writeCtx_sys (ten A data s) : (writeCtx ten A data s).sys = s.sys := by unfold writeCtx; split <;> simp

/-! ### Shared operations of the Balis fabric -/

@[simp] theorem portErr_sys (n typ cause dev ten s) : (portErr n typ cause dev ten s).sys = s.sys := rfl

@[simp] theorem drainPort_sys (k n s) : (drainPort k n s).sys = s.sys := by
  induction k generalizing s with
  | zero => rfl
  | succ k ih => unfold drainPort; dsimp only; (repeat' split) <;> simp [ih]

@[simp] theorem sendPacket_sys (n p s) : (sendPacket n p s).sys = s.sys := by simp [sendPacket]
@[simp] theorem trySend_sys (id s) : (trySend id s).sys = s.sys := by unfold trySend; dsimp only; (repeat' split) <;> simp
@[simp] theorem pumpReqs_sys (s) : (pumpReqs s).sys = s.sys := by simp [pumpReqs]
@[simp] theorem sendReq_sys (p ten ctx iss off s) : (sendReq p ten ctx iss off s).sys = s.sys := by simp [sendReq]
@[simp] theorem readRemote_sys (dev addr len ten ctx iss s) : (readRemote dev addr len ten ctx iss s).sys = s.sys := by simp [readRemote]

@[simp] theorem writeRemoteAs_sys (op arg2 dev addr data ten ctx iss s) : (writeRemoteAs op arg2 dev addr data ten ctx iss s).sys = s.sys := by
  simp [writeRemoteAs]

@[simp] theorem writeRemote_sys (dev addr data ten ctx iss s) : (writeRemote dev addr data ten ctx iss s).sys = s.sys := by simp [writeRemote]
@[simp] theorem signalWork_sys (ctx ten t i s) : (signalWork ctx ten t i s).sys = s.sys := by unfold signalWork; split <;> simp
@[simp] theorem groupTell_sys (g msg s) : (groupTell g msg s).sys = s.sys := by simp [groupTell]
@[simp] theorem sendCtrl_sys (g code words s) : (sendCtrl g code words s).sys = s.sys := by simp [sendCtrl]
@[simp] theorem dropColls_sys (p tell s) : (dropColls p tell s).sys = s.sys := by simp [dropColls]

/-! ### Shared operations of the shops -/

@[simp] theorem shopActivity_sys (n e s) : (shopActivity n e s).sys = s.sys := rfl
@[simp] theorem portBytes_sys (n k s) : (portBytes n k s).sys = s.sys := rfl
@[simp] theorem tileStarts_sys (c unitKind unit clk s) : (tileStarts c unitKind unit clk s).sys = s.sys := rfl
@[simp] theorem tileEnds_sys (id unitKind unit s) : (tileEnds id unitKind unit s).sys = s.sys := by unfold tileEnds; split <;> simp
@[simp] theorem candGone_sys (id s) : (candGone id s).sys = s.sys := rfl
@[simp] theorem runDone_sys (n e op s) : (runDone n e op s).sys = s.sys := rfl
@[simp] theorem grant_sys (n ctx ten holder reqs s) : (grant n ctx ten holder reqs s).sys = s.sys := rfl
@[simp] theorem releaseWindows_sys (n ctx holder s) : (releaseWindows n ctx holder s).sys = s.sys := rfl
@[simp] theorem abandonBenches_sys (n p s) : (abandonBenches n p s).sys = s.sys := rfl
@[simp] theorem cancelShop_sys (c n s) : (cancelShop c n s).sys = s.sys := rfl

@[simp] theorem workEvents_sys (c code sub eng templ ticket unit s) : (workEvents c code sub eng templ ticket unit s).sys = s.sys := by
  unfold workEvents; dsimp only; split <;> simp

@[simp] theorem ctxFaults_sys (c code sub s) : (ctxFaults c code sub s).sys = s.sys := by unfold ctxFaults; dsimp only; split <;> simp
@[simp] theorem workFault_sys (n code sub eng c templ ticket s) : (workFault n code sub eng c templ ticket s).sys = s.sys := by simp [workFault]
@[simp] theorem cmdFault_sys (n c code sub s) : (cmdFault n c code sub s).sys = s.sys := by simp [cmdFault]
@[simp] theorem postWaits_sys (ctx ten who ws s) : (postWaits ctx ten who ws s).2.sys = s.sys := rfl
@[simp] theorem sendSignals_sys (ctx ten ws s) : (sendSignals ctx ten ws s).sys = s.sys := by simp [sendSignals]

/-! ### Deliveries to the token selectors -/

@[simp] theorem mergeRow_sys (q o vals poison s) : (mergeRow q o vals poison s).sys = s.sys := by unfold mergeRow; split <;> simp

@[simp] theorem deliverLogits_sys (o vals poison s) : (deliverLogits o vals poison s).sys = s.sys := by
  unfold deliverLogits; dsimp only; (repeat' split) <;> simp

@[simp] theorem apertureStore_sys (c off codes poison s) : (apertureStore c off codes poison s).sys = s.sys :=
  foldl_sys (fun s b => by dsimp only; split <;> simp) ..

@[simp] theorem queueMask_sys (o s) : (queueMask o s).sys = s.sys := by simp [queueMask]
@[simp] theorem forgetSel_sys (o s) : (forgetSel o s).sys = s.sys := rfl

/-! ### The command processor -/

@[simp] theorem takeLoad_sys (n s) : (takeLoad n s).sys = s.sys := by unfold takeLoad; dsimp only; split <;> simp
@[simp] theorem execSheetLoad_keepsPower (shop ctx addr s) : keepsPower s (execSheetLoad shop ctx addr s) := by unfold execSheetLoad; split <;> simp
@[simp] theorem goCheck_sys (n b s) : (goCheck n b s).sys = s.sys := by unfold goCheck; dsimp only; (repeat' split) <;> simp
@[simp] theorem execSheetImageLoaded_keepsPower (shop bank s) : keepsPower s (execSheetImageLoaded shop bank s) := by simp [execSheetImageLoaded]
@[simp] theorem execGo_keepsPower (shop ctx addr s) : keepsPower s (execGo shop ctx addr s) := by unfold execGo; split <;> simp
@[simp] theorem seek_sys (n b c s) : (seek n b c s).sys = s.sys := rfl
@[simp] theorem sheetSettle_sys (n b s) : (sheetSettle n b s).sys = s.sys := by unfold sheetSettle; dsimp only; (repeat' split) <;> simp
@[simp] theorem execSheetStart_keepsPower (shop bank s) : keepsPower s (execSheetStart shop bank s) := by simp [execSheetStart]
@[simp] theorem execStockroomClearDone_keepsPower (shop s) : keepsPower s (execStockroomClearDone shop s) := rfl

@[simp] theorem execTemplateEmit_keepsPower (shop bank s) : keepsPower s (execTemplateEmit shop bank s) := by
  unfold execTemplateEmit; dsimp only; split <;> simp

@[simp] theorem startTile_sys (n c s) : (startTile n c s).sys = s.sys := by unfold startTile; dsimp only; (repeat' split) <;> simp

@[simp] theorem execCommandStart_keepsPower (shop engine s) : keepsPower s (execCommandStart shop engine s) := by
  unfold execCommandStart; dsimp only; (repeat' split) <;> simp

@[simp] theorem tileCommandDone_sys (n b t s) : (tileCommandDone n b t s).sys = s.sys := by unfold tileCommandDone; dsimp only; (repeat' split) <;> simp
@[simp] theorem ticketDone_sys (n l i s) : (ticketDone n l i s).sys = s.sys := by unfold ticketDone; dsimp only; (repeat' split) <;> simp

@[simp] theorem execCommandComplete_keepsPower (shop engine s) : keepsPower s (execCommandComplete shop engine s) := by
  unfold execCommandComplete; dsimp only; (repeat' split) <;> simp

@[simp] theorem execNop_keepsPower (shop engine s) : keepsPower s (execNop shop engine s) := rfl

@[simp] theorem fillWindow_sys (n l fuel s) : (fillWindow n l fuel s).sys = s.sys := by
  induction fuel generalizing s with
  | zero => rfl
  | succ fuel ih => unfold fillWindow; dsimp only; (repeat' split) <;> simp [ih]

@[simp] theorem admitList_sys (n s) : (admitList n s).sys = s.sys := by unfold admitList; dsimp only; (repeat' split) <;> simp
@[simp] theorem execTicketList_keepsPower (shop ctx addr s) : keepsPower s (execTicketList shop ctx addr s) := by unfold execTicketList; split <;> simp
@[simp] theorem execTicketIssue_keepsPower (shop s) : keepsPower s (execTicketIssue shop s) := by unfold execTicketIssue; dsimp only; split <;> simp
@[simp] theorem execCancelEntry_keepsPower (shop ctx s) : keepsPower s (execCancelEntry shop ctx s) := by simp [execCancelEntry]
@[simp] theorem execPreemption_keepsPower (shop s) : keepsPower s (execPreemption shop s) := by unfold execPreemption; dsimp only; (repeat' split) <;> simp

@[simp] theorem execResumeRecordWrite_keepsPower (shop bank s) : keepsPower s (execResumeRecordWrite shop bank s) := by
  unfold execResumeRecordWrite; dsimp only; split <;> simp

@[simp] theorem execResumeGo_keepsPower (shop ctx addr s) : keepsPower s (execResumeGo shop ctx addr s) := by unfold execResumeGo; split <;> simp
@[simp] theorem watchShop_sys (now n s) : (watchShop now n s).sys = s.sys := by simp [watchShop]
@[simp] theorem execWatchdog_keepsPower (shop s) : keepsPower s (execWatchdog shop s) := by simp [execWatchdog]

/-! ### Shared operations of the engines -/

@[simp] theorem roomWrite_sys (n off l s) : (roomWrite n off l s).sys = s.sys := by simp [roomWrite]
@[simp] theorem sourceBytes_sys (s r A len) : (sourceBytes s r A len).2.sys = s.sys := by unfold sourceBytes; dsimp only; (repeat' split) <;> simp
@[simp] theorem fmtEvents_sys (n k s) : (fmtEvents n k s).sys = s.sys := by simp [fmtEvents]
@[simp] theorem writeKvRow_sys (o l h p kvSel row s) : (writeKvRow o l h p kvSel row s).sys = s.sys := by unfold writeKvRow; split <;> simp

@[simp] theorem placeKvRow_sys (o l h p kvSel row ten ctx iss s) : (placeKvRow o l h p kvSel row ten ctx iss s).sys = s.sys := by
  unfold placeKvRow; split <;> simp

/-! ### The matrix array -/

@[simp] theorem loadRow_sys (n r b s) : (loadRow n r b s).sys = s.sys := rfl

@[simp] theorem execWeightRowWrite_keepsPower (shop row slot s) : keepsPower s (execWeightRowWrite shop row slot s) := by
  unfold execWeightRowWrite; split <;> simp

@[simp] theorem passRun_sys (shop idle feed drain long r s) : (passRun shop idle feed drain long r s).sys = s.sys := by
  unfold passRun; dsimp only; split <;> simp

@[simp] theorem execPass_keepsPower (shop idle feed drain long s) : keepsPower s (execPass shop idle feed drain long s) := by unfold execPass; split <;> simp

@[simp] theorem drainVector_sys (shop p s) : (drainVector shop p s).sys = s.sys := by
  unfold drainVector; dsimp only; (repeat' split) <;> simp

@[simp] theorem execPassDrain_keepsPower (shop flagged row col parity multi s) : keepsPower s (execPassDrain shop flagged row col parity multi s) := by
  unfold execPassDrain; split <;> simp

@[simp] theorem execArrayReplay_keepsPower (shop again s) : keepsPower s (execArrayReplay shop again s) := by
  unfold execArrayReplay; dsimp only; (repeat' split) <;> simp

/-! ### Shared operations of the bench cores -/

@[simp] theorem startInstance_sys (k li inst l s) : (startInstance k li inst l s).sys = s.sys := rfl
@[simp] theorem takeInstance_sys (k s) : (takeInstance k s).sys = s.sys := by unfold takeInstance; dsimp only; (repeat' split) <;> simp
@[simp] theorem dispatchAll_sys (n groups s) : (dispatchAll n groups s).sys = s.sys := by simp [dispatchAll]
@[simp] theorem benchFaultAt_sys (n code bench pc c s) : (benchFaultAt n code bench pc c s).sys = s.sys := by simp [benchFaultAt]
@[simp] theorem benchFault_sys (k code s) : (benchFault k code s).sys = s.sys := by unfold benchFault; split <;> simp

theorem issue_sys {shop bench legal ss vs eff s} (h : ∀ k b t, sysKept s t → sysKept s (eff k b t)) :
    (issue shop bench legal ss vs eff s).sys = s.sys := by
  unfold issue; dsimp only; (repeat' split)
  case isFalse.isFalse.isFalse.isFalse => exact h _ _ _ (by simp)
  all_goals simp

@[simp] theorem issueReg_sys (shop bench legal ss vs f s) : (issueReg shop bench legal ss vs f s).sys = s.sys :=
  issue_sys fun k b t ht => by simpa using ht

@[simp] theorem addOut_sys (k kind dest data poison arrived s) : (addOut k kind dest data poison arrived s).sys = s.sys := rfl
@[simp] theorem settleOut_sys (k s) : (settleOut k s).sys = s.sys := by simp [settleOut]
@[simp] theorem outDone_sys (k id s) : (outDone k id s).sys = s.sys := by simp [outDone]
@[simp] theorem atomicAt_sys (addr op b d s) : (atomicAt addr op b d s).2.sys = s.sys := by unfold atomicAt; split <;> simp

/-! ### The bench group engine -/

@[simp] theorem kloadRun_sys (shop r s) : (kloadRun shop r s).sys = s.sys := by simp [kloadRun]
@[simp] theorem execKload_keepsPower (shop s) : keepsPower s (execKload shop s) := by unfold execKload; split <;> simp
@[simp] theorem launchRun_sys (shop r s) : (launchRun shop r s).sys = s.sys := by simp [launchRun]
@[simp] theorem execLaunch_keepsPower (shop s) : keepsPower s (execLaunch shop s) := by unfold execLaunch; split <;> simp
@[simp] theorem dropLaunch_sys (n i s) : (dropLaunch n i s).sys = s.sys := rfl

@[simp] theorem execLaunchComplete_keepsPower (shop s) : keepsPower s (execLaunchComplete shop s) := by
  unfold execLaunchComplete; dsimp only; (repeat' split) <;> simp

@[simp] theorem rerunLaunch_sys (n i l s) : (rerunLaunch n i l s).sys = s.sys := by simp [rerunLaunch]
@[simp] theorem retireBench_sys (k s) : (retireBench k s).sys = s.sys := by simp [retireBench]
@[simp] theorem benchUe_sys (shop bench place slot s) : (benchUe shop bench place slot s).sys = s.sys := by unfold benchUe; dsimp only; (repeat' split) <;> simp

@[simp] theorem execBenchUncorrectableError_keepsPower (shop bench place slot s) : keepsPower s (execBenchUncorrectableError shop bench place slot s) := by
  simp [execBenchUncorrectableError]

@[simp] theorem benchResetStart_sys (k s) : (benchResetStart k s).sys = s.sys := rfl
@[simp] theorem askBenchReset_sys (shop value s) : (askBenchReset shop value s).sys = s.sys := by simp [askBenchReset]
@[simp] theorem execShopBenchReset_keepsPower (shop value s) : keepsPower s (execShopBenchReset shop value s) := by simp [execShopBenchReset]
@[simp] theorem execBenchResetStart_keepsPower (shop bench s) : keepsPower s (execBenchResetStart shop bench s) := by simp [execBenchResetStart]
@[simp] theorem execBenchResetDone_keepsPower (shop bench s) : keepsPower s (execBenchResetDone shop bench s) := by simp [execBenchResetDone]
@[simp] theorem takeFirmware_sys (shop s) : (takeFirmware shop s).sys = s.sys := by unfold takeFirmware; split <;> simp
@[simp] theorem execBenchFwTake_keepsPower (shop s) : keepsPower s (execBenchFwTake shop s) := by simp [execBenchFwTake]

/-! ### Shared operations of the fullers -/

@[simp] theorem haltFuller_sys (n i s) : (haltFuller n i s).sys = s.sys := rfl
@[simp] theorem advance_sys (n i s) : (advance n i s).sys = s.sys := by simp [advance]
@[simp] theorem stopInvocation_sys (n s) : (stopInvocation n s).sys = s.sys := by unfold stopInvocation; split <;> simp
@[simp] theorem stackFaultRec_sys (n code sub ctx slot i s) : (stackFaultRec n code sub ctx slot i s).sys = s.sys := rfl
@[simp] theorem invFault_sys (n i code sub s) : (invFault n i code sub s).sys = s.sys := by unfold invFault; split <;> simp
@[simp] theorem releaseBarrier_sys (n words s) : (releaseBarrier n words s).sys = s.sys := by simp [releaseBarrier]
@[simp] theorem barrierCheck_sys (n s) : (barrierCheck n s).sys = s.sys := by unfold barrierCheck; dsimp only; (repeat' split) <;> simp

@[simp] theorem microStep_sys {body} (h : ∀ r w t, sysKept t (body r w t)) (n i op s) : (microStep n i op body s).sys = s.sys := by
  unfold microStep; (repeat' split)
  case h_1.isTrue => exact h ..
  all_goals rfl

theorem fulWrite_sys {n r A f v s t} (h : fulWrite n r A f v s = some t) : t.sys = s.sys := by
  unfold fulWrite at h; dsimp only at h; (repeat' split at h) <;> cases h <;> simp

@[simp] theorem gatherPut_sys (r fmt v e code s) : (gatherPut r fmt v e code s).sys = s.sys := by simp [gatherPut]

@[simp] theorem putOutput_sys (n r m vals s) : (putOutput n r m vals s).1.sys = s.sys := by
  unfold putOutput; dsimp only; split
  · refine foldl_fst_sys (fun a p => ?_) ..
    (repeat' split) <;> simp
    next h => exact fulWrite_sys h
  · (repeat' split) <;> simp
  · refine foldl_fst_sys (fun a p => ?_) ..
    (repeat' split) <;> simp

/-! ### Invocations and micro-instructions -/

@[simp] theorem recordFault_sys (n code ctx slot s) : (recordFault n code ctx slot s).sys = s.sys := by simp [recordFault]
@[simp] theorem placeInvocation_sys (c s) : (placeInvocation c s).sys = s.sys := by unfold placeInvocation; split <;> simp
@[simp] theorem clearFullers_sys (n keepAct s) : (clearFullers n keepAct s).sys = s.sys := rfl

@[simp] theorem execInvocationStart_keepsPower (seq s) : keepsPower s (execInvocationStart seq s) := by
  unfold execInvocationStart; dsimp only; (repeat' split) <;> simp

@[simp] theorem endInvocation_sys (r completed s) : (endInvocation r completed s).sys = s.sys := by simp [endInvocation]

@[simp] theorem execInvocationComplete_keepsPower (stack s) : keepsPower s (execInvocationComplete stack s) := by
  unfold execInvocationComplete; dsimp only; (repeat' split) <;> simp

@[simp] theorem execMicroNop_keepsPower (stack fuller s) : keepsPower s (execMicroNop stack fuller s) := by simp [execMicroNop]
@[simp] theorem execSetp_keepsPower (stack fuller s) : keepsPower s (execSetp stack fuller s) := by simp [execSetp]
@[simp] theorem vopRun_sys (n i r w s) : (vopRun n i r w s).sys = s.sys := by simp [vopRun]
@[simp] theorem execVop_keepsPower (stack fuller s) : keepsPower s (execVop stack fuller s) := by simp [execVop]
@[simp] theorem vsumRun_sys (n i _r w s) : (vsumRun n i _r w s).sys = s.sys := by simp [vsumRun]
@[simp] theorem execVsum_keepsPower (stack fuller s) : keepsPower s (execVsum stack fuller s) := by simp [execVsum]

@[simp] theorem aloadRun_sys (n i r w s) : (aloadRun n i r w s).sys = s.sys := by
  unfold aloadRun; extract_lets; (repeat' split)
  case isFalse.isFalse.isTrue => exact foldl_sys (fun s v => by split <;> simp) ..
  all_goals simp +zetaDelta

@[simp] theorem execAload_keepsPower (stack fuller s) : keepsPower s (execAload stack fuller s) := by simp [execAload]
@[simp] theorem streamCounts_sys (n i rows s) : (streamCounts n i rows s).sys = s.sys := by unfold streamCounts; dsimp only; (repeat' split) <;> simp
@[simp] theorem streamRun_sys (n i r w s) : (streamRun n i r w s).sys = s.sys := by unfold streamRun; split <;> simp
@[simp] theorem execStream_keepsPower (stack fuller s) : keepsPower s (execStream stack fuller s) := by simp [execStream]
@[simp] theorem kvreadRun_sys (n i r w s) : (kvreadRun n i r w s).sys = s.sys := by unfold kvreadRun; dsimp only; (repeat' split) <;> simp
@[simp] theorem execKvread_keepsPower (stack fuller s) : keepsPower s (execKvread stack fuller s) := by simp [execKvread]
@[simp] theorem execCombine_keepsPower (stack fuller s) : keepsPower s (execCombine stack fuller s) := by simp [execCombine]
@[simp] theorem execSync_keepsPower (stack fuller s) : keepsPower s (execSync stack fuller s) := by simp [execSync]
@[simp] theorem execMicroLoop_keepsPower (stack fuller s) : keepsPower s (execMicroLoop stack fuller s) := by simp [execMicroLoop]

@[simp] theorem attendDeliver_sys (n r s) : (attendDeliver n r s).1.sys = s.sys := by
  unfold attendDeliver; dsimp only; (repeat' split)
  case h_2.isFalse.isTrue => exact foldl_fst_sys (fun a p => by (repeat' split) <;> simp) ..
  all_goals simp

@[simp] theorem execMicroHalt_keepsPower (stack fuller s) : keepsPower s (execMicroHalt stack fuller s) := by
  refine congrArg SysSt.powered (microStep_sys (fun r _ t => ?_) ..)
  have hdeliver := attendDeliver_sys stack r (haltFuller stack fuller t)
  dsimp only; (repeat' split) <;> simp_all

@[simp] theorem rstoreRun_sys (n i r w s) : (rstoreRun n i r w s).sys = s.sys := by
  unfold rstoreRun; dsimp only; (repeat' split) <;> simp [apply_ite Prod.fst]

@[simp] theorem execRstore_keepsPower (stack fuller s) : keepsPower s (execRstore stack fuller s) := by simp [execRstore]

@[simp] theorem execMergeResultWrite_keepsPower (stack s) : keepsPower s (execMergeResultWrite stack s) := by
  unfold execMergeResultWrite; split
  · dsimp only; split <;> rename_i hput <;> simpa using congrArg SysSt.powered ((congrArg (·.1.sys) hput).symm.trans (putOutput_sys ..))
  · rfl

@[simp] theorem mstoreRun_sys (n i r w s) : (mstoreRun n i r w s).sys = s.sys := by
  unfold mstoreRun; dsimp only; (repeat' split) <;> simp
  all_goals
    refine foldl_fst_sys (fun a p => ?_) ..
    (repeat' split) <;> simp
    next h => exact fulWrite_sys h

@[simp] theorem execMstore_keepsPower (stack fuller s) : keepsPower s (execMstore stack fuller s) := by simp [execMstore]
@[simp] theorem appendRun_sys (n i r w s) : (appendRun n i r w s).sys = s.sys := by unfold appendRun; dsimp only; (repeat' split) <;> simp
@[simp] theorem execAppend_keepsPower (stack fuller s) : keepsPower s (execAppend stack fuller s) := by simp [execAppend]
@[simp] theorem execInvocationStopRequest_keepsPower (stack s) : keepsPower s (execInvocationStopRequest stack s) := by simp [execInvocationStopRequest]
@[simp] theorem execInvocationStopped_keepsPower (stack s) : keepsPower s (execInvocationStopped stack s) := by unfold execInvocationStopped; split <;> simp
@[simp] theorem retireFuller_sys (n i s) : (retireFuller n i s).sys = s.sys := by simp [retireFuller]

@[simp] theorem execFullerUncorrectableError_keepsPower (stack fuller s) : keepsPower s (execFullerUncorrectableError stack fuller s) := by
  unfold execFullerUncorrectableError; dsimp only; (repeat' split) <;> simp

@[simp] theorem takeLibrary_sys (n v c imgs s) : (takeLibrary n v c imgs s).sys = s.sys := rfl
@[simp] theorem takePendingLib_sys (stack s) : (takePendingLib stack s).sys = s.sys := by unfold takePendingLib; split <;> simp
@[simp] theorem execFullerLibTake_keepsPower (stack s) : keepsPower s (execFullerLibTake stack s) := by simp [execFullerLibTake]

/-! ### Shared operations of the order book -/

@[simp] theorem endContext_sys (c s) : (endContext c s).sys = s.sys := by
  unfold endContext; dsimp only; rw [dropColls_sys]; simp

@[simp] theorem ordEvent_sys (o kind code aux q6 s) : (ordEvent o kind code aux q6 s).sys = s.sys := by simp [ordEvent]
@[simp] theorem refuseCmd_sys (ring tag op order cause s) : (refuseCmd ring tag op order cause s).sys = s.sys := by simp [refuseCmd]
@[simp] theorem acceptCmd_sys (ring tag op cpl order s) : (acceptCmd ring tag op cpl order s).sys = s.sys := by simp [acceptCmd]
@[simp] theorem setFrames_sys (o s) : (setFrames o s).sys = s.sys := by simp [setFrames]

@[simp] theorem allocState_sys (n g avoid use tenant model order s) : (allocState n g avoid use tenant model order s).sys = s.sys := by
  unfold allocState; split <;> simp

@[simp] theorem abortMigration_sys (cause g s) : (abortMigration cause g s).sys = s.sys := by unfold abortMigration; split <;> simp
@[simp] theorem freeGranule_sys (g s) : (freeGranule g s).sys = s.sys := by unfold freeGranule; dsimp only; split <;> simp
@[simp] theorem copyFrame_sys (src dst s) : (copyFrame src dst s).sys = s.sys := by simp [copyFrame]
@[simp] theorem releaseNode_sys (k s) : (releaseNode k s).sys = s.sys := by unfold releaseNode; split <;> simp

@[simp] theorem releaseFor_sys (k n need s) : (releaseFor k n need s).sys = s.sys := by
  induction k generalizing s with
  | zero => rfl
  | succ k ih => unfold releaseFor; (repeat' split) <;> simp [ih]

@[simp] theorem allocPage_sys (o kv x s) : (allocPage o kv x s).sys = s.sys := by simp [allocPage]
@[simp] theorem allocBlock_sys (o b s) : (allocBlock o b s).sys = s.sys := by simp [allocBlock]

@[simp] theorem fitStacks_sys (need s) : (fitStacks need s).1.sys = s.sys :=
  foldl_fst_sys (fun a n => by dsimp only; (repeat' split) <;> simp) ..

@[simp] theorem reserveKv_sys (o t0 e s) : (reserveKv o t0 e s).1.sys = s.sys := by
  unfold reserveKv; dsimp only; (repeat' split) <;> simp
  all_goals next heq => exact (congrArg (·.1.sys) heq).symm.trans (fitStacks_sys ..)

@[simp] theorem freePage_sys (o i s) : (freePage o i s).sys = s.sys := by simp [freePage]
@[simp] theorem freeBlock_sys (o b s) : (freeBlock o b s).sys = s.sys := by simp [freeBlock]
@[simp] theorem freeOrderFrames_sys (o s) : (freeOrderFrames o s).sys = s.sys := by simp [freeOrderFrames]
@[simp] theorem dropNode_sys (k s) : (dropNode k s).sys = s.sys := by unfold dropNode; split <;> simp
@[simp] theorem unbusy_sys (ns s) : (unbusy ns s).sys = s.sys := by simp [unbusy]

@[simp] theorem dropCopy_sys (o s) : (dropCopy o s).sys = s.sys := by
  unfold dropCopy; split
  · rfl
  · dsimp only; split
    · exact (foldl_sys (fun s k => by split <;> simp) ..).trans (unbusy_sys ..)
    · simp

@[simp] theorem nextStep_sys (o s) : (nextStep o s).sys = s.sys := rfl
@[simp] theorem reportTokens_sys (o s) : (reportTokens o s).sys = s.sys := by simp [reportTokens]
@[simp] theorem genDone_sys (o state reason s) : (genDone o state reason s).sys = s.sys := by simp [genDone]
@[simp] theorem dropCands_sys (o s) : (dropCands o s).sys = s.sys := rfl
@[simp] theorem stepRefused_sys (o cause stack s) : (stepRefused o cause stack s).sys = s.sys := by unfold stepRefused; split <;> simp
@[simp] theorem releaseOrder_sys (o s) : (releaseOrder o s).sys = s.sys := by unfold releaseOrder; dsimp only; split <;> simp
@[simp] theorem faultOrder_sys (o cause code sub s) : (faultOrder o cause code sub s).sys = s.sys := by simp [faultOrder]
@[simp] theorem closeOrder_sys (o s) : (closeOrder o s).sys = s.sys := by simp [closeOrder]
@[simp] theorem freeOrder_sys (o s) : (freeOrder o s).sys = s.sys := rfl

@[simp] theorem addCopy_sys (idx addr tenant lc device order ring tag gang bytes energy job s) :
    (addCopy idx addr tenant lc device order ring tag gang bytes energy job s).sys = s.sys := rfl

@[simp] theorem enterOrderCopy_sys (o s) : (enterOrderCopy o s).sys = s.sys := by unfold enterOrderCopy; dsimp only; split <;> simp

/-! ### Order commands -/

@[simp] theorem guardRing_powered {f} (h : ∀ t, powerKept t (f t)) (ring op tag s) :
    (guardRing ring op tag f s).sys.powered = s.sys.powered := by
  unfold guardRing; split <;> simp [powerKept_iff.1 (h s)]

@[simp] theorem forwardEntry_sys (ring words s) : (forwardEntry ring words s).sys = s.sys := by simp [forwardEntry]
@[simp] theorem openRead_sys (ring a s) : (openRead ring a s).sys = s.sys := by simp [openRead]
@[simp] theorem applyOpen_sys (ring tag cpl a s) : (applyOpen ring tag cpl a s).sys = s.sys := by unfold applyOpen; split <;> simp

@[simp] theorem withOrder_sys {effect} (h : ∀ t, sysKept t (effect t)) (ring tag op cpl o gen states inRange s) :
    (withOrder ring tag op cpl o gen states inRange effect s).sys = s.sys := by
  simp [withOrder, sysKept_iff.1 (h s)]

@[simp] theorem startAttach_sys (o nodes s) : (startAttach o nodes s).sys = s.sys := rfl
@[simp] theorem feedNow_sys (o f s) : (feedNow o f s).sys = s.sys := by simp [feedNow]
@[simp] theorem holdFeed_sys (o f s) : (holdFeed o f s).sys = s.sys := by simp [holdFeed]
@[simp] theorem abortCellar_sys (o tag s) : (abortCellar o tag s).sys = s.sys := by simp [abortCellar]

@[simp] theorem applyFeed_sys (ring tag cpl o gen list count maxNew isMatch scan s) :
    (applyFeed ring tag cpl o gen list count maxNew isMatch scan s).sys = s.sys := by simp [applyFeed]

@[simp] theorem applyStop_sys (ring tag cpl o gen s) : (applyStop ring tag cpl o gen s).sys = s.sys := by simp [applyStop]
@[simp] theorem applyTruncate_sys (ring tag cpl o gen len s) : (applyTruncate ring tag cpl o gen len s).sys = s.sys := by simp [applyTruncate]
@[simp] theorem applyCellar_sys (ring tag cpl o gen s) : (applyCellar ring tag cpl o gen s).sys = s.sys := by simp [applyCellar]
@[simp] theorem applyRecall_sys (ring tag cpl o gen s) : (applyRecall ring tag cpl o gen s).sys = s.sys := by simp [applyRecall]
@[simp] theorem applySetTtl_sys (ring tag cpl o gen secs scan s) : (applySetTtl ring tag cpl o gen secs scan s).sys = s.sys := by simp [applySetTtl]
@[simp] theorem allocNodePages_sys (o node kv s) : (allocNodePages o node kv s).1.sys = s.sys := by unfold allocNodePages; dsimp only; split <;> simp

@[simp] theorem storeWalk_sys (o kv k parent toks stored made s) : (storeWalk o kv k parent toks stored made s).2.2.sys = s.sys := by
  induction k generalizing parent toks stored made s with
  | zero => rfl
  | succ k ih =>
    unfold storeWalk; dsimp only; (repeat' split) <;> simp [ih]
    next heq => exact (congrArg (·.1.sys) heq).symm.trans (allocNodePages_sys ..)

@[simp] theorem applyStorePrefix_sys (ring tag cpl o gen list k s) : (applyStorePrefix ring tag cpl o gen list k s).sys = s.sys := by
  unfold applyStorePrefix; dsimp only
  rw [withOrder_sys (fun t => by split <;> simp)]; simp

@[simp] theorem dropPrefixes_sys (tenant model s) : (dropPrefixes tenant model s).sys = s.sys :=
  foldl_sys (fun s p => by dsimp only; (repeat' split) <;> simp) ..

@[simp] theorem applyDropPrefixes_sys (ring tag cpl model s) : (applyDropPrefixes ring tag cpl model s).sys = s.sys := by simp [applyDropPrefixes]
@[simp] theorem applyQuery_sys (ring tag cpl o gen s) : (applyQuery ring tag cpl o gen s).sys = s.sys := by simp [applyQuery]
@[simp] theorem applyClose_sys (ring tag cpl o gen s) : (applyClose ring tag cpl o gen s).sys = s.sys := by simp [applyClose]
@[simp] theorem applyForceClose_sys (tag o s) : (applyForceClose tag o s).sys = s.sys := by simp [applyForceClose]
@[simp] theorem countUnits_sys (base book units s) : (countUnits base book units s).sys = s.sys := by simp [countUnits]
@[simp] theorem refuseRecall_sys (o s) : (refuseRecall o s).sys = s.sys := by unfold refuseRecall; dsimp only; (repeat' split) <;> simp
@[simp] theorem writeWhole_sys (k bytes poison s) : (writeWhole k bytes poison s).sys = s.sys := by simp [writeWhole]

@[simp] theorem restoreFrames_sys (o s) : (restoreFrames o s).sys = s.sys :=
  foldl_sys (fun s f => by split <;> simp) ..

@[simp] theorem attachFrames_sys (o nodes kv s) : (attachFrames o nodes kv s).sys = s.sys := by simp [attachFrames]
@[simp] theorem prefixFrames_sys (o nodes first kv s) : (prefixFrames o nodes first kv s).sys = s.sys := by simp [prefixFrames]
@[simp] theorem expireOrder_sys (o s) : (expireOrder o s).sys = s.sys := by simp [expireOrder]
@[simp] theorem idleCandidate_sys (o s) : (idleCandidate o s).sys = s.sys := by simp [idleCandidate]
@[simp] theorem missDeadline_sys (o s) : (missDeadline o s).sys = s.sys := by unfold missDeadline; dsimp only; split <;> simp

/-! ### The rows of the order book -/

@[simp] theorem execKvApertureRead_keepsPower (shop ctx off len s) : keepsPower s (execKvApertureRead shop ctx off len s) := by
  unfold execKvApertureRead; dsimp only; split <;> simp

@[simp] theorem execOpenOrder_keepsPower (ring tag cpl lc noCellar grammarEn model grammar evmask deadline ttl cellarAfter params s) :
    keepsPower s (execOpenOrder ring tag cpl lc noCellar grammarEn model grammar evmask deadline ttl cellarAfter params s) := by simp [execOpenOrder]

@[simp] theorem execFeed_keepsPower (ring tag cpl order gen list count maxNew isMatch scan s) :
    keepsPower s (execFeed ring tag cpl order gen list count maxNew isMatch scan s) := by simp [execFeed]

@[simp] theorem execStop_keepsPower (ring tag cpl order gen s) : keepsPower s (execStop ring tag cpl order gen s) := by simp [execStop]

@[simp] theorem execTruncate_keepsPower (ring tag cpl order gen length s) : keepsPower s (execTruncate ring tag cpl order gen length s) := by
  simp [execTruncate]

@[simp] theorem execCellar_keepsPower (ring tag cpl order gen s) : keepsPower s (execCellar ring tag cpl order gen s) := by simp [execCellar]
@[simp] theorem execRecall_keepsPower (ring tag cpl order gen s) : keepsPower s (execRecall ring tag cpl order gen s) := by simp [execRecall]

@[simp] theorem execSetTtl_keepsPower (ring tag cpl order gen seconds scan s) : keepsPower s (execSetTtl ring tag cpl order gen seconds scan s) := by
  simp [execSetTtl]

@[simp] theorem execStorePrefix_keepsPower (ring tag cpl order gen list pages s) : keepsPower s (execStorePrefix ring tag cpl order gen list pages s) := by
  simp [execStorePrefix]

@[simp] theorem execDropPrefixes_keepsPower (ring tag cpl model s) : keepsPower s (execDropPrefixes ring tag cpl model s) := by simp [execDropPrefixes]
@[simp] theorem execQuery_keepsPower (ring tag cpl order gen s) : keepsPower s (execQuery ring tag cpl order gen s) := by simp [execQuery]
@[simp] theorem execClose_keepsPower (ring tag cpl order gen s) : keepsPower s (execClose ring tag cpl order gen s) := by simp [execClose]
@[simp] theorem execForceClose_keepsPower (tag order s) : keepsPower s (execForceClose tag order s) := by simp [execForceClose]
@[simp] theorem copyDone_sys (order s) : (copyDone order s).sys = s.sys := rfl
@[simp] theorem execCellaringCopyDone_keepsPower (order s) : keepsPower s (execCellaringCopyDone order s) := by unfold execCellaringCopyDone; split <;> simp
@[simp] theorem execCellarWriteError_keepsPower (order s) : keepsPower s (execCellarWriteError order s) := by unfold execCellarWriteError; split <;> simp
@[simp] theorem execRecallCopyDone_keepsPower (order s) : keepsPower s (execRecallCopyDone order s) := by unfold execRecallCopyDone; split <;> simp

@[simp] theorem execCellarUnitRead_keepsPower (order unit failure s) : keepsPower s (execCellarUnitRead order unit failure s) := by
  unfold execCellarUnitRead; dsimp only; (repeat' split) <;> simp

@[simp] theorem execRecallWaitExpiry_keepsPower (order s) : keepsPower s (execRecallWaitExpiry order s) := by simp [execRecallWaitExpiry]
@[simp] theorem execTtlExpiry_keepsPower (order s) : keepsPower s (execTtlExpiry order s) := by simp [execTtlExpiry]
@[simp] theorem execCellarAfterExpiry_keepsPower (order s) : keepsPower s (execCellarAfterExpiry order s) := by simp [execCellarAfterExpiry]
@[simp] theorem execDeadlineMiss_keepsPower (order s) : keepsPower s (execDeadlineMiss order s) := by simp [execDeadlineMiss]
@[simp] theorem execAttachCopyDone_keepsPower (order s) : keepsPower s (execAttachCopyDone order s) := by unfold execAttachCopyDone; (repeat' split) <;> simp

@[simp] theorem execPrefixStoreCopyDone_keepsPower (order s) : keepsPower s (execPrefixStoreCopyDone order s) := by
  unfold execPrefixStoreCopyDone; (repeat' split) <;> simp

/-! ### The selection pipeline -/

@[simp] theorem releaseRow_sys (q o s) : (releaseRow q o s).sys = s.sys := rfl
@[simp] theorem takeToken_sys (o tok s) : (takeToken o tok s).sys = s.sys := by simp [takeToken]
@[simp] theorem selectOrder_sys (q o mask s) : (selectOrder q o mask s).sys = s.sys := by unfold selectOrder; split <;> simp
@[simp] theorem buildMask_sys (q s) : (buildMask q s).sys = s.sys := by unfold buildMask; split <;> simp

@[simp] theorem execLogitDelivery_keepsPower (order values poison s) : keepsPower s (execLogitDelivery order values poison s) := by
  unfold execLogitDelivery; split <;> simp

@[simp] theorem execHeldDeliveryAccept_keepsPower (selector s) : keepsPower s (execHeldDeliveryAccept selector s) := by
  unfold execHeldDeliveryAccept; dsimp only; (repeat' split) <;> simp

@[simp] theorem execSelection_keepsPower (selector waited s) : keepsPower s (execSelection selector waited s) := by
  unfold execSelection; dsimp only; (repeat' split) <;> simp

@[simp] theorem execMaskBuild_keepsPower (selector s) : keepsPower s (execMaskBuild selector s) := by simp [execMaskBuild]
@[simp] theorem endSelections_sys (q s) : (endSelections q s).sys = s.sys := rfl
@[simp] theorem execSelectorFail_keepsPower (selector s) : keepsPower s (execSelectorFail selector s) := by unfold execSelectorFail; split <;> simp

/-! ### Temperatures and the flash window -/

@[simp] theorem thermEvent_sys (kind u more s) : (thermEvent kind u more s).sys = s.sys := by simp [thermEvent]
@[simp] theorem moveWarn_sys (u s) : (moveWarn u s).sys = s.sys := by simp [moveWarn]
@[simp] theorem moveSlow_sys (u s) : (moveSlow u s).sys = s.sys := by simp [moveSlow]
@[simp] theorem moveLevels_sys (u s) : (moveLevels u s).sys = s.sys := by simp [moveLevels]
@[simp] theorem stackTemp_sys (u s) : (stackTemp u s).sys = s.sys := by simp [stackTemp]
@[simp] theorem afterSample_sys (c s) : (afterSample c s).sys = s.sys := by simp [afterSample]
@[simp] theorem sampleChan_sys (c reading s) : (sampleChan c reading s).sys = s.sys := by simp [sampleChan]
@[simp] theorem failChan_sys (c kind s) : (failChan c kind s).sys = s.sys := by simp [failChan]
@[simp] theorem increase_sys (u s) : (increase u s).sys = s.sys := by simp [increase]
@[simp] theorem graceEnds_sys (u s) : (graceEnds u s).sys = s.sys := by unfold graceEnds; split <;> simp
@[simp] theorem flushHeld_sys (s) : (flushHeld s).sys = s.sys := by simp [flushHeld]
@[simp] theorem flashSample_sys (reading s) : (flashSample reading s).sys = s.sys := by simp [flashSample]
@[simp] theorem execThermalSample_keepsPower (channel reading time s) : keepsPower s (execThermalSample channel reading time s) := by simp [execThermalSample]
@[simp] theorem execGraceExpiry_keepsPower (unit s) : keepsPower s (execGraceExpiry unit s) := by simp [execGraceExpiry]
@[simp] theorem execSensorFail_keepsPower (channel wire time s) : keepsPower s (execSensorFail channel wire time s) := by simp [execSensorFail]
@[simp] theorem execFlashTempSample_keepsPower (reading s) : keepsPower s (execFlashTempSample reading s) := by simp [execFlashTempSample]

/-! ### The floorwalker -/

@[simp] theorem abortWhere_sys (cause p s) : (abortWhere cause p s).sys = s.sys := by simp [abortWhere]
@[simp] theorem abortOrderMig_sys (cause o s) : (abortOrderMig cause o s).sys = s.sys := by simp [abortOrderMig]

@[simp] theorem execMigrationCopyDone_keepsPower (granule s) : keepsPower s (execMigrationCopyDone granule s) := by
  unfold execMigrationCopyDone; dsimp only; (repeat' split) <;> simp

/-! ### The scheduler -/

@[simp] theorem enterItems_sys (ws tenant lc order ring tag model job s) : (enterItems ws tenant lc order ring tag model job s).sys = s.sys := by
  simp [enterItems]

@[simp] theorem admitOrder_sys (tag o s) : (admitOrder tag o s).1.sys = s.sys := by
  unfold admitOrder; dsimp only; (repeat' split) <;> simp
  all_goals next heq => exact (congrArg (·.1.sys) heq).symm.trans (reserveKv_sys ..)

@[simp] theorem takeContext_sys (c atBoundary s) : (takeContext c atBoundary s).1.sys = s.sys := by unfold takeContext; dsimp only; (repeat' split) <;> simp
@[simp] theorem accountTile_sys (c charge uses s) : (accountTile c charge uses s).sys = s.sys := by simp [accountTile]
@[simp] theorem fillUnit_sys (kind n till s) : (fillUnit kind n till s).sys = s.sys := by simp [fillUnit]
@[simp] theorem admitShopTile_sys (lim c s) : (admitShopTile lim c s).s.sys = s.sys := by unfold admitShopTile; dsimp only; (repeat' split) <;> simp
@[simp] theorem admitInvocation_sys (lim c s) : (admitInvocation lim c s).s.sys = s.sys := by unfold admitInvocation; dsimp only; (repeat' split) <;> simp
@[simp] theorem placeCollective_sys (c s) : (placeCollective c s).sys = s.sys := by unfold placeCollective; split <;> simp
@[simp] theorem admitCollective_sys (lim c s) : (admitCollective lim c s).s.sys = s.sys := by unfold admitCollective; dsimp only; (repeat' split) <;> simp
@[simp] theorem admitCopy_sys (lim c s) : (admitCopy lim c s).s.sys = s.sys := by unfold admitCopy; dsimp only; (repeat' split) <;> simp

@[simp] theorem tryTile_sys (lim id atBoundary s) : (tryTile lim id atBoundary s).s.sys = s.sys := by
  unfold tryTile; split
  · rfl
  · next c _ =>
    have h := takeContext_sys c atBoundary s
    dsimp only; (repeat' split) <;> simp_all

@[simp] theorem admitCand_sys (k id b a) : (admitCand k id b a).1.sys = a.1.sys := by
  induction k generalizing a with
  | zero => rfl
  | succ k ih => unfold admitCand; dsimp only; split <;> simp [ih]

@[simp] theorem admitCands_sys (ids b a) : (admitCands ids b a).1.sys = a.1.sys := by simp [admitCands]

@[simp] theorem visitCands_sys (k p b ids a) : (visitCands k p b ids a).1.sys = a.1.sys := by
  induction k generalizing ids a with
  | zero => rfl
  | succ k ih => cases ids with
    | nil => rfl
    | cons id t => unfold visitCands; dsimp only; (repeat' split) <;> simp [ih]

@[simp] theorem visit_sys (p b a) : (visit p b a).1.sys = a.1.sys := by unfold visit; dsimp only; split <;> simp

@[simp] theorem rotations_sys (k b a) : (rotations k b a).1.sys = a.1.sys := by
  induction k generalizing a with
  | zero => rfl
  | succ k ih => unfold rotations; dsimp only; split <;> simp [ih]

@[simp] theorem bePass_sys (b a) : (bePass b a).1.sys = a.1.sys := by simp [bePass]
@[simp] theorem admitInBell_sys (s) : (admitInBell s).sys = s.sys := by simp [admitInBell]
@[simp] theorem applyPeriods_sys (s) : (applyPeriods s).sys = s.sys := rfl

/-! ### Shared operations of the host's commands -/

@[simp] theorem hostFail_sys (ring op tag s) : (hostFail ring op tag s).sys = s.sys := by simp [hostFail]

@[simp] theorem takeBulk_sys (g ks use pinned tenant model s) : (takeBulk g ks use pinned tenant model s).sys = s.sys :=
  foldl_sys (fun s p => by simp) ..

@[simp] theorem clearPage_sys (p s) : (clearPage p s).sys = s.sys := by simp [clearPage]
@[simp] theorem takePages_sys (ps owner s) : (takePages ps owner s).sys = s.sys := by simp [takePages]
@[simp] theorem freePages_sys (ps s) : (freePages ps s).sys = s.sys := by simp [freePages]
@[simp] theorem addXlate_sys (ten x s) : (addXlate ten x s).sys = s.sys := by unfold addXlate; split <;> simp
@[simp] theorem dropXlates_sys (t p s) : (dropXlates t p s).sys = s.sys := rfl

theorem placeParts_sys {model ten m s r} (h : placeParts model ten m s = some r) : r.1.sys = s.sys := by
  refine List.foldlRecOn (motive := fun a => ∀ r, a = some r → r.1.sys = s.sys) _ _ ?_ ?_ r h
  · rintro _ ⟨⟩; rfl
  · intro a ih p _ r hr
    dsimp only at hr; (repeat' split at hr) <;> cases hr <;> simpa using ih _ rfl

theorem placePages_sys {model ring m s r} (h : placePages model ring m s = some r) : r.1.sys = s.sys := by
  refine List.foldlRecOn (motive := fun a => ∀ r, a = some r → r.1.sys = s.sys) _ _ ?_ ?_ r h
  · rintro _ ⟨⟩; rfl
  · intro a ih p _ r hr
    (repeat' split at hr) <;> cases hr
    simpa using ih _ rfl

@[simp] theorem dropJob_sys (id s) : (dropJob id s).sys = s.sys := rfl
@[simp] theorem addJob_sys (j s) : (addJob j s).sys = s.sys := rfl
@[simp] theorem dropJobCands_sys (id s) : (dropJobCands id s).sys = s.sys := rfl
@[simp] theorem cancelRun_sys (j s) : (cancelRun j s).sys = s.sys := by unfold cancelRun; split <;> simp
@[simp] theorem freeModel_sys (h s) : (freeModel h s).sys = s.sys := by unfold freeModel; split <;> simp
@[simp] theorem startSet_sys (t s) : (startSet t s).sys = s.sys := rfl
@[simp] theorem stopSet_sys (t s) : (stopSet t s).sys = s.sys := rfl
@[simp] theorem zeroRange_sys (t s) : (zeroRange t s).sys = s.sys := rfl
@[simp] theorem zeroTenantCounters_sys (t s) : (zeroTenantCounters t s).sys = s.sys := rfl
@[simp] theorem enableTenant_powered (t s) : (enableTenant t s).sys.powered = s.sys.powered := by simp [enableTenant]
@[simp] theorem disableTenant_sys (t s) : (disableTenant t s).sys = s.sys := by simp [disableTenant]

/-! ### The rows of the host port -/

@[simp] theorem doModelLoad_sys (ring tag image len img s) : (doModelLoad ring tag image len img s).sys = s.sys := by
  unfold doModelLoad; dsimp only; (repeat' split) <;> simp
  next hparts _ _ _ hpages => rw [placePages_sys hpages, placeParts_sys hparts]; simp

@[simp] theorem execModelLoad_keepsPower (ring tag image len img s) : keepsPower s (execModelLoad ring tag image len img s) := by simp [execModelLoad]

@[simp] theorem writeModel_sys (h img m s) : (writeModel h img m s).sys = s.sys := by
  simp [writeModel]
  exact foldl_sys (fun s x => by split <;> simp) ..

@[simp] theorem execModelLoadDone_keepsPower (ring tag hostError s) : keepsPower s (execModelLoadDone ring tag hostError s) := by
  unfold execModelLoadDone; (repeat' split) <;> simp

@[simp] theorem doModelUnload_sys (ring tag model s) : (doModelUnload ring tag model s).sys = s.sys := by
  unfold doModelUnload; dsimp only; (repeat' split) <;> simp

@[simp] theorem execModelUnload_keepsPower (ring tag model s) : keepsPower s (execModelUnload ring tag model s) := by simp [execModelUnload]

@[simp] theorem doGrammarLoad_sys (ring tag image len s) : (doGrammarLoad ring tag image len s).sys = s.sys := by
  unfold doGrammarLoad; dsimp only; (repeat' split) <;> simp

@[simp] theorem execGrammarLoad_keepsPower (ring tag image len s) : keepsPower s (execGrammarLoad ring tag image len s) := by simp [execGrammarLoad]
@[simp] theorem doGrammarUnload_sys (ring tag g s) : (doGrammarUnload ring tag g s).sys = s.sys := by unfold doGrammarUnload; split <;> simp
@[simp] theorem execGrammarUnload_keepsPower (ring tag grammar s) : keepsPower s (execGrammarUnload ring tag grammar s) := by simp [execGrammarUnload]
@[simp] theorem mapPage_sys (t va size s) : (mapPage t va size s).1.sys = s.sys := by unfold mapPage; dsimp only; split <;> simp
@[simp] theorem doMap_sys (ring tag addr size page wh quarter s) : (doMap ring tag addr size page wh quarter s).sys = s.sys := by simp [doMap]
@[simp] theorem execMap_keepsPower (ring tag addr size page wh quarter s) : keepsPower s (execMap ring tag addr size page wh quarter s) := by simp [execMap]
@[simp] theorem doUnmap_sys (ring tag addr size s) : (doUnmap ring tag addr size s).sys = s.sys := by simp [doUnmap]
@[simp] theorem execUnmap_keepsPower (ring tag addr size s) : keepsPower s (execUnmap ring tag addr size s) := by simp [execUnmap]
@[simp] theorem doCopy_sys (ring tag lc src dst len sig s) : (doCopy ring tag lc src dst len sig s).sys = s.sys := by simp [doCopy]

@[simp] theorem execCopy_keepsPower (ring tag lc src dst len tally inc sigEn s) : keepsPower s (execCopy ring tag lc src dst len tally inc sigEn s) := by
  simp [execCopy]

@[simp] theorem copyBytes_sys (ten src dst len s) : (copyBytes ten src dst len s).1.sys = s.sys := by simp [copyBytes]
@[simp] theorem execCopyDone_keepsPower (ring tag s) : keepsPower s (execCopyDone ring tag s) := by unfold execCopyDone; dsimp only; (repeat' split) <;> simp
@[simp] theorem doSignal_sys (ring tag cpl tally inc s) : (doSignal ring tag cpl tally inc s).sys = s.sys := by simp [doSignal]
@[simp] theorem execSignal_keepsPower (ring tag cpl tally inc s) : keepsPower s (execSignal ring tag cpl tally inc s) := by simp [execSignal]

@[simp] theorem doRun_sys (ring tag lc model program args s) : (doRun ring tag lc model program args s).sys = s.sys := by
  unfold doRun; dsimp only; (repeat' split) <;> simp

@[simp] theorem execRun_keepsPower (ring tag lc model program args s) : keepsPower s (execRun ring tag lc model program args s) := by simp [execRun]
@[simp] theorem doCancel_sys (ring tag cpl runTag s) : (doCancel ring tag cpl runTag s).sys = s.sys := by unfold doCancel; split <;> simp
@[simp] theorem execCancel_keepsPower (ring tag cpl runTag s) : keepsPower s (execCancel ring tag cpl runTag s) := by simp [execCancel]
@[simp] theorem completeRun_sys (j s) : (completeRun j s).sys = s.sys := by unfold completeRun; split <;> simp
@[simp] theorem execRunComplete_keepsPower (ring tag s) : keepsPower s (execRunComplete ring tag s) := by unfold execRunComplete; split <;> simp
@[simp] theorem doTenantEnable_powered (tag t s) : (doTenantEnable tag t s).sys.powered = s.sys.powered := by simp [doTenantEnable]
@[simp] theorem execTenantEnable_keepsPower (ring tag tenant s) : keepsPower s (execTenantEnable ring tag tenant s) := by simp [execTenantEnable]
@[simp] theorem startDisable_sys (tag t after s) : (startDisable tag t after s).sys = s.sys := by simp [startDisable]
@[simp] theorem execTenantDisable_keepsPower (ring tag tenant s) : keepsPower s (execTenantDisable ring tag tenant s) := by simp [execTenantDisable]
@[simp] theorem doBenchFw_sys (tag image shop sigOk s) : (doBenchFw tag image shop sigOk s).sys = s.sys := by simp [doBenchFw]
@[simp] theorem execBenchFw_keepsPower (ring tag image shop sigOk s) : keepsPower s (execBenchFw ring tag image shop sigOk s) := by simp [execBenchFw]
@[simp] theorem doFullerLib_sys (tag image stack sigOk lib s) : (doFullerLib tag image stack sigOk lib s).sys = s.sys := by simp [doFullerLib]

@[simp] theorem execFullerLib_keepsPower (ring tag image stack sigOk version crc lib s) :
    keepsPower s (execFullerLib ring tag image stack sigOk version crc lib s) := by simp [execFullerLib]

@[simp] theorem applyEntry_powered (ins e s) : (applyEntry ins e s).sys.powered = s.sys.powered :=
  guardRing_powered (fun t => by (repeat' split) <;> simp) ..

@[simp] theorem takeEntry_powered (ins e s) : (takeEntry ins e s).sys.powered = s.sys.powered := by simp [takeEntry]
@[simp] theorem ringError_sys (set cause s) : (ringError set cause s).sys = s.sys := by simp [ringError]
@[simp] theorem scanEvents_sys (set blk s) : (scanEvents set blk s).sys = s.sys := by simp [scanEvents]

@[simp] theorem scanSubmissions_sys (set wasFresh blk room s) : (scanSubmissions set wasFresh blk room s).1.sys = s.sys := by
  unfold scanSubmissions
  extract_lets
  (repeat' split) <;> simp

@[simp] theorem notReady_sys (words s) : (notReady words s).sys = s.sys := by simp [notReady]
@[simp] theorem scan_powered (ins time s) : (scan ins time s).sys.powered = s.sys.powered := by unfold scan; dsimp only; (repeat' split) <;> simp
@[simp] theorem setDbBase_sys (value s) : (setDbBase value s).sys = s.sys := by simp [setDbBase]
@[simp] theorem execHqDbBase_keepsPower (value s) : keepsPower s (execHqDbBase value s) := by simp [execHqDbBase]
@[simp] theorem disableSome_sys (p s) : (disableSome p s).sys = s.sys := by simp [disableSome]
@[simp] theorem pfReset_powered (s) : (pfReset s).sys.powered = s.sys.powered := by simp [pfReset]
@[simp] theorem execPfFlr_keepsPower (s) : keepsPower s (execPfFlr s) := by simp [execPfFlr]
@[simp] theorem execPerstAssert_keepsPower (s) : keepsPower s (execPerstAssert s) := by simp [execPerstAssert]
@[simp] theorem execPerstRelease_keepsPower (time s) : keepsPower s (execPerstRelease time s) := rfl
@[simp] theorem execVfFlr_keepsPower (vf s) : keepsPower s (execVfFlr vf s) := by simp [execVfFlr]
@[simp] theorem execVfEnableClear_keepsPower (enable numVfs s) : keepsPower s (execVfEnableClear enable numVfs s) := by simp [execVfEnableClear]
@[simp] theorem execLinkDegraded_keepsPower (width speed s) : keepsPower s (execLinkDegraded width speed s) := by unfold execLinkDegraded; split <;> simp
@[simp] theorem farEvent_sys (p detail s) : (farEvent p detail s).sys = s.sys := by simp [farEvent]

@[simp] theorem execFarEnumerate_keepsPower (port supported width speed capacity s) :
    keepsPower s (execFarEnumerate port supported width speed capacity s) := by
  unfold execFarEnumerate; (repeat' split) <;> simp

@[simp] theorem execFarMediaReady_keepsPower (port s) : keepsPower s (execFarMediaReady port s) := by simp [execFarMediaReady]
@[simp] theorem farDown_sys (port state cause s) : (farDown port state cause s).sys = s.sys := by simp [farDown]
@[simp] theorem execFarPortDown_keepsPower (port cause s) : keepsPower s (execFarPortDown port cause s) := by simp [execFarPortDown]
@[simp] theorem execFarDeviceEvent_keepsPower (port types s) : keepsPower s (execFarDeviceEvent port types s) := by simp [execFarDeviceEvent]
@[simp] theorem execFarPrsntN_keepsPower (port high s) : keepsPower s (execFarPrsntN port high s) := by unfold execFarPrsntN; split <;> simp

/-! ### Shared operations of the Balis rows -/

@[simp] theorem memberLost_sys (dev s) : (memberLost dev s).sys = s.sys := rfl
@[simp] theorem routesChanged_sys (s) : (routesChanged s).sys = s.sys := by simp [routesChanged]
@[simp] theorem portDown_sys (n cause state s) : (portDown n cause state s).sys = s.sys := by simp [portDown]
@[simp] theorem answerTo_sys (p typ arg data s) : (answerTo p typ arg data s).sys = s.sys := by unfold answerTo; dsimp only; split <;> simp
@[simp] theorem answerBusy_sys (p hint s) : (answerBusy p hint s).sys = s.sys := by simp [answerBusy]
@[simp] theorem remoteStore_sys (ten p s) : (remoteStore ten p s).sys = s.sys := by simp [remoteStore]
@[simp] theorem remoteKvRow_sys (p s) : (remoteKvRow p s).1.sys = s.sys := by unfold remoteKvRow; dsimp only; (repeat' split) <;> simp
@[simp] theorem remoteLogits_sys (p s) : (remoteLogits p s).1.sys = s.sys := by unfold remoteLogits; dsimp only; split <;> simp
@[simp] theorem answerRefused_sys (p cause s) : (answerRefused p cause s).sys = s.sys := by simp [answerRefused]
@[simp] theorem serveRead_sys (p s) : (serveRead p s).sys = s.sys := by simp [serveRead]

@[simp] theorem serveWrite_sys (p s) : (serveWrite p s).sys = s.sys := by
  have hrow := remoteKvRow_sys p s
  have hlogits := remoteLogits_sys p s
  unfold serveWrite; (repeat' split) <;> simp_all

@[simp] theorem serveAtomic_sys (p s) : (serveAtomic p s).sys = s.sys := by unfold serveAtomic; split <;> simp
@[simp] theorem serveSignal_sys (p s) : (serveSignal p s).sys = s.sys := by simp [serveSignal]
@[simp] theorem collFault_sys (c code tell s) : (collFault c code tell s).sys = s.sys := by simp [collFault]
@[simp] theorem collMove_sys (c typ j src dst len s) : (collMove c typ j src dst len s).sys = s.sys := by simp [collMove]
@[simp] theorem collPump_sys (id s) : (collPump id s).sys = s.sys := by unfold collPump; split <;> simp
@[simp] theorem serveCollData_sys (p s) : (serveCollData p s).sys = s.sys := by simp [serveCollData]
@[simp] theorem serveCollReady_sys (p s) : (serveCollReady p s).sys = s.sys := by unfold serveCollReady; split <;> simp
@[simp] theorem serveCtrl_powered (p s) : (serveCtrl p s).sys.powered = s.sys.powered := by unfold serveCtrl; dsimp only; (repeat' split) <;> simp
@[simp] theorem cannotForward_sys (n cause p s) : (cannotForward n cause p s).sys = s.sys := by simp [cannotForward]

@[simp] theorem receive_powered {f} (h : ∀ t, powerKept t (f t)) (n ecrcOk p s) :
    (receive n ecrcOk p f s).sys.powered = s.sys.powered := by
  unfold receive; dsimp only; (repeat' split) <;> simp [powerKept_iff.1 (h _)]

@[simp] theorem serve_powered {f} (h : ∀ p t, powerKept t (f p t)) (n ecrcOk p s) :
    (serve n ecrcOk p f s).sys.powered = s.sys.powered :=
  receive_powered (fun t => by split <;> simp [powerKept_iff.1 (h _ t)]) ..

@[simp] theorem dropReq_sys (id s) : (dropReq id s).sys = s.sys := rfl
@[simp] theorem deliver_sys (r data mask s) : (deliver r data mask s).sys = s.sys := by unfold deliver; split <;> simp

@[simp] theorem answered_powered {f} (h : ∀ r t, powerKept t (f r t)) (n ecrcOk p s) :
    (answered n ecrcOk p f s).sys.powered = s.sys.powered :=
  receive_powered (fun t => by split <;> simp [powerKept_iff.1 (h _ _)]) ..

@[simp] theorem relayFault_sys (q code s) : (relayFault q code s).sys = s.sys := by unfold relayFault; split <;> simp
@[simp] theorem failReq_sys (r code s) : (failReq r code s).sys = s.sys := by unfold failReq; (repeat' split) <;> simp
@[simp] theorem lostReq_sys (r s) : (lostReq r s).sys = s.sys := by simp [lostReq]

/-! ### The rows of the Balis fabric -/

@[simp] theorem execSignalDetect_keepsPower (port time s) : keepsPower s (execSignalDetect port time s) := by simp [execSignalDetect]

@[simp] theorem execTrainingDone_keepsPower (port errs peer peerPort latency time s) :
    keepsPower s (execTrainingDone port errs peer peerPort latency time s) := by simp [execTrainingDone]

@[simp] theorem execPortRetrain_keepsPower (port time s) : keepsPower s (execPortRetrain port time s) := by simp [execPortRetrain]

@[simp] theorem execCodewordReceive_keepsPower (port correct fixed seq ack nak credits sent taken stalled unknown s) :
    keepsPower s (execCodewordReceive port correct fixed seq ack nak credits sent taken stalled unknown s) := by simp [execCodewordReceive]

@[simp] theorem execLaneFail_keepsPower (port lane errors time s) : keepsPower s (execLaneFail port lane errors time s) := by simp [execLaneFail]
@[simp] theorem execLaneRetestDone_keepsPower (port lane passed s) : keepsPower s (execLaneRetestDone port lane passed s) := by simp [execLaneRetestDone]
@[simp] theorem execSignalLoss_keepsPower (port time s) : keepsPower s (execSignalLoss port time s) := by simp [execSignalLoss]

@[simp] theorem execSignalReturn_keepsPower (port time s) : keepsPower s (execSignalReturn port time s) := by
  unfold execSignalReturn; dsimp only; split <;> simp

@[simp] theorem execPortDown_keepsPower (port time s) : keepsPower s (execPortDown port time s) := by unfold execPortDown; dsimp only; split <;> simp
@[simp] theorem execBalisReferenceFailure_keepsPower (ref time s) : keepsPower s (execBalisReferenceFailure ref time s) := by simp [execBalisReferenceFailure]
@[simp] theorem execRead_keepsPower (port ecrcOk p s) : keepsPower s (execRead port ecrcOk p s) := by simp [execRead]
@[simp] theorem execReadData_keepsPower (port ecrcOk p s) : keepsPower s (execReadData port ecrcOk p s) := by simp [execReadData]
@[simp] theorem execWrite_keepsPower (port ecrcOk p s) : keepsPower s (execWrite port ecrcOk p s) := by simp [execWrite]
@[simp] theorem execWriteAck_keepsPower (port ecrcOk p s) : keepsPower s (execWriteAck port ecrcOk p s) := by simp [execWriteAck]
@[simp] theorem execAtomic_keepsPower (port ecrcOk p s) : keepsPower s (execAtomic port ecrcOk p s) := by simp [execAtomic]
@[simp] theorem execAtomicData_keepsPower (port ecrcOk p s) : keepsPower s (execAtomicData port ecrcOk p s) := by simp [execAtomicData]
@[simp] theorem execBalisSignal_keepsPower (port ecrcOk p s) : keepsPower s (execBalisSignal port ecrcOk p s) := by simp [execBalisSignal]
@[simp] theorem execSignalAck_keepsPower (port ecrcOk p s) : keepsPower s (execSignalAck port ecrcOk p s) := by simp [execSignalAck]
@[simp] theorem execCollReady_keepsPower (port ecrcOk p s) : keepsPower s (execCollReady port ecrcOk p s) := by simp [execCollReady]
@[simp] theorem execCollData_keepsPower (port ecrcOk p s) : keepsPower s (execCollData port ecrcOk p s) := by simp [execCollData]
@[simp] theorem execCtrl_keepsPower (port ecrcOk p s) : keepsPower s (execCtrl port ecrcOk p s) := by simp [execCtrl]
@[simp] theorem execCtrlAck_keepsPower (port ecrcOk p s) : keepsPower s (execCtrlAck port ecrcOk p s) := by simp [execCtrlAck]

@[simp] theorem execBusyRetry_keepsPower (port ecrcOk p time s) : keepsPower s (execBusyRetry port ecrcOk p time s) :=
  receive_powered (fun t => by split <;> simp) ..

@[simp] theorem execUnreachable_keepsPower (port ecrcOk p s) : keepsPower s (execUnreachable port ecrcOk p s) := by
  unfold execUnreachable; split
  · split <;> simp
  · exact receive_powered (fun t => by split <;> simp) ..

@[simp] theorem execRefused_keepsPower (port ecrcOk p s) : keepsPower s (execRefused port ecrcOk p s) :=
  receive_powered (fun t => by split <;> simp) ..

@[simp] theorem execRetryResend_keepsPower (request time s) : keepsPower s (execRetryResend request time s) := by
  unfold execRetryResend; dsimp only; (repeat' split) <;> simp

@[simp] theorem execRequestTimeout_keepsPower (request time s) : keepsPower s (execRequestTimeout request time s) := by
  unfold execRequestTimeout; dsimp only; split <;> simp

@[simp] theorem execBellMark_keepsPower (port bell phase period fewest time s) : keepsPower s (execBellMark port bell phase period fewest time s) := by
  simp [execBellMark]

@[simp] theorem execBellSourceLost_keepsPower (s) : keepsPower s (execBellSourceLost s) := by simp [execBellSourceLost]

@[simp] theorem execCollectiveStart_keepsPower (inst s) : keepsPower s (execCollectiveStart inst s) := by
  unfold execCollectiveStart; dsimp only; (repeat' split) <;> simp

@[simp] theorem execCollectiveFold_keepsPower (inst s) : keepsPower s (execCollectiveFold inst s) := by unfold execCollectiveFold; split <;> simp
@[simp] theorem execCollectiveComplete_keepsPower (inst s) : keepsPower s (execCollectiveComplete inst s) := by unfold execCollectiveComplete; split <;> simp

/-! ### The stack as memory -/

@[simp] theorem admitReqs_sys (n ch arriving s) : (admitReqs n ch arriving s).sys = s.sys := rfl
@[simp] theorem updateDrain_sys (n ch s) : (updateDrain n ch s).sys = s.sys := by simp [updateDrain]
@[simp] theorem openRow_sys (n r s) : (openRow n r s).sys = s.sys := by simp [openRow]
@[simp] theorem issueWrite_sys (n rs r s) : (issueWrite n rs r s).sys = s.sys := by simp [issueWrite]
@[simp] theorem issueRead_sys (n r s) : (issueRead n r s).sys = s.sys := by simp [issueRead]
@[simp] theorem issueReq_sys (n ch now busy s) : (issueReq n ch now busy s).sys = s.sys := by unfold issueReq; dsimp only; (repeat' split) <;> simp
@[simp] theorem promoteAged_sys (n ch now s) : (promoteAged n ch now s).sys = s.sys := by simp [promoteAged]
@[simp] theorem startFetches_sys (n ch s) : (startFetches n ch s).sys = s.sys := by simp [startFetches]

@[simp] theorem issueMany_sys (k n ch now busy s) : (issueMany k n ch now busy s).sys = s.sys := by
  induction k generalizing s with
  | zero => rfl
  | succ k ih => simp [issueMany, ih]

@[simp] theorem execStackRequest_keepsPower (stack ch arriving grants busy fullCycles time s) :
    keepsPower s (execStackRequest stack ch arriving grants busy fullCycles time s) := by simp [execStackRequest]

@[simp] theorem execVmapFetchDone_keepsPower (stack frame s) : keepsPower s (execVmapFetchDone stack frame s) := by simp [execVmapFetchDone]
@[simp] theorem execFrameFillDone_keepsPower (stack frame s) : keepsPower s (execFrameFillDone stack frame s) := by simp [execFrameFillDone]
@[simp] theorem execRefresh_keepsPower (stack bank cycles s) : keepsPower s (execRefresh stack bank cycles s) := by simp [execRefresh]
@[simp] theorem execXlateMissFetch_keepsPower (s) : keepsPower s (execXlateMissFetch s) := by simp [execXlateMissFetch]

/-! ### Shared operations of errors and repair -/

@[simp] theorem retireFrame_sys (fk s) : (retireFrame fk s).sys = s.sys := by simp [retireFrame]
@[simp] theorem hardRow_sys (n frame sector bit scrub s) : (hardRow n frame sector bit scrub s).sys = s.sys := by simp [hardRow]
@[simp] theorem repairLine_sys (n die bank col s) : (repairLine n die bank col s).sys = s.sys := by simp [repairLine]
@[simp] theorem scrubCorrected_sys (n frame sector bit s) : (scrubCorrected n frame sector bit s).sys = s.sys := by simp [scrubCorrected]
@[simp] theorem endScrub_sys (code s) : (endScrub code s).sys = s.sys := by simp [endScrub]
@[simp] theorem loseShop_sys (n s) : (loseShop n s).sys = s.sys := by simp [loseShop]
@[simp] theorem shopCleared_sys (n s) : (shopCleared n s).sys = s.sys := rfl
@[simp] theorem markPartial_sys (unit s) : (markPartial unit s).sys = s.sys := by simp [markPartial]
@[simp] theorem clearShopCounters_sys (n s) : (clearShopCounters n s).sys = s.sys := by simp [clearShopCounters]
@[simp] theorem clearStackCounters_sys (n s) : (clearStackCounters n s).sys = s.sys := by simp [clearStackCounters]
@[simp] theorem shopAbsent_sys (n cause s) : (shopAbsent n cause s).sys = s.sys := by simp [shopAbsent]
@[simp] theorem leaveShadow_sys (n s) : (leaveShadow n s).sys = s.sys := by simp [leaveShadow]
@[simp] theorem spareShop_sys (n empty s) : (spareShop n empty s).sys = s.sys := by unfold spareShop; split <;> simp
@[simp] theorem framesLost_sys (n lost s) : (framesLost n lost s).sys = s.sys := by simp [framesLost]
@[simp] theorem dieLost_sys (n die s) : (dieLost n die s).sys = s.sys := by simp [dieLost]
@[simp] theorem stackAbsent_sys (n cause s) : (stackAbsent n cause s).sys = s.sys := by simp [stackAbsent]
@[simp] theorem modSteward_powered (h f s) : (modSteward h f s).sys.powered = s.sys.powered := rfl
@[simp] theorem restartSteward_powered (h s) : (restartSteward h s).sys.powered = s.sys.powered := by simp [restartSteward]

/-! ### The rows of errors and repair -/

@[simp] theorem askScrub_sys (s) : (askScrub s).sys = s.sys := by simp [askScrub]
@[simp] theorem execScrubGo_keepsPower (s) : keepsPower s (execScrubGo s) := by simp [execScrubGo]
@[simp] theorem abortScrub_sys (s) : (abortScrub s).sys = s.sys := by simp [abortScrub]
@[simp] theorem execScrubAbort_keepsPower (s) : keepsPower s (execScrubAbort s) := by simp [execScrubAbort]

@[simp] theorem execScrubRead_keepsPower (stack symbols bit s) : keepsPower s (execScrubRead stack symbols bit s) := by
  unfold execScrubRead; dsimp only; (repeat' split) <;> simp

@[simp] theorem execScrubDone_keepsPower (s) : keepsPower s (execScrubDone s) := by simp [execScrubDone]
@[simp] theorem execColumnRepairDone_keepsPower (stack die bank column s) : keepsPower s (execColumnRepairDone stack die bank column s) := rfl
@[simp] theorem sramRow_sys (warehouse bank addr uncorrectable s) : (sramRow warehouse bank addr uncorrectable s).sys = s.sys := by simp [sramRow]

@[simp] theorem execSramRowRepaired_keepsPower (warehouse bank addr uncorrectable s) :
    keepsPower s (execSramRowRepaired warehouse bank addr uncorrectable s) := by simp [execSramRowRepaired]

@[simp] theorem askFarRetire_sys (port unit s) : (askFarRetire port unit s).sys = s.sys := by simp [askFarRetire]
@[simp] theorem execRasFarRetire_keepsPower (port unit s) : keepsPower s (execRasFarRetire port unit s) := by simp [execRasFarRetire]
@[simp] theorem execShopSparing_keepsPower (shop cause readable s) : keepsPower s (execShopSparing shop cause readable s) := by simp [execShopSparing]
@[simp] theorem execShopSpareMoveDone_keepsPower (shop s) : keepsPower s (execShopSpareMoveDone shop s) := by unfold execShopSpareMoveDone; split <;> simp
@[simp] theorem execDieLost_keepsPower (stack die cause s) : keepsPower s (execDieLost stack die cause s) := by simp [execDieLost]

@[simp] theorem execHostmgmtUe_keepsPower (kind index s) : keepsPower s (execHostmgmtUe kind index s) := by
  unfold execHostmgmtUe; dsimp only; (repeat' split) <;> simp

@[simp] theorem execLockstepFailure_keepsPower (steward restart s) : keepsPower s (execLockstepFailure steward restart s) := by simp [execLockstepFailure]
@[simp] theorem laneLost_sys (stack channel lane s) : (laneLost stack channel lane s).sys = s.sys := by simp [laneLost]

@[simp] theorem execStackChannelLaneFailure_keepsPower (stack channel lane s) : keepsPower s (execStackChannelLaneFailure stack channel lane s) := by
  simp [execStackChannelLaneFailure]

@[simp] theorem selectLog_sys (seq nv s) : (selectLog seq nv s).sys = s.sys := by simp [selectLog]
@[simp] theorem execRasLogSel_keepsPower (seq nv s) : keepsPower s (execRasLogSel seq nv s) := by simp [execRasLogSel]
@[simp] theorem execNvLogReadDone_keepsPower (s) : keepsPower s (execNvLogReadDone s) := by unfold execNvLogReadDone; split <;> simp

/-! ### Bring-up and unit resets -/

@[simp] theorem computeCleared_sys (s) : (computeCleared s).sys = s.sys := rfl
@[simp] theorem bootFails_powered (cause s) : (bootFails cause s).sys.powered = s.sys.powered := rfl
@[simp] theorem execThermalGate_keepsPower (time s) : keepsPower s (execThermalGate time s) := by simp [execThermalGate]
@[simp] theorem execThermalGateTimeout_keepsPower (time s) : keepsPower s (execThermalGateTimeout time s) := by simp [execThermalGateTimeout]
@[simp] theorem loadImage_powered (kind unit s) : (loadImage kind unit s).sys.powered = s.sys.powered := rfl
@[simp] theorem spareEmpty_sys (n s) : (spareEmpty n s).sys = s.sys := by unfold spareEmpty; split <;> simp
@[simp] theorem retireLine_sys (n row p s) : (retireLine n row p s).sys = s.sys := by unfold retireLine; dsimp only; split <;> simp
@[simp] theorem metaLost_sys (n s) : (metaLost n s).sys = s.sys := by simp [metaLost]
@[simp] theorem quarterLost_sys (q s) : (quarterLost q s).sys = s.sys := by simp [quarterLost]
@[simp] theorem testOutcome_powered (f s) : (testOutcome f s).sys.powered = s.sys.powered := by unfold testOutcome; split <;> simp

@[simp] theorem execFirmwareBroadcast_keepsPower (fw lib fails time s) : keepsPower s (execFirmwareBroadcast fw lib fails time s) := by
  simp [execFirmwareBroadcast]

@[simp] theorem execSelfTest_keepsPower (fails time s) : keepsPower s (execSelfTest fails time s) := by simp [execSelfTest]
@[simp] theorem becomeReady_powered (s) : (becomeReady s).sys.powered = s.sys.powered := by simp only [becomeReady]; (repeat' split) <;> simp
@[simp] theorem execReady_keepsPower (time s) : keepsPower s (execReady time s) := by simp [execReady]
@[simp] theorem execAuxPowerOn_keepsPower (time s) : keepsPower s (execAuxPowerOn time s) := by simp [execAuxPowerOn]
@[simp] theorem execTripLatchClear_keepsPower (time s) : keepsPower s (execTripLatchClear time s) := by simp [execTripLatchClear]
@[simp] theorem requestReset_powered (chan scope unit update s) : (requestReset chan scope unit update s).sys.powered = s.sys.powered := by simp [requestReset]
@[simp] theorem execShopReset_keepsPower (unit update s) : keepsPower s (execShopReset unit update s) := by simp [execShopReset]
@[simp] theorem execQuarterReset_keepsPower (unit update s) : keepsPower s (execQuarterReset unit update s) := by simp [execQuarterReset]
@[simp] theorem execStackReset_keepsPower (unit update s) : keepsPower s (execStackReset unit update s) := by simp [execStackReset]
@[simp] theorem execComputePartReset_keepsPower (chan s) : keepsPower s (execComputePartReset chan s) := by simp [execComputePartReset]
@[simp] theorem poisonWarehouse_sys (q s) : (poisonWarehouse q s).sys = s.sys := by simp [poisonWarehouse]
@[simp] theorem resetShop_powered (n update s) : (resetShop n update s).sys.powered = s.sys.powered := by unfold resetShop; dsimp only; (repeat' split) <;> simp
@[simp] theorem endDrain_powered (r s) : (endDrain r s).sys.powered = s.sys.powered := by unfold endDrain; split <;> simp

@[simp] theorem execDrainEnd_keepsPower (scope unit time s) : keepsPower s (execDrainEnd scope unit time s) := by
  unfold execDrainEnd; dsimp only; split <;> simp

@[simp] theorem execDrainTimeout_keepsPower (scope unit time s) : keepsPower s (execDrainTimeout scope unit time s) := by
  unfold execDrainTimeout; dsimp only; split <;> simp

@[simp] theorem execResetTestDone_keepsPower (scope unit fails time s) : keepsPower s (execResetTestDone scope unit fails time s) := by
  unfold execResetTestDone; dsimp only; split <;> simp

@[simp] theorem execRetry_keepsPower (tenant addr s) : keepsPower s (execRetry tenant addr s) := by simp [execRetry]

/-! ### The closing ledger -/

@[simp] theorem statRecords_sys (s) : (statRecords s).sys = s.sys := by simp [statRecords]
@[simp] theorem snapTenant_sys (t s) : (snapTenant t s).sys = s.sys := by simp [snapTenant]
@[simp] theorem snapUnit_sys (kind n s) : (snapUnit kind n s).sys = s.sys := by simp [snapUnit]
@[simp] theorem finishLedger_sys (s) : (finishLedger s).sys = s.sys := by unfold finishLedger; dsimp only; (repeat' split) <;> simp
@[simp] theorem execLedgerClose_keepsPower (s) : keepsPower s (execLedgerClose s) := by simp [execLedgerClose]

/-! ### Scans, admissions and the governor within the bell -/

@[simp] theorem returnTiles_sys (s) : (returnTiles s).sys = s.sys := rfl
@[simp] theorem seeHost_sys (cells fails s) : (seeHost cells fails s).sys = s.sys := rfl
@[simp] theorem askScan_sys (vf value s) : (askScan vf value s).sys = s.sys := by simp [askScan]
@[simp] theorem execBellEarlyScan_keepsPower (vf value time s) : keepsPower s (execBellEarlyScan vf value time s) := by simp [execBellEarlyScan]
@[simp] theorem execEarlyScan_keepsPower (cells fails cmds time s) : keepsPower s (execEarlyScan cells fails cmds time s) := by simp [execEarlyScan]
@[simp] theorem execDispatchAdmit_keepsPower (time s) : keepsPower s (execDispatchAdmit time s) := by simp [execDispatchAdmit]
@[simp] theorem execHoldRelease_keepsPower (time s) : keepsPower s (execHoldRelease time s) := by simp [execHoldRelease]
@[simp] theorem execGovernorSample_keepsPower (energy time s) : keepsPower s (execGovernorSample energy time s) := by simp [execGovernorSample]

/-! ### Memory accesses of the bench cores -/

@[simp] theorem localOp_sys (n ss vs shop bench d a imm f s) : (localOp n ss vs shop bench d a imm f s).sys = s.sys :=
  issue_sys fun k b t ht => by dsimp only; split <;> simpa using ht

@[simp] theorem execSldb_keepsPower (shop bench d a imm s) : keepsPower s (execSldb shop bench d a imm s) := by simp [execSldb]
@[simp] theorem execSldw_keepsPower (shop bench d a imm s) : keepsPower s (execSldw shop bench d a imm s) := by simp [execSldw]
@[simp] theorem execSldd_keepsPower (shop bench d a imm s) : keepsPower s (execSldd shop bench d a imm s) := by simp [execSldd]
@[simp] theorem execSstb_keepsPower (shop bench d a imm s) : keepsPower s (execSstb shop bench d a imm s) := by simp [execSstb]
@[simp] theorem execSstw_keepsPower (shop bench d a imm s) : keepsPower s (execSstw shop bench d a imm s) := by simp [execSstw]
@[simp] theorem execSstd_keepsPower (shop bench d a imm s) : keepsPower s (execSstd shop bench d a imm s) := by simp [execSstd]
@[simp] theorem execVld_keepsPower (shop bench d a imm s) : keepsPower s (execVld shop bench d a imm s) := by simp [execVld]
@[simp] theorem execVst_keepsPower (shop bench d a imm s) : keepsPower s (execVst shop bench d a imm s) := by simp [execVst]
@[simp] theorem remoteAccess_sys (k kind dest p s) : (remoteAccess k kind dest p s).sys = s.sys := by simp [remoteAccess]

theorem memOp_sys {align ss vs legal addr shop bench f s} (h : ∀ k a b t, sysKept s t → sysKept s (f k a b t)) :
    (memOp align ss vs legal addr shop bench f s).sys = s.sys :=
  issue_sys fun k b t ht => by
    (repeat' split) <;> simp
    · simpa using ht
    · exact h _ _ _ _ ht

@[simp] theorem execVldm_keepsPower (shop bench d a imm s) : keepsPower s (execVldm shop bench d a imm s) :=
  congrArg SysSt.powered (memOp_sys fun k x b t ht => by dsimp only; (repeat' split) <;> simpa using ht)

@[simp] theorem execVstm_keepsPower (shop bench d a imm s) : keepsPower s (execVstm shop bench d a imm s) :=
  congrArg SysSt.powered (memOp_sys fun k x b t ht => by dsimp only; (repeat' split) <;> simpa using ht)

@[simp] theorem execSatom_keepsPower (shop bench d a b c m fmt s) : keepsPower s (execSatom shop bench d a b c m fmt s) :=
  congrArg SysSt.powered (memOp_sys fun k x b t ht => by dsimp only; split <;> simpa using ht)

@[simp] theorem execBenchLoadReturn_keepsPower (shop bench acc stall s) : keepsPower s (execBenchLoadReturn shop bench acc stall s) := by
  unfold execBenchLoadReturn; dsimp only; split <;> simp

@[simp] theorem execWriteCompletion_keepsPower (shop bench acc s) : keepsPower s (execWriteCompletion shop bench acc s) := by
  unfold execWriteCompletion; dsimp only; split <;> simp

@[simp] theorem execMwait_keepsPower (shop bench d a imm s) : keepsPower s (execMwait shop bench d a imm s) :=
  congrArg SysSt.powered (issue_sys fun k b t ht => by simpa using ht)

@[simp] theorem execFence_keepsPower (shop bench d a b c m fmt s) : keepsPower s (execFence shop bench d a b c m fmt s) := by simp [execFence]

@[simp] theorem execTwait_keepsPower (shop bench d a b c m fmt s) : keepsPower s (execTwait shop bench d a b c m fmt s) :=
  congrArg SysSt.powered (issue_sys fun k b t ht => by dsimp only; (repeat' split) <;> simp [sysKept_iff.1 ht])

@[simp] theorem execTsig_keepsPower (shop bench d a b c m fmt s) : keepsPower s (execTsig shop bench d a b c m fmt s) :=
  congrArg SysSt.powered (issue_sys fun k b t ht => by dsimp only; (repeat' split) <;> simp [sysKept_iff.1 ht])

/-! ### The scalar unit -/

@[simp] theorem scalarInt_sys (f shop bench d a b c m fmt s) : (scalarInt f shop bench d a b c m fmt s).sys = s.sys := by simp [scalarInt]
@[simp] theorem execSadd_keepsPower (shop bench d a b c m fmt s) : keepsPower s (execSadd shop bench d a b c m fmt s) := by simp [execSadd]
@[simp] theorem execSsub_keepsPower (shop bench d a b c m fmt s) : keepsPower s (execSsub shop bench d a b c m fmt s) := by simp [execSsub]
@[simp] theorem execSmul_keepsPower (shop bench d a b c m fmt s) : keepsPower s (execSmul shop bench d a b c m fmt s) := by simp [execSmul]
@[simp] theorem execSand_keepsPower (shop bench d a b c m fmt s) : keepsPower s (execSand shop bench d a b c m fmt s) := by simp [execSand]
@[simp] theorem execSor_keepsPower (shop bench d a b c m fmt s) : keepsPower s (execSor shop bench d a b c m fmt s) := by simp [execSor]
@[simp] theorem execSxor_keepsPower (shop bench d a b c m fmt s) : keepsPower s (execSxor shop bench d a b c m fmt s) := by simp [execSxor]
@[simp] theorem execSshl_keepsPower (shop bench d a b c m fmt s) : keepsPower s (execSshl shop bench d a b c m fmt s) := by simp [execSshl]
@[simp] theorem execSshr_keepsPower (shop bench d a b c m fmt s) : keepsPower s (execSshr shop bench d a b c m fmt s) := by simp [execSshr]
@[simp] theorem execSsra_keepsPower (shop bench d a b c m fmt s) : keepsPower s (execSsra shop bench d a b c m fmt s) := by simp [execSsra]
@[simp] theorem execSslt_keepsPower (shop bench d a b c m fmt s) : keepsPower s (execSslt shop bench d a b c m fmt s) := by simp [execSslt]
@[simp] theorem execSmin_keepsPower (shop bench d a b c m fmt s) : keepsPower s (execSmin shop bench d a b c m fmt s) := by simp [execSmin]
@[simp] theorem execSmax_keepsPower (shop bench d a b c m fmt s) : keepsPower s (execSmax shop bench d a b c m fmt s) := by simp [execSmax]
@[simp] theorem execSaddi_keepsPower (shop bench d a imm s) : keepsPower s (execSaddi shop bench d a imm s) := by simp [execSaddi]
@[simp] theorem execSlui_keepsPower (shop bench d a imm s) : keepsPower s (execSlui shop bench d a imm s) := by simp [execSlui]
@[simp] theorem execVbcast_keepsPower (shop bench d a b c m fmt s) : keepsPower s (execVbcast shop bench d a b c m fmt s) := by simp [execVbcast]
@[simp] theorem scalarFp_sys (op legal shop bench d a b c s) : (scalarFp op legal shop bench d a b c s).sys = s.sys := by simp [scalarFp]
@[simp] theorem execSfadd_keepsPower (shop bench d a b c m fmt s) : keepsPower s (execSfadd shop bench d a b c m fmt s) := by simp [execSfadd]
@[simp] theorem execSfmul_keepsPower (shop bench d a b c m fmt s) : keepsPower s (execSfmul shop bench d a b c m fmt s) := by simp [execSfmul]
@[simp] theorem execSffma_keepsPower (shop bench d a b c m fmt s) : keepsPower s (execSffma shop bench d a b c m fmt s) := by simp [execSffma]
@[simp] theorem execSflt_keepsPower (shop bench d a b c m fmt s) : keepsPower s (execSflt shop bench d a b c m fmt s) := by simp [execSflt]

@[simp] theorem execSfcvt_keepsPower (shop bench d a b c m fmt s) : keepsPower s (execSfcvt shop bench d a b c m fmt s) :=
  congrArg SysSt.powered (issue_sys fun k b t ht => by simpa using ht)

@[simp] theorem execVmvs_keepsPower (shop bench d a b c m fmt s) : keepsPower s (execVmvs shop bench d a b c m fmt s) := by simp [execVmvs]

@[simp] theorem execCsrr_keepsPower (shop bench d a imm s) : keepsPower s (execCsrr shop bench d a imm s) :=
  congrArg SysSt.powered (issue_sys fun k b t ht => by simpa using ht)

@[simp] theorem execCsrw_keepsPower (shop bench d a imm s) : keepsPower s (execCsrw shop bench d a imm s) := by simp [execCsrw]

@[simp] theorem branch_sys (cond shop bench a b off s) : (branch cond shop bench a b off s).sys = s.sys :=
  issue_sys fun k b t ht => by simpa using ht

@[simp] theorem execBeq_keepsPower (shop bench a b off s) : keepsPower s (execBeq shop bench a b off s) := by simp [execBeq]
@[simp] theorem execBne_keepsPower (shop bench a b off s) : keepsPower s (execBne shop bench a b off s) := by simp [execBne]
@[simp] theorem execBlt_keepsPower (shop bench a b off s) : keepsPower s (execBlt shop bench a b off s) := by simp [execBlt]
@[simp] theorem execBge_keepsPower (shop bench a b off s) : keepsPower s (execBge shop bench a b off s) := by simp [execBge]

@[simp] theorem execJal_keepsPower (shop bench d a imm s) : keepsPower s (execJal shop bench d a imm s) :=
  congrArg SysSt.powered (issue_sys fun k b t ht => by simpa using ht)

@[simp] theorem execJr_keepsPower (shop bench d a b c m fmt s) : keepsPower s (execJr shop bench d a b c m fmt s) :=
  congrArg SysSt.powered (issue_sys fun k b t ht => by simpa using ht)

@[simp] theorem execLoop_keepsPower (shop bench d a imm s) : keepsPower s (execLoop shop bench d a imm s) :=
  congrArg SysSt.powered (issue_sys fun k b t ht => by simpa using ht)

@[simp] theorem execHalt_keepsPower (shop bench d a b c m fmt s) : keepsPower s (execHalt shop bench d a b c m fmt s) :=
  congrArg SysSt.powered (issue_sys fun k b t ht => by dsimp only; split <;> simpa using ht)

/-! ### The vector unit -/

@[simp] theorem execVadd_keepsPower (shop bench d a b c m fmt s) : keepsPower s (execVadd shop bench d a b c m fmt s) := by simp [execVadd]
@[simp] theorem execVsub_keepsPower (shop bench d a b c m fmt s) : keepsPower s (execVsub shop bench d a b c m fmt s) := by simp [execVsub]
@[simp] theorem execVmul_keepsPower (shop bench d a b c m fmt s) : keepsPower s (execVmul shop bench d a b c m fmt s) := by simp [execVmul]
@[simp] theorem execVmax_keepsPower (shop bench d a b c m fmt s) : keepsPower s (execVmax shop bench d a b c m fmt s) := by simp [execVmax]
@[simp] theorem execVmin_keepsPower (shop bench d a b c m fmt s) : keepsPower s (execVmin shop bench d a b c m fmt s) := by simp [execVmin]
@[simp] theorem execVfma_keepsPower (shop bench d a b c m fmt s) : keepsPower s (execVfma shop bench d a b c m fmt s) := by simp [execVfma]
@[simp] theorem execVneg_keepsPower (shop bench d a b c m fmt s) : keepsPower s (execVneg shop bench d a b c m fmt s) := by simp [execVneg]

@[simp] theorem specialVec_sys (fn shop bench d a b c m fmt s) : (specialVec fn shop bench d a b c m fmt s).sys = s.sys :=
  issue_sys fun k b t ht => by dsimp only; split <;> simpa using ht

@[simp] theorem execVexp_keepsPower (shop bench d a b c m fmt s) : keepsPower s (execVexp shop bench d a b c m fmt s) := by simp [execVexp]
@[simp] theorem execVrsq_keepsPower (shop bench d a b c m fmt s) : keepsPower s (execVrsq shop bench d a b c m fmt s) := by simp [execVrsq]
@[simp] theorem execVrcp_keepsPower (shop bench d a b c m fmt s) : keepsPower s (execVrcp shop bench d a b c m fmt s) := by simp [execVrcp]
@[simp] theorem execVcmp_keepsPower (shop bench d a b c m fmt s) : keepsPower s (execVcmp shop bench d a b c m fmt s) := by simp [execVcmp]
@[simp] theorem execVsel_keepsPower (shop bench d a b c m fmt s) : keepsPower s (execVsel shop bench d a b c m fmt s) := by simp [execVsel]
@[simp] theorem execVperm_keepsPower (shop bench d a b c m fmt s) : keepsPower s (execVperm shop bench d a b c m fmt s) := by simp [execVperm]
@[simp] theorem execRng_keepsPower (shop bench d a b c m fmt s) : keepsPower s (execRng shop bench d a b c m fmt s) := by simp [execRng]
@[simp] theorem execVred_keepsPower (shop bench d a b c m fmt s) : keepsPower s (execVred shop bench d a b c m fmt s) := by simp [execVred]

@[simp] theorem execVcvt_keepsPower (shop bench d a src dst part m s) : keepsPower s (execVcvt shop bench d a src dst part m s) :=
  congrArg SysSt.powered (issue_sys fun k b t ht => by simpa using ht)

/-! ### Load, store and transform engines -/

@[simp] theorem askRemote_sys (shop eng op r d a len s) : (askRemote shop eng op r d a len s).sys = s.sys := by simp [askRemote]
@[simp] theorem runRefused_sys (shop r s) : (runRefused shop r s).sys = s.sys := by unfold runRefused; split <;> simp

theorem writeTargets_sys {ok : State → Nat → Prop} [∀ s n, Decidable (ok s n)] {cells : Nat → List (Nat × Byte)} {targets : List Nat} {s : State} :
    (targets.foldl (fun s n => if ok s n then writeKeys (cells n) s else s) s).sys = s.sys := by simp

@[simp] theorem loadRun_sys (shop r s) : (loadRun shop r s).sys = s.sys := by
  have hsource := sourceBytes_sys s r (bf r.cmd.body 0 63 0) (bf r.cmd.body 1 41 21)
  unfold loadRun
  extract_lets
  split
  · exact runRefused_sys ..
  · split <;> rename_i heq <;> rw [heq] at hsource
    · split
      · exact askRemote_sys ..
      · exact hsource
    · extract_lets put moved
      have hmoved : moved.sys = s.sys := (portBytes_sys ..).trans (writeTargets_sys.trans hsource)
      split
      · exact (cmdFault_sys ..).trans hmoved
      · exact (runDone_sys ..).trans hmoved

@[simp] theorem execLoad_keepsPower (shop s) : keepsPower s (execLoad shop s) := by unfold execLoad; split <;> simp

theorem roomWrites_sys {shops : List Nat} {a b k l s} :
    (shops.foldl (fun s t => roomWrite t a k (roomWrite t b l s)) s).sys = s.sys := by simp

theorem withRas_sys {s t : State} (h : s.sys = t.sys) (x : RasSt) : ({ s with ras := x } : State).sys = t.sys := h

@[simp] theorem loadBlock_sys (shop r bytes bad g j idx s) : (loadBlock shop r bytes bad g j idx s).1.sys = s.sys := by
  simp only [loadBlock]
  (repeat' split)
  · rfl
  · rfl
  · rfl
  · exact roomWrites_sys.trans (fmtEvents_sys ..)
  · exact withRas_sys (roomWrites_sys.trans (fmtEvents_sys ..)) _

@[simp] theorem loadBlocks_sys (shop r bytes bad todo idx s) : (loadBlocks shop r bytes bad todo idx s).1.sys = s.sys := by
  induction todo generalizing idx s with
  | nil => rfl
  | cons p t ih =>
    obtain ⟨g, j⟩ := p
    unfold loadBlocks; extract_lets hdrBad
    have hblock : (if hdrBad then (s, 6) else loadBlock shop r bytes bad g j idx s).1.sys = s.sys := by split <;> simp
    split
    next s1 c heq =>
      rw [heq] at hblock
      split
      · exact hblock
      · exact (ih ..).trans hblock

@[simp] theorem loadPlaneRun_sys (shop r s) : (loadPlaneRun shop r s).sys = s.sys := by
  unfold loadPlaneRun; extract_lets b src len
  have hsource := sourceBytes_sys s r src len
  (repeat' split) <;> simp_all

@[simp] theorem execLoadPlane_keepsPower (shop s) : keepsPower s (execLoadPlane shop s) := by unfold execLoadPlane; split <;> simp

@[simp] theorem storeRun_sys (shop r s) : (storeRun shop r s).sys = s.sys := by
  unfold storeRun; extract_lets b c dst src e fs fd raw scale val badElem anyBad finish
  have hfinish : ∀ t, (finish t).sys = t.sys := fun t => by dsimp only [finish]; split <;> simp
  (repeat' split) <;> simp [hfinish]
  split <;> simp

@[simp] theorem execStore_keepsPower (shop s) : keepsPower s (execStore shop s) := by unfold execStore; split <;> simp
@[simp] theorem storeKvRun_sys (shop r s) : (storeKvRun shop r s).sys = s.sys := by unfold storeKvRun; dsimp only; (repeat' split) <;> simp
@[simp] theorem execStoreKv_keepsPower (shop s) : keepsPower s (execStoreKv shop s) := by unfold execStoreKv; split <;> simp
@[simp] theorem putElem_sys (n f base off code s) : (putElem n f base off code s).sys = s.sys := by unfold putElem; dsimp only; split <;> simp

@[simp] theorem transformRun_sys (shop op r s) : (transformRun shop op r s).sys = s.sys := by
  unfold transformRun; dsimp only; split
  · split <;> simp <;> exact foldl_sys (fun t m => by (repeat' split) <;> simp) ..
  · simp

@[simp] theorem transformOp_sys (shop op cycles s) : (transformOp shop op cycles s).sys = s.sys := by unfold transformOp; split <;> simp
@[simp] theorem execXlayout_keepsPower (shop cycles s) : keepsPower s (execXlayout shop cycles s) := by simp [execXlayout]
@[simp] theorem execXgather_keepsPower (shop cycles s) : keepsPower s (execXgather shop cycles s) := by simp [execXgather]
@[simp] theorem execXscatter_keepsPower (shop cycles s) : keepsPower s (execXscatter shop cycles s) := by simp [execXscatter]

/-! ### Reads of registers -/

@[simp] theorem clearRc_sys (off s) : (clearRc off s).sys = s.sys := by
  unfold clearRc; (repeat' split) <;> simp

@[simp] theorem vfRead_sys (t off size s) : (vfRead t off size s).2.sys = s.sys := by unfold vfRead; split <;> simp

/-! ### Roles -/

@[simp] theorem modRole_powered (f s) : (modRole f s).sys.powered = s.sys.powered := rfl
@[simp] theorem roleEnds_powered (cause s) : (roleEnds cause s).sys.powered = s.sys.powered := rfl
@[simp] theorem challengeOn_powered (chan s) : (challengeOn chan s).sys.powered = s.sys.powered := by simp [challengeOn]
@[simp] theorem responseFails_powered (chan cause s) : (responseFails chan cause s).sys.powered = s.sys.powered := by simp [responseFails]
@[simp] theorem respondOn_powered (chan i s) : (respondOn chan i s).sys.powered = s.sys.powered := by unfold respondOn; split <;> simp
@[simp] theorem closeOn_powered (chan s) : (closeOn chan s).sys.powered = s.sys.powered := by simp [closeOn]
@[simp] theorem unlockOn_powered (chan mask s) : (unlockOn chan mask s).sys.powered = s.sys.powered := by simp [unlockOn]
@[simp] theorem setFlash_powered (k x s) : (setFlash k x s).sys.powered = s.sys.powered := rfl
@[simp] theorem imageOn_powered (chan kind i s) : (imageOn chan kind i s).sys.powered = s.sys.powered := by unfold imageOn; dsimp only; (repeat' split) <;> simp
@[simp] theorem roleCmd_powered (chan v i s) : (roleCmd chan v i s).sys.powered = s.sys.powered := by unfold roleCmd; split <;> simp
@[simp] theorem recover_powered (chan addr i s) : (recover chan addr i s).sys.powered = s.sys.powered := by unfold recover; (repeat' split) <;> simp
@[simp] theorem lockOn_powered (chan v s) : (lockOn chan v s).sys.powered = s.sys.powered := by simp [lockOn]
@[simp] theorem showAudit_powered (seq s) : (showAudit seq s).sys.powered = s.sys.powered := by unfold showAudit; split <;> simp

/-! ### Writes of registers -/

@[simp] theorem storeReg_sys (off key v s) : (storeReg off key v s).sys = s.sys := by simp [storeReg]
@[simp] theorem waitPeriods_sys (v s) : (waitPeriods v s).sys = s.sys := rfl
@[simp] theorem portEnable_sys (n old v s) : (portEnable n old v s).sys = s.sys := by simp [portEnable]
@[simp] theorem farEnable_sys (p old v s) : (farEnable p old v s).sys = s.sys := by simp [farEnable]
@[simp] theorem orderView_sys (o s) : (orderView o s).sys = s.sys := rfl
@[simp] theorem mapView_powered (g s) : (mapView g s).sys.powered = s.sys.powered := rfl
@[simp] theorem tenantView_sys (t s) : (tenantView t s).sys = s.sys := by simp [tenantView]
@[simp] theorem unitView_sys (v s) : (unitView v s).sys = s.sys := by simp [unitView]
@[simp] theorem selRing_sys (f s) : (selRing f s).sys = s.sys := rfl
@[simp] theorem setPend_powered (w v s) : (setPend w v s).sys.powered = s.sys.powered := rfl
@[simp] theorem completeSource_powered (by_ n s) : (completeSource by_ n s).sys.powered = s.sys.powered := by unfold completeSource; split <;> simp
@[simp] theorem commit_powered (off cur v s) : (commit off cur v s).sys.powered = s.sys.powered := by unfold commit; split <;> simp
@[simp] theorem actOn_powered (path off v i s) : (actOn path off v i s).sys.powered = s.sys.powered := by unfold actOn; split <;> simp
@[simp] theorem touchSession_powered (chan s) : (touchSession chan s).sys.powered = s.sys.powered := by simp [touchSession]

@[simp] theorem writeFields_powered (path blk win off size v o r i s) : (writeFields path blk win off size v o r i s).sys.powered = s.sys.powered := by
  unfold writeFields; dsimp only; (repeat' split) <;> simp

@[simp] theorem regWrite_powered (path off size v i s) : (regWrite path off size v i s).sys.powered = s.sys.powered := by
  unfold regWrite; dsimp only; (repeat' split) <;> simp

@[simp] theorem setMask_sys (t mask s) : (setMask t mask s).sys = s.sys := by simp [setMask]
@[simp] theorem vfWrite_sys (t off size v s) : (vfWrite t off size v s).sys = s.sys := by unfold vfWrite; dsimp only; (repeat' split) <;> simp
@[simp] theorem claim_powered (h n s) : (claim h n s).2.sys.powered = s.sys.powered := by unfold claim; split <;> simp

@[simp] theorem regRead_powered (path off size s) : (regRead path off size s).2.sys.powered = s.sys.powered := by
  unfold regRead; dsimp only; (repeat' split) <;> simp

@[simp] theorem smbWrite_powered (off size v i s) : (smbWrite off size v i s).sys.powered = s.sys.powered := by unfold smbWrite; split <;> simp
@[simp] theorem pathWrite_powered (path off size v i s) : (pathWrite path off size v i s).sys.powered = s.sys.powered := by unfold pathWrite; split <;> simp
@[simp] theorem breakLock_powered (k s) : (breakLock k s).sys.powered = s.sys.powered := rfl
@[simp] theorem expireLock_powered (k s) : (expireLock k s).sys.powered = s.sys.powered := by unfold expireLock; split <;> simp
@[simp] theorem stage_powered (k x s) : (stage k x s).sys.powered = s.sys.powered := by simp [stage]

@[simp] theorem execRegisterWrite_keepsPower (path off size value guard ins time s) :
    keepsPower s (execRegisterWrite path off size value guard ins time s) := by
  unfold execRegisterWrite; split <;> simp

@[simp] theorem execRcRead_keepsPower (path off size time s) : keepsPower s (execRcRead path off size time s) := by
  unfold execRcRead; dsimp only; (repeat' split) <;> simp

@[simp] theorem pfWrite_powered (off value i s) : (pfWrite off value i s).sys.powered = s.sys.powered := by simp [pfWrite]
@[simp] theorem execObkSel_keepsPower (order s) : keepsPower s (execObkSel order s) := by simp [execObkSel]
@[simp] theorem execPlcMapSel_keepsPower (granule s) : keepsPower s (execPlcMapSel granule s) := by simp [execPlcMapSel]
@[simp] theorem execStatTsel_keepsPower (tenant s) : keepsPower s (execStatTsel tenant s) := by simp [execStatTsel]
@[simp] theorem execStatBsel_keepsPower (value s) : keepsPower s (execStatBsel value s) := by simp [execStatBsel]
@[simp] theorem execRoleAuditSel_keepsPower (seq s) : keepsPower s (execRoleAuditSel seq s) := by simp [execRoleAuditSel]
@[simp] theorem execBridgeLaneLoss_keepsPower (bridge lost spares s) : keepsPower s (execBridgeLaneLoss bridge lost spares s) := by simp [execBridgeLaneLoss]

/-! ### Stewards, the bellboard, locks and debug -/

@[simp] theorem sourceInput_powered (n asserted s) : (sourceInput n asserted s).sys.powered = s.sys.powered := by simp [sourceInput]

@[simp] theorem execBellboardSource_keepsPower (source asserted gated time s) : keepsPower s (execBellboardSource source asserted gated time s) := by
  simp [execBellboardSource]

@[simp] theorem execBbdClaim_keepsPower (path source time s) : keepsPower s (execBbdClaim path source time s) := by simp [execBbdClaim]
@[simp] theorem execBbdComplete_keepsPower (path source time s) : keepsPower s (execBbdComplete path source time s) := by simp [execBbdComplete]
@[simp] theorem execBbdPend_keepsPower (path word value time s) : keepsPower s (execBbdPend path word value time s) := by simp [execBbdPend]
@[simp] theorem execLockAcquire_keepsPower (steward lock epoch time s) : keepsPower s (execLockAcquire steward lock epoch time s) := by simp [execLockAcquire]
@[simp] theorem performStore_powered (h s x) : (performStore h s x).sys.powered = s.sys.powered := by simp [performStore]

@[simp] theorem execLockRelease_keepsPower (steward lock epoch mem time s) : keepsPower s (execLockRelease steward lock epoch mem time s) := by
  simp [execLockRelease]

@[simp] theorem execLeaseExpiry_keepsPower (lock time s) : keepsPower s (execLeaseExpiry lock time s) := by simp [execLeaseExpiry]
@[simp] theorem execStewardWatchdog_keepsPower (steward s) : keepsPower s (execStewardWatchdog steward s) := by simp [execStewardWatchdog]
@[simp] theorem execStewardRestartDone_keepsPower (steward s) : keepsPower s (execStewardRestartDone steward s) := by simp [execStewardRestartDone]
@[simp] theorem roleWrite_powered (path v i s) : (roleWrite path v i s).sys.powered = s.sys.powered := by simp [roleWrite]
@[simp] theorem execChallenge_keepsPower (path time s) : keepsPower s (execChallenge path time s) := by simp [execChallenge]
@[simp] theorem execRespond_keepsPower (path ins time s) : keepsPower s (execRespond path ins time s) := by simp [execRespond]
@[simp] theorem execRoleClose_keepsPower (path time s) : keepsPower s (execRoleClose path time s) := by simp [execRoleClose]
@[simp] theorem execUnlock_keepsPower (path mask time s) : keepsPower s (execUnlock path mask time s) := by simp [execUnlock]
@[simp] theorem execImageWrite_keepsPower (path kind ins time s) : keepsPower s (execImageWrite path kind ins time s) := by simp [execImageWrite]
@[simp] theorem execSessionTimeout_keepsPower (time s) : keepsPower s (execSessionTimeout time s) := by simp [execSessionTimeout]
@[simp] theorem execLockoutExpiry_keepsPower (time s) : keepsPower s (execLockoutExpiry time s) := by simp [execLockoutExpiry]
@[simp] theorem execGlbLock_keepsPower (path value time s) : keepsPower s (execGlbLock path value time s) := by simp [execGlbLock]
@[simp] theorem execGlbRecoveryAddr_keepsPower (address ins time s) : keepsPower s (execGlbRecoveryAddr address ins time s) := by simp [execGlbRecoveryAddr]
@[simp] theorem makerStore_powered (kind object words s) : (makerStore kind object words s).sys.powered = s.sys.powered := by simp [makerStore]

@[simp] theorem execFuseProgram_keepsPower (chan kind object words closed time s) : keepsPower s (execFuseProgram chan kind object words closed time s) := by
  unfold execFuseProgram; dsimp only; (repeat' split) <;> simp

@[simp] theorem setIr_powered (n s) : (setIr n s).sys.powered = s.sys.powered := by simp [setIr]
@[simp] theorem execBypass_keepsPower (s) : keepsPower s (execBypass s) := by simp [execBypass]
@[simp] theorem execIdcode_keepsPower (s) : keepsPower s (execIdcode s) := by simp [execIdcode]
@[simp] theorem execSamplePreload_keepsPower (lands outputs s) : keepsPower s (execSamplePreload lands outputs s) := by simp [execSamplePreload]
@[simp] theorem execExtest_keepsPower (lands outputs s) : keepsPower s (execExtest lands outputs s) := by simp [execExtest]
@[simp] theorem execDtmcs_keepsPower (s) : keepsPower s (execDtmcs s) := by simp [execDtmcs]
@[simp] theorem dmRead_sys (a s) : (dmRead a s).2.sys = s.sys := by unfold dmRead; dsimp only; (repeat' split) <;> simp
@[simp] theorem dmWrite_powered (a v s) : (dmWrite a v s).sys.powered = s.sys.powered := by simp [dmWrite]
@[simp] theorem execDmi_keepsPower (op time s) : keepsPower s (execDmi op time s) := by unfold execDmi; split <;> simp
@[simp] theorem roleUpdate_powered (words i s) : (roleUpdate words i s).sys.powered = s.sys.powered := by simp [roleUpdate]
@[simp] theorem execJtagRole_keepsPower (words ins time s) : keepsPower s (execJtagRole words ins time s) := by unfold execJtagRole; split <;> simp
@[simp] theorem execRecovery_keepsPower (ins time s) : keepsPower s (execRecovery ins time s) := by simp [execRecovery]
@[simp] theorem execTrstN_keepsPower (s) : keepsPower s (execTrstN s) := by simp [execTrstN]

@[simp] theorem execDebugApertureRead_keepsPower (device address size time s) : keepsPower s (execDebugApertureRead device address size time s) := by
  simp [execDebugApertureRead]

/-! ### The board management port -/

@[simp] theorem smbRead_sys (need data s) : (smbRead need data s).sys = s.sys := by simp [smbRead]
@[simp] theorem execIdent_keepsPower (s) : keepsPower s (execIdent s) := by simp [execIdent]
@[simp] theorem execState_keepsPower (s) : keepsPower s (execState s) := by simp [execState]
@[simp] theorem execAlert_keepsPower (s) : keepsPower s (execAlert s) := by simp [execAlert]
@[simp] theorem execTrip_keepsPower (s) : keepsPower s (execTrip s) := by simp [execTrip]
@[simp] theorem execQuarters_keepsPower (s) : keepsPower s (execQuarters s) := by simp [execQuarters]
@[simp] theorem execStackTemps_keepsPower (s) : keepsPower s (execStackTemps s) := by simp [execStackTemps]
@[simp] theorem execChannels_keepsPower (s) : keepsPower s (execChannels s) := by simp [execChannels]
@[simp] theorem execPower_keepsPower (mv current s) : keepsPower s (execPower mv current s) := by simp [execPower]
@[simp] theorem execLinks_keepsPower (s) : keepsPower s (execLinks s) := by simp [execLinks]
@[simp] theorem smbNext_powered (s) : (smbNext s).sys.powered = s.sys.powered := by simp [smbNext]
@[simp] theorem execRegAddr_keepsPower (offset s) : keepsPower s (execRegAddr offset s) := by simp [execRegAddr]
@[simp] theorem execRegDataRead_keepsPower (time s) : keepsPower s (execRegDataRead time s) := by simp [execRegDataRead]
@[simp] theorem execRegDataWrite_keepsPower (value ins time s) : keepsPower s (execRegDataWrite value ins time s) := by simp [execRegDataWrite]

/-! ### Tallies and reductions -/

@[simp] theorem releaseWaiter_sys (w s) : (releaseWaiter w s).sys = s.sys := by unfold releaseWaiter; split <;> simp

@[simp] theorem execTallyWaitSatisfied_keepsPower (tally s) : keepsPower s (execTallyWaitSatisfied tally s) := by
  unfold execTallyWaitSatisfied; dsimp only; (repeat' split) <;> simp

@[simp] theorem execTallyRead_keepsPower (shop ctx off len s) : keepsPower s (execTallyRead shop ctx off len s) := by unfold execTallyRead; split <;> simp

@[simp] theorem execTallySet_keepsPower (shop ctx off len data s) : keepsPower s (execTallySet shop ctx off len data s) := by
  unfold execTallySet; split <;> simp

@[simp] theorem execReductionWrite_keepsPower (shop ctx addr data s) : keepsPower s (execReductionWrite shop ctx addr data s) := by
  unfold execReductionWrite; (repeat' split) <;> simp

/-! ### A reset of the whole device (R515) -/

/-- What a reset of the device takes over: the level of SYS_RST_N, flash, fuses and host memory. -/
def resetKept (s t : State) : Prop :=
  t.sys.sysRstN = s.sys.sysRstN ∧ t.sys.flash = s.sys.flash ∧ t.sys.fuses = s.sys.fuses ∧ t.host.mem = s.host.mem

theorem resetKept_refl (s : State) : resetKept s s := ⟨rfl, rfl, rfl, rfl⟩

theorem resetKept_trans {s t u : State} (h : resetKept s t) (k : resetKept t u) : resetKept s u := by
  obtain ⟨hrst, hflash, hfuses, hmem⟩ := h
  obtain ⟨krst, kflash, kfuses, kmem⟩ := k
  exact ⟨krst.trans hrst, kflash.trans hflash, kfuses.trans hfuses, kmem.trans hmem⟩

@[simp] theorem flashCommit_hostMem (h s) : (flashCommit h s).host.mem = s.host.mem := by
  unfold flashCommit; dsimp only; (repeat' split) <;> simp

@[simp] theorem flashWrite_hostMem (h s) : (flashWrite h s).host.mem = s.host.mem := by
  unfold flashWrite; dsimp only; (repeat' split) <;> simp

theorem auditEntry_resetKept (kind role chan count time object cert old new detail s) :
    resetKept s (auditEntry kind role chan count time object cert old new detail s) := by
  simp [resetKept, auditEntry]

theorem audit_resetKept (kind chan object old new detail s) : resetKept s (audit kind chan object old new detail s) :=
  auditEntry_resetKept ..

theorem setLevel_resetKept (lvl s) : resetKept s (setLevel lvl s) := by
  unfold setLevel
  dsimp only
  split
  · exact resetKept_refl s
  · exact audit_resetKept ..

theorem closeSession_resetKept (s) : resetKept s (closeSession s) := by
  unfold closeSession
  split
  · exact resetKept_refl s
  · exact resetKept_trans (setLevel_resetKept 0 s) (audit_resetKept ..)

theorem flushRefused_resetKept (s) : resetKept s (flushRefused s) :=
  List.foldlRecOn s.sys.refused _ (motive := fun t => resetKept s t) (resetKept_refl s)
    (fun _ ih _ _ => resetKept_trans ih (auditEntry_resetKept ..))

theorem deviceReset_resetKept (origin s) : resetKept s (deviceReset origin s) :=
  resetKept_trans (closeSession_resetKept s) (flushRefused_resetKept _)

@[simp] theorem deviceReset_powered (origin s) : (deviceReset origin s).sys.powered = false := rfl

/-- A reset of the device is a loss of every 12 V domain, whatever the always-on domain then records of ORIGIN and 12 V. -/
theorem powerLost_of_deviceReset {origin : Nat} {s t : State} (h : t = { deviceReset origin s with sys := t.sys })
    (hsys : t.sys = { (deviceReset origin s).sys with origin := t.sys.origin, v12 := t.sys.v12, supplyBad := t.sys.supplyBad }) : powerLost s t := by
  obtain ⟨-, hflash, hfuses, hmem⟩ := deviceReset_resetKept origin s
  rw [h, hsys]
  exact ⟨rfl, rfl, rfl, rfl, rfl, rfl, rfl, rfl, rfl, rfl, rfl, rfl, rfl, rfl, rfl, rfl, rfl, hmem, hflash, hfuses⟩

/-! ### The 12 V watch (R571) -/

/-- What the sideband shows after 12 V has left its range, in place of what it showed: a level of SYS_RST_N, an ORIGIN, and 12 V as bad. -/
def supplyShown (rst : Bool) (origin : Nat) (s : State) : State :=
  { s with sys := { s.sys with sysRstN := rst, origin := origin, v12 := false, supplyBad := true } }

theorem execSupplyOutOfRange_out {mv : Nat} (hmv : mv < 11200 ∨ 13200 < mv) (time : Nat) (s : State) :
    execSupplyOutOfRange mv time s = .next { deviceReset 0 (atTime time s) with
      sys := { (deviceReset 0 (atTime time s)).sys with v12 := false, supplyBad := true } } :=
  congrArg Host.Outcome.next (if_neg fun hrange => by omega)

theorem execSupplyOutOfRange_in {mv : Nat} (hlow : 11200 ≤ mv) (hhigh : mv ≤ 13200) (time : Nat) (s : State) :
    execSupplyOutOfRange mv time s = .next { s with now := max s.now time, sys := { s.sys with v12 := true } } :=
  congrArg Host.Outcome.next (if_pos ⟨hlow, hhigh⟩)

/-- The watch's reset and that of SYS_RST_N differ in what the sideband shows, and in nothing else. -/
theorem supplyReset_eq_supplyShown {s u : State} (hu : u = { deviceReset 1 s with sys := { (deviceReset 1 s).sys with sysRstN := false } }) :
    { deviceReset 0 s with sys := { (deviceReset 0 s).sys with v12 := false, supplyBad := true } } =
      supplyShown s.sys.sysRstN (deviceReset 0 s).sys.origin u := by
  obtain ⟨hrst, -, -, -⟩ := deviceReset_resetKept 0 s
  rw [hu, ← hrst]
  rfl

/-! ### No way to power but a release of SYS_RST_N -/

/-- A command that answers a state does not power domains that are off. -/
def staysOff (s : State) : Res → Prop
  | .next t => s.sys.powered = false → t.sys.powered = false
  | _ => True

theorem staysOff_of_keepsPower {s : State} {r : Res} (h : keepsPower s r) : staysOff s r := by
  cases r with
  | next t => exact fun hoff => h.trans hoff
  | _ => trivial

/-- A bell boundary, whose compute-part resets set `powered`, is dropped without power. -/
theorem execBellBoundary_staysOff (b s) : staysOff s (execBellBoundary b s) := by
  intro hoff
  simp [hoff]

theorem execShutdownTrip_staysOff (channel reading wire time s) : staysOff s (execShutdownTrip channel reading wire time s) := by
  unfold execShutdownTrip
  extract_lets now code
  intro hoff
  split
  · exact hoff
  · split
    · exact hoff
    · split <;> simp +zetaDelta

theorem execSysRstNAssert_staysOff (time s) : staysOff s (execSysRstNAssert time s) := fun _ => rfl

theorem execPwrOkFall_staysOff (high time s) : staysOff s (execPwrOkFall high time s) := by
  intro hoff
  split
  · exact hoff
  · rfl

theorem execSupplyOutOfRange_staysOff (mv time s) : staysOff s (execSupplyOutOfRange mv time s) := by
  intro hoff
  split
  · exact hoff
  · rfl

theorem execAuxPowerLoss_staysOff (time s) : staysOff s (execAuxPowerLoss time s) := fun _ => rfl

/-- The commands that may change power are the bell boundary and those of the supplies and of SYS_RST_N; every other one keeps it by its own lemma. -/
theorem exec_staysOff {c : Instr} (hc : ∀ okA okB time, c ≠ .sysRstNRelease okA okB time) (s : State) : staysOff s (exec c s) := by
  cases c
  case bellBoundary b => exact execBellBoundary_staysOff b s
  case shutdownTrip channel reading wire time => exact execShutdownTrip_staysOff channel reading wire time s
  case sysRstNAssert time => exact execSysRstNAssert_staysOff time s
  case pwrOkFall high time => exact execPwrOkFall_staysOff high time s
  case supplyOutOfRange mv time => exact execSupplyOutOfRange_staysOff mv time s
  case auxPowerLoss time => exact execAuxPowerLoss_staysOff time s
  case sysRstNRelease okA okB time => exact absurd rfl (hc okA okB time)
  all_goals exact staysOff_of_keepsPower (by dsimp only [exec]; simp)

theorem execSysRstNRelease_powers {okA okB : Bool} {time : Nat} {s t : State} (hoff : s.sys.powered = false)
    (h : execSysRstNRelease okA okB time s = .next t) (hon : t.sys.powered = true) :
    s.sys.pwrOk = true ∧ s.sys.v12 = true ∧ s.sys.sysRstN = false := by
  unfold execSysRstNRelease at h
  dsimp only at h
  split at h <;> rename_i hreleased
  · cases h
    exact absurd hon (by simp [hoff])
  · split at h <;> rename_i hsupply
    · obtain ⟨-, hv12, hok, -⟩ := hsupply
      exact ⟨hok, hv12, eq_false_of_ne_true hreleased⟩
    · cases h
      exact absurd hon (by simp [hoff])

/-- Settles O55: out of range the watch performs the reset of SYS_RST_N but for what the sideband shows (`supplyReset_eq_supplyShown`), and no command but a
release of SYS_RST_N leaves `powered` set where it was not (`exec_staysOff`). -/
theorem supplyWatch : Obligations.SupplyWatch := by
  unfold Obligations.SupplyWatch
  refine ⟨fun s mv time hmv => ?outOfRange, fun s mv time hlow hhigh => execSupplyOutOfRange_in hlow hhigh time s, fun s t c hoff hexec hon => ?powered⟩
  case outOfRange =>
    exact ⟨_, _, execSupplyOutOfRange_out hmv time s, rfl, powerLost_of_deviceReset (origin := 0) (s := atTime time s) rfl rfl, rfl,
      supplyReset_eq_supplyShown (s := atTime time s) rfl, rfl⟩
  case powered =>
    by_cases hrelease : ∃ okA okB time, c = .sysRstNRelease okA okB time
    · obtain ⟨okA, okB, time, rfl⟩ := hrelease
      obtain ⟨hok, hv12, hrst⟩ := execSysRstNRelease_powers hoff hexec hon
      exact ⟨hok, hv12, hrst, okA, okB, time, rfl⟩
    · have hstays := exec_staysOff (fun okA okB time h => hrelease ⟨okA, okB, time, h⟩) s
      rw [hexec] at hstays
      exact absurd hon (by simp [hstays hoff])

end Sys2Proof.Machine
end
